-- ==== Sys2Proof/Word.lean ====
section
/-!
DEFINITION. Bytes, 32-bit wrapping counts, and banks: a fixed number of like records reached by number.
-/

namespace Sys2Proof

/-- One byte of a message (chapter 11). -/
abbrev Byte := BitVec 8

/-- A 32-bit wrapping count (section 4.3: it returns to 0 after its largest value). -/
abbrev Count := BitVec 32

/-- A fixed number `n` of like records, keyed 0 to `n - 1`. -/
abbrev Bank (n : Nat) (α : Type) := Vector α n

namespace Bank

/-- The record at a key. -/
def read {n : Nat} {α : Type} (b : Bank n α) (i : Fin n) : α := Vector.get b i

/-- The bank with one record replaced. -/
def put {n : Nat} {α : Type} (b : Bank n α) (i : Fin n) (a : α) : Bank n α := Vector.set b i.val a i.isLt

/-- A bank whose every record is the same. -/
def fill (n : Nat) {α : Type} (a : α) : Bank n α := Vector.replicate n a

/-- A bank written from its keys. -/
def gen {n : Nat} {α : Type} (f : Fin n → α) : Bank n α := Vector.ofFn f

end Bank

/-- All keys of a bank, in rising order. -/
def keys (n : Nat) : List (Fin n) := List.finRange n

/-- `ceil(a / b)` of section 4.3, for `b` above 0. -/
def ceilDiv (a b : Nat) : Nat := (a + b - 1) / b

end Sys2Proof
end

