-- ==== Sys2Proof/Config.lean ====
section
/-!
DEFINITION. What the part fixes (durations that come from no setting) and the free values: results for which the spec
states no value (log 17).
-/

namespace Sys2Proof.Config

/-- Debounce time of contacts, latches and presence lines, in ms (R4, R66). -/
def debounceMs : Nat := 20

/-- Response timer of the slot link and of the module link, in ms (R31, R68). -/
def responseMs : Nat := 50

/-- Quiet period of both links, in ms (R33, R68). -/
def quietMs : Nat := 50

/-- Power-down timer, in ms; it comes from no setting (R18). -/
def powerDownMs : Nat := 500

/-- Supply start delay, in ms; it comes from no setting (R73). -/
def supplyStartMs : Nat := 500

/-- Settle period of a calibration decision, in ms (R126). -/
def settleMs : Nat := 400

/-- Count window, in ms (R124). -/
def windowMs : Nat := 200

/-- Release timer of a LOCKED fan, in s (R130). -/
def releaseS : Nat := 60

/-- FREE VALUE (log 17). The margin a STATUS page is taken to carry when its byte lies outside 0 to 127: R50 gives the
range and states no result outside it. One value for each page taken, by the count of them that State holds. The type keeps
the field's bound (Table 6). -/
opaque freeMargin : Nat → BitVec 7

/-- FREE VALUE (log 17). The measured draw a STATUS page is taken to carry when its two bytes lie outside 0 to 4095
(R50). The type keeps the field's bound. -/
opaque freeDraw : Nat → BitVec 12

/-- FREE VALUE (log 17). Whether a STATUS page reports halted when its byte is neither 0 (no) nor 1 (yes) (R50, R192). -/
opaque freeHalted : Nat → Bool

end Sys2Proof.Config
end

