-- ==== Sys2Proof/Syntax.lean ====
section
/-!
DEFINITION. The commands of the part, one constructor per row of spec/opcode_table.json, and the types of their operands.
A level operand is `true` for the active meaning of Table 75 (PRESENT, CLOSED, ASSERTED, UP).
-/

namespace Sys2Proof

/-- The three debounced mechanical inputs of a slot (R4). -/
inductive SlotInput
  | early | late | latch
deriving DecidableEq, Repr

/-- The two presence contacts of a slot (R4). -/
inductive Contact
  | early | late
deriving DecidableEq, Repr

/-- A supply bay or a fan bay: the locations the module link serves (section 3.7). -/
inductive Bay
  | supply (b : Fin 6)
  | fan (f : Fin 8)
deriving DecidableEq, Repr

/-- What a unit is (Table 24 field 3), in the order that codes it. -/
inductive UnitKind
  | blade | supply | fan
deriving DecidableEq, Repr

/-- Where a unit is (Table 24 field 4). -/
inductive Location
  | slot (k : Fin 16)
  | supply (b : Fin 6)
  | fan (f : Fin 8)
deriving DecidableEq, Repr

/-- Level of a grant (Table 36), in the order that codes it. -/
inductive Level
  | none | floor | full
deriving DecidableEq, Repr

/-- How a GRANT settlement ended, as the slot link engine reports it to the power unit (R45, R36). -/
inductive SettleOutcome
  | settled | failed | abandoned
deriving DecidableEq, Repr

/-- The outcome of a CAP or UNCAP exchange (R48). -/
inductive LimitOutcome
  | accepted | refused | failed | superseded | abandoned
deriving DecidableEq, Repr

/-- A management frame at its completion: its length in bytes, its tag and whether its check passed (chapter 9). -/
structure Frame where
  length : Nat
  tag : Nat
  good : Bool
deriving DecidableEq, Repr

/-- Verbs of a request, in the order that codes them from 1 (R192). -/
inductive Verb
  | fetch | amend | define | retire | order | ack
deriving DecidableEq, Repr

/-- Tables of the request port, in the order of Table 66 that codes them from 1 (R192). -/
inductive TableId
  | slot | inventory | supply | power | zone | fan | channel | uplink | lane | settings | alert
deriving DecidableEq, Repr

/-- Alert objects (Table 69), in row order. -/
inductive AlertObject
  | slot (k : Fin 16)
  | supply (b : Fin 6)
  | fan (f : Fin 8)
  | zone (z : Fin 4)
  | channel (h : Fin 32)
  | uplink (u : Fin 2)
  | chassis
deriving DecidableEq, Repr

/-- A key that names an inventory record, or the epoch key (R56, R57). -/
inductive InvKey
  | handle (h : Fin 48) (generation : Byte)
  | location (l : Location)
  | serial (kind : UnitKind) (chars : List Byte)
  | epoch
deriving DecidableEq, Repr

/-- A key of the alert table (R188). -/
inductive AlertKey
  | index
  | object (o : AlertObject)
deriving DecidableEq, Repr

/-- A key as a request carries it, in the forms of section 11.2; `record` is form 0 and `noKey` is form 7. -/
inductive Key
  | record (n : Nat)
  | inv (k : InvKey)
  | alert (k : AlertKey)
  | noKey
deriving DecidableEq, Repr

/-- One field item of an AMEND or DEFINE (R192): a field number and its value bytes, or absent (n = 255). -/
structure Item where
  field : Nat
  value : Option (List Byte)
deriving DecidableEq, Repr

/-- A set of alert causes of one object, bit i for the i-th cause of its row of Table 69 (R192). -/
abbrev CauseSet := BitVec 16

/-- The commands: one constructor per row of the table. -/
inductive Instr
  | coldReset
  | slotInputEdge (k : Fin 16) (input : SlotInput) (level : Bool)
  | contactDebounceExpiry (k : Fin 16) (contact : Contact)
  | latchDebounceExpiry (k : Fin 16)
  | pwrGoodChange (k : Fin 16) (level : Bool)
  | powerUpDelayExpiry (k : Fin 16)
  | resetHoldExpiry (k : Fin 16)
  | pollTimerExpiry (k : Fin 16)
  | drainTimerExpiry (k : Fin 16)
  | powerDownTimerExpiry (k : Fin 16)
  | closeOrder (k : Fin 16)
  | shedOffAction (k : Fin 16)
  | thermalDrainRequest (k : Fin 16)
  | slotPageReceived (k : Fin 16) (page : List Byte)
  | slotResponseTimeout (k : Fin 16)
  | slotQuietEnd (k : Fin 16)
  | capRequest (k : Fin 16) (limit : Nat)
  | uncapRequest (k : Fin 16) (limit : Nat)
  | grantRequest (k : Fin 16) (grant : Nat) (level : Level)
  | matchHandoff (k : Fin 16) (handles : List (Fin 32))
  | settlementReport (k : Fin 16) (outcome : SettleOutcome)
  | capOutcome (k : Fin 16) (outcome : LimitOutcome)
  | uncapOutcome (k : Fin 16) (outcome : LimitOutcome)
  | modulePresenceEdge (bay : Bay) (level : Bool)
  | modulePresenceDebounceExpiry (bay : Bay)
  | moduleResponse (message : List Byte)
  | moduleResponseTimeout
  | moduleQuietEnd
  | psuPgChange (b : Fin 6) (level : Bool)
  | supplyStartDelayExpiry (b : Fin 6)
  | settlePeriodEnd (f : Fin 8)
  | countWindowEnd (f : Fin 8) (pulses : Nat)
  | releaseTimerExpiry (f : Fin 8)
  | graceSecondTick (z : Fin 4)
  | graceTimerExpiry (z : Fin 4)
  | uplinkFrameStart (u : Fin 2)
  | uplinkFrameCompletion (u : Fin 2) (frame : Frame)
  | laneFrameCompletion (k : Fin 16) (frame : Frame)
  | uplinkTransmitCompletion (u : Fin 2)
  | laneTransmitCompletion (k : Fin 16)
  | uplLinkChange (u : Fin 2) (level : Bool)
  | readStatus
  | putRequest (message : List Byte)
  | getResponse (clocked : Nat)
  | unknownPortCommand (command : Byte)
  | unacceptedVerb (verb : Verb) (table : TableId) (key : Key)
  | fetchSlot (k : Fin 16)
  | fetchInventory (key : InvKey)
  | fetchSupply (b : Fin 6)
  | fetchPower
  | fetchZone (z : Fin 4)
  | fetchFan (f : Fin 8)
  | fetchChannel (h : Fin 32)
  | fetchUplink (u : Fin 2)
  | fetchLane (k : Fin 16)
  | fetchSettings
  | fetchAlert (key : AlertKey)
  | amendSlot (k : Fin 16) (items : List Item)
  | amendInventory (key : InvKey) (items : List Item)
  | amendZone (z : Fin 4) (items : List Item)
  | amendChannel (h : Fin 32) (items : List Item)
  | amendSettings (items : List Item)
  | defineChannel (items : List Item)
  | retireInventory (key : InvKey)
  | retireChannel (h : Fin 32)
  | ack (o : AlertObject) (causes : CauseSet)
  | orderAdmit (k : Fin 16)
  | orderReadmit (k : Fin 16)
  | orderEvict (k : Fin 16)
  | orderForceOff (k : Fin 16)
  | orderRenegotiate (k : Fin 16)
  | orderCap (k : Fin 16)
  | orderUncap (k : Fin 16)
  | orderRetrySupply (b : Fin 6)
  | orderCommitCurve (z : Fin 4)
  | orderPin (f : Fin 8) (band : Nat)
  | orderUnpin (f : Fin 8)
  | orderRetryFan (f : Fin 8)
  | orderPass (h : Fin 32)
  | orderHold (h : Fin 32)
  | orderBar (h : Fin 32)
  | orderFlush (h : Fin 32)
  | orderEnable (u : Fin 2)
  | orderDisable (u : Fin 2)
  | orderRestart
deriving DecidableEq, Repr

end Sys2Proof
end

