-- ==== Sys2Proof/Machine/State.lean ====
section
/-!
DEFINITION. The state of the part, block by block (Table 1), as plain data, with its value after cold reset, and the
reasons a step can stop. Two-valued levels are Booleans: `true` is PRESENT, CLOSED, ASSERTED, UP, ENABLED, ALLOWED, yes,
except where a docstring says otherwise.
-/

namespace Sys2Proof.Machine

/-- Reasons for a fault. The spec names no event that stops the part, so there is none and no meaning faults: safe. -/
inductive Fault
deriving DecidableEq, Repr

/-- Reasons for a refusal. -/
inductive Refusal
  /-- Raised by exec's arm of a command that has no meaning yet, with the row's mnemonic. Safe: nothing is claimed of it. -/
  | notModelled (mnemonic : String)
deriving DecidableEq, Repr

/-! ## Debounced inputs (R4, R66) -/

/-- An input with a 20 ms debounce timer: the level on the pin, the debounced field, and whether the timer runs. -/
structure Debounced where
  pin : Bool
  field : Bool
  timer : Bool
deriving DecidableEq, Repr

/-- After cold reset the field is ABSENT or OPEN and the timer runs on the sampled level (R4, R66). -/
def Debounced.reset (pin : Bool) : Debounced := { pin := pin, field := false, timer := true }

/-! ## Slot controller (chapter 1) -/

/-- Table 7, in the order that codes it. -/
inductive SlotState
  | empty | seated | interrogating | negotiating | awaitingAdmit | awaitingGrant | powering | starting | running
  | draining | poweringDown | held | adopting
deriving DecidableEq, Repr

/-- Table 6 field 3, in the order that codes it. -/
inductive HoldReason
  | evicted | forced | shed | thermal | powerFault | noAnswer | negError | bladeOffline | budgetMismatch
  | inventoryFull | duplicateIdentity | adoptMismatch
deriving DecidableEq, Repr

/-- Table 6 field 4, in the order that codes it. -/
inductive DrainCause
  | latch | evict | shed | thermal | adoptMismatch
deriving DecidableEq, Repr

/-- A handle with its generation (Table 6 field 8). -/
structure InvRef where
  handle : Fin 48
  generation : Byte
deriving DecidableEq, Repr

/-- Table 6 field 9. -/
structure Terms where
  runDraw : Nat
  floorDraw : Nat
  priority : Nat
  requests : List Nat
  short : Bool
deriving DecidableEq, Repr

/-- The fault code of a page (section 2.2), in the order that codes it. -/
inductive FaultCode
  | none | degraded | offline | refused
deriving DecidableEq, Repr

/-- Table 6 field 14. -/
structure BladeStatus where
  margin : Nat
  measured : Nat
  fault : FaultCode
  halted : Bool
deriving DecidableEq, Repr

/-- The power-down outcomes of Table 10 with the latch CLOSED. -/
inductive PdOutcome
  | interrogating | heldEvicted | heldShed | heldThermal | heldAdoptMismatch | heldForced | heldPowerFault
deriving DecidableEq, Repr

/-- Fields 2 to 17 of a slot record (Table 6; field 1 is the key), the slot timers, and what R18 and R28 keep beside the
record. A running timer holds the duration read at its start: ms, or s for the drain timer. -/
structure Slot where
  state : SlotState
  holdReason : Option HoldReason
  drainCause : Option DrainCause
  early : Debounced
  late : Debounced
  latch : Debounced
  handle : Option InvRef
  terms : Option Terms
  priorityOverride : Option Nat
  switchClosed : Bool
  powerGood : Bool
  /-- `true` is RELEASED. -/
  resetReleased : Bool
  lastStatus : Option BladeStatus
  silence : Nat
  silent : Bool
  overdraw : Nat
  powerUpDelay : Option Nat
  resetHold : Option Nat
  pollTimer : Option Nat
  drainTimer : Option Nat
  powerDownTimer : Option Nat
  /-- R18: the power-down outcome, kept with the slot in POWERING_DOWN. -/
  outcome : Option PdOutcome
  /-- R28: the drain cause kept aside in ADOPTING. -/
  adoptCause : Option DrainCause
deriving DecidableEq, Repr

/-- R1, given the levels sampled at reset. -/
def Slot.reset (early late latch powerGood : Bool) : Slot :=
  { state := .empty, holdReason := none, drainCause := none,
    early := .reset early, late := .reset late, latch := .reset latch,
    handle := none, terms := none, priorityOverride := none,
    switchClosed := false, powerGood := powerGood, resetReleased := false,
    lastStatus := none, silence := 0, silent := false, overdraw := 0,
    powerUpDelay := none, resetHold := none, pollTimer := none, drainTimer := none, powerDownTimer := none,
    outcome := none, adoptCause := none }

/-! ## Slot link engines (chapter 2) -/

/-- Table 19: the multi-page procedure the engine is running. -/
inductive Phase
  | idle | interrogation | negotiation | renegotiation
deriving DecidableEq, Repr

/-- The pages the part sends (section 2.2), with their payloads (Table 73). -/
inductive PageRequest
  | interrogate
  | negotiate
  | next
  | grant (grant : Nat) (level : Level)
  | channelGrant (base limit : Nat)
  | cap (limit : Nat)
  | uncap (limit : Nat)
  | shutdown
  | poll
deriving DecidableEq, Repr

/-- Table 19: the exchange in flight; `second` is attempt 2. Its 50 ms response timer runs while it is present (R31). -/
structure Exchange where
  request : PageRequest
  toggle : Bool
  second : Bool
deriving DecidableEq, Repr

/-- The pending exchange list: at most one entry of each kind, with its payload (R34). -/
structure PendingList where
  shutdown : Bool
  cap : Option Nat
  uncap : Option Nat
  grant : Option (Nat × Level)
  poll : Bool
deriving DecidableEq, Repr

/-- The empty pending exchange list. -/
def PendingList.empty : PendingList := { shutdown := false, cap := none, uncap := none, grant := none, poll := false }

/-- A settlement in progress: the channel handles in match order, and how many of them have been taken (R45). -/
structure Settlement where
  channels : List (Fin 32)
  next : Nat
deriving DecidableEq, Repr

/-- What a phase has gathered: the identity draft (R37) or the terms draft (R39); `fresh` is a draft with nothing in it. -/
inductive Draft
  | fresh
  | identity (vendor model : BitVec 16) (revision : Byte) (serialLength : Nat) (chars : List Byte)
  | terms (runDraw floorDraw priority count : Nat) (requests : List Nat)
deriving DecidableEq, Repr

/-- Table 19. -/
structure Engine where
  phase : Phase
  inFlight : Option Exchange
  quiet : Bool
  list : PendingList
  settlement : Option Settlement
  renegRequest : Bool
  toggle : Bool
  responses : Nat
  draft : Option Draft
deriving DecidableEq, Repr

/-- R30. -/
def Engine.reset : Engine :=
  { phase := .idle, inFlight := none, quiet := false, list := .empty, settlement := none, renegRequest := false,
    toggle := false, responses := 0, draft := none }

/-! ## Inventory unit (chapter 3) -/

/-- A unit's identity with the kind-specific figures an offer carries (section 3.3). -/
structure Identity where
  vendor : BitVec 16
  model : BitVec 16
  revision : Byte
  serial : List Byte
  capacity : Option Nat
  fanDraw : Option Nat
  fanSpeed : Option Nat
  fanPulses : Option Nat
deriving DecidableEq, Repr

/-- Table 24 but for handle and generation. The kind (field 3) is that of the location. -/
structure InvRecord where
  location : Location
  /-- `true` is PRESENT, `false` DEPARTED. -/
  present : Bool
  identity : Identity
  assetTag : Option (List Byte)
  arrivals : Nat
  changeEpoch : Count
deriving DecidableEq, Repr

/-- A handle: its generation, and its record while it is in use (R55). -/
structure InvHandle where
  generation : Byte
  record : Option InvRecord
deriving DecidableEq, Repr

/-- The inventory table and the chassis epoch. -/
structure Inventory where
  handles : Bank 48 InvHandle
  epoch : Count
deriving DecidableEq, Repr

/-- R55. -/
def Inventory.reset : Inventory := { handles := .fill 48 { generation := 0, record := none }, epoch := 0 }

/-! ## Module link controller (section 3.7) -/

/-- Table 25; `presence` fields are the debounced levels of PSU_PRES and FAN_PRES. -/
structure ModuleLink where
  supplies : Bank 6 Debounced
  fans : Bank 8 Debounced
  queue : List Bay
  /-- The bay being read and whether attempt 2 was sent; the 50 ms response timer runs while it is present (R68). -/
  reading : Option (Bay × Bool)
  quiet : Bool
deriving DecidableEq, Repr

/-- R66, R72. -/
def ModuleLink.reset (supplies : Fin 6 → Bool) (fans : Fin 8 → Bool) : ModuleLink :=
  { supplies := .gen fun b => .reset (supplies b), fans := .gen fun f => .reset (fans f),
    queue := [], reading := none, quiet := false }

/-! ## Power unit (chapters 4 and 5) -/

/-- Table 29, in the order that codes it. -/
inductive SupplyState
  | absent | identifying | starting | online | failed
deriving DecidableEq, Repr

/-- Table 28 field 2, in the order that codes it. -/
inductive SupplyFail
  | unread | noOutput | lost
deriving DecidableEq, Repr

/-- Table 28, with the 500 ms start delay. -/
structure Supply where
  state : SupplyState
  failReason : Option SupplyFail
  handle : Option InvRef
  capacity : Nat
  enable : Bool
  powerGood : Bool
  startDelay : Bool
deriving DecidableEq, Repr

/-- R73. -/
def Supply.reset (powerGood : Bool) : Supply :=
  { state := .absent, failReason := none, handle := none, capacity := 0, enable := false, powerGood := powerGood,
    startDelay := false }

/-- A set of cap reasons (section 5.1). -/
structure CapSet where
  budget : Bool
  thermal : Bool
  host : Bool
deriving DecidableEq, Repr

/-- The reasons a cap set is drawn from, in the order of R192. -/
inductive CapReason
  | budget | thermal | host
deriving DecidableEq, Repr

/-- The empty cap set. -/
def CapSet.empty : CapSet := { budget := false, thermal := false, host := false }

/-- {BUDGET}. -/
def CapSet.onlyBudget : CapSet := { budget := true, thermal := false, host := false }

/-- Table 37: the admission stage. -/
inductive Stage
  | none | queued | settling | closing
deriving DecidableEq, Repr

/-- The grant record (Table 36) and the bookkeeping (Table 37) of a slot. -/
structure GrantRecord where
  grant : Nat
  level : Level
  capSet : CapSet
  stage : Stage
  capRequest : Option CapSet
  uncapRequest : Bool
deriving DecidableEq, Repr

/-- R92, R93. -/
def GrantRecord.reset : GrantRecord :=
  { grant := 0, level := .none, capSet := .empty, stage := .none, capRequest := none, uncapRequest := false }

/-- ADMIT or UPLIFT (R95). -/
inductive QueueKind
  | admission | uplift
deriving DecidableEq, Repr

/-- A grant queue entry (R95). `priority` is the effective priority read when it joined; `fresh` marks an entry that joined
in the event being taken (R96, log 7 and 8). -/
structure QueueEntry where
  slot : Fin 16
  kind : QueueKind
  need : Nat
  priority : Nat
  fresh : Bool
deriving DecidableEq, Repr

/-- CAP or OFF (R107). -/
inductive ShedAction
  | cap | off
deriving DecidableEq, Repr

/-- A shed list entry (R107); `acting` is ACTING. -/
structure ShedEntry where
  slot : Fin 16
  action : ShedAction
  acting : Bool
deriving DecidableEq, Repr

/-- A fan reservation: the reserved band last given and the rated draw given with it (section 4.5). -/
structure Reservation where
  band : Nat
  ratedDraw : Option Nat
deriving DecidableEq, Repr

/-- The power unit. `serviceDue` says that a trigger of R97 was met in the event being taken (log 7). -/
structure Power where
  supplies : Bank 6 Supply
  reservations : Bank 8 Reservation
  grants : Bank 16 GrantRecord
  queue : List QueueEntry
  shed : List ShedEntry
  serviceDue : Bool
deriving DecidableEq, Repr

/-- R73, R89, R92, R93, R95, R107. -/
def Power.reset (powerGood : Fin 6 → Bool) : Power :=
  { supplies := .gen fun b => .reset (powerGood b), reservations := .fill 8 { band := 0, ratedDraw := none },
    grants := .fill 16 .reset, queue := [], shed := [], serviceDue := false }

/-! ## Fan controller (chapters 6 and 7) -/

/-- A point of a curve: margin in °C and speed in rpm. -/
structure CurvePoint where
  margin : Nat
  speed : Nat
deriving DecidableEq, Repr

/-- Six points, in the order written. -/
abbrev Curve := Bank 6 CurvePoint

/-- Table 44. -/
def Curve.reset : Curve :=
  #v[⟨40, 3000⟩, ⟨30, 4500⟩, ⟨20, 6500⟩, ⟨15, 9000⟩, ⟨10, 12000⟩, ⟨5, 16000⟩]

/-- Table 43 field 6, in the order that codes it. -/
inductive EmergencyCause
  | margin | fans
deriving DecidableEq, Repr

/-- Table 43, with the grace timer of section 7.2 (running or stopped; the seconds left are grace remaining). -/
structure Zone where
  active : Curve
  staged : Curve
  demand : Option Nat
  target : Nat
  emergency : Bool
  cause : Option EmergencyCause
  grace : Option Nat
  graceTimer : Bool
deriving DecidableEq, Repr

/-- R116, R140. -/
def Zone.reset : Zone :=
  { active := Curve.reset, staged := Curve.reset, demand := none, target := 3000, emergency := false, cause := none,
    grace := none, graceTimer := false }

/-- Table 47, in the order that codes it. -/
inductive FanState
  | absent | identifying | calibrating | tracking | locked | pinned | boost | failed
deriving DecidableEq, Repr

/-- Table 46 field 12. -/
structure Search where
  index : Nat
  partialResult : Nat
  trial : Nat
deriving DecidableEq, Repr

/-- Table 48: the settle period or count window running. -/
inductive Window
  | none | settle | count
deriving DecidableEq, Repr

/-- Table 46 and Table 48. `windowBand` is the band driven since the running count window started, the band that R124 and
R131 judge at its end (log 41). -/
structure Fan where
  state : FanState
  handle : Option InvRef
  assumed : Bool
  ratedDraw : Nat
  maxSpeed : Nat
  pulses : Nat
  band : Nat
  reservedBand : Nat
  target : Nat
  measured : Nat
  lockCount : Nat
  search : Option Search
  pinnedBand : Option Nat
  weakCount : Nat
  searchTarget : Nat
  window : Window
  windowBand : Nat
  stallCount : Nat
  unlockCount : Nat
  releaseTimer : Bool
deriving DecidableEq, Repr

/-- R122; search target 0 is a DESIGN CHOICE (log 34). -/
def Fan.reset : Fan :=
  { state := .absent, handle := none, assumed := false, ratedDraw := 0, maxSpeed := 0, pulses := 0, band := 0,
    reservedBand := 0, target := 0, measured := 0, lockCount := 0, search := none, pinnedBand := none, weakCount := 0,
    searchTarget := 0, window := .none, windowBand := 0, stallCount := 0, unlockCount := 0, releaseTimer := false }

/-- The fan controller. `drainSent` says that a thermal drain request was sent to the slot since its last entry to
RUNNING (R146, log 32). -/
structure FanUnit where
  zones : Bank 4 Zone
  fans : Bank 8 Fan
  drainSent : Bank 16 Bool
deriving DecidableEq, Repr

/-- R116, R122. -/
def FanUnit.reset : FanUnit := { zones := .fill 4 .reset, fans := .fill 8 .reset, drainSent := .fill 16 false }

/-! ## Uplink hub (chapters 8 and 9) -/

/-- Table 56, in the order that codes it (Table 54 field 11). -/
inductive ChannelState
  | hold | pass | bar
deriving DecidableEq, Repr

/-- Table 54 field 12, in the order that codes it. -/
inductive HoldCause
  | host | slot | uplink
deriving DecidableEq, Repr

/-- Table 54 field 17. -/
structure ChannelCounters where
  framesUp : Count
  framesDown : Count
  noCell : Count
  heldDrops : Count
  barredDrops : Count
  oversize : Count
  flushed : Count
deriving DecidableEq, Repr

/-- Table 54 (field 1 is the key; busy and cells in use are computed from the frames), with the channel's two queues of
frame lengths, head first, and the frames of it that a flush detached on the lane and on an uplink (R162). -/
structure Channel where
  slot : Fin 16
  base : Nat
  limit : Nat
  preferred : Fin 2
  fallback : Bool
  autoPass : Bool
  maxFrame : Nat
  firstCell : Nat
  cellCount : Nat
  state : ChannelState
  holdCause : Option HoldCause
  granted : Bool
  active : Fin 2
  counters : ChannelCounters
  down : List Nat
  up : List Nat
  detachedDown : Option Nat
  detachedUp : Option Nat
deriving DecidableEq, Repr

/-- What a line (a lane or an uplink) is sending: a stored frame of a channel, or a detached one (R162, R172, R173). -/
inductive Sending
  | stored (h : Fin 32)
  | detached (h : Fin 32)
deriving DecidableEq, Repr

/-- Table 60 field 5. -/
structure UplinkCounters where
  framesIn : Count
  framesOut : Count
  unmatched : Count
  checkErrors : Count
  flushed : Count
deriving DecidableEq, Repr

/-- Table 60. The egress list holds, head first, the channel and the length of each waiting frame. -/
structure Uplink where
  link : Bool
  admin : Bool
  egress : List (Fin 32 × Nat)
  receiving : Bool
  counters : UplinkCounters
  sending : Option Sending
deriving DecidableEq, Repr

/-- R167. -/
def Uplink.reset (link : Bool) : Uplink :=
  { link := link, admin := true, egress := [], receiving := false,
    counters := { framesIn := 0, framesOut := 0, unmatched := 0, checkErrors := 0, flushed := 0 }, sending := none }

/-- Table 61 field 1. -/
structure LaneCounters where
  framesIn : Count
  stray : Count
  idleDrops : Count
  checkErrors : Count
deriving DecidableEq, Repr

/-- Table 61, and what the lane is sending. -/
structure Lane where
  counters : LaneCounters
  pointer : Option (Fin 32)
  sending : Option Sending
deriving DecidableEq, Repr

/-- R167. -/
def Lane.reset : Lane :=
  { counters := { framesIn := 0, stray := 0, idleDrops := 0, checkErrors := 0 }, pointer := none, sending := none }

/-- The uplink hub; `matchOrder` keeps the handles of each slot's last match in match order (R44). -/
structure Hub where
  channels : Bank 32 (Option Channel)
  matchOrder : Bank 16 (List (Fin 32))
  uplinks : Bank 2 Uplink
  lanes : Bank 16 Lane
deriving DecidableEq, Repr

/-- R150, R167. -/
def Hub.reset (link : Fin 2 → Bool) : Hub :=
  { channels := .fill 32 none, matchOrder := .fill 16 [], uplinks := .gen fun u => .reset (link u),
    lanes := .fill 16 .reset }

/-! ## Request port (chapter 10) -/

/-- Redundancy policies, in the order that codes them (R85). -/
inductive Policy
  | none | nPlus1 | nPlusN
deriving DecidableEq, Repr

/-- Table 68. Times are in the units of the table. -/
structure Settings where
  /-- `true` is AUTO, `false` HOST. -/
  autoAdmission : Bool
  policy : Policy
  baseDraw : Nat
  slotCeiling : Nat
  floorAdmission : Bool
  zoneMap : Bank 16 (Fin 4)
  powerUpDelay : Nat
  resetHold : Nat
  drainTimeout : Nat
  shedDrainTimeout : Nat
  pollInterval : Nat
  criticalMargin : Nat
  emergencyGrace : Nat
  defaultFanDraw : Nat
  defaultFanSpeed : Nat
  defaultFanPulses : Nat
deriving DecidableEq, Repr

/-- Table 68, reset column. -/
def Settings.reset : Settings :=
  { autoAdmission := false, policy := .nPlus1, baseDraw := 150, slotCeiling := 900, floorAdmission := true,
    zoneMap := #v[0, 0, 0, 0, 1, 1, 1, 1, 2, 2, 2, 2, 3, 3, 3, 3],
    powerUpDelay := 200, resetHold := 100, drainTimeout := 30, shedDrainTimeout := 10, pollInterval := 1000,
    criticalMargin := 3, emergencyGrace := 30, defaultFanDraw := 60, defaultFanSpeed := 16000, defaultFanPulses := 2 }

/-- The alert causes (Table 69), row by row. -/
inductive Cause
  | held | surpriseRemoval | powerFault | bladeSilent | overdraw | degraded | channelShort | thermalDrain | shedOff
  | supplyFailed | supplyRemoved
  | fanFailed | fanWeak | fanAssumed
  | zoneEmergency
  | oversize | uplinkHold | failover
  | linkDown | linkUp
  | budgetExhausted | inventoryFull | restarted
deriving DecidableEq, Repr

/-- Status codes, in the order that codes them (R192). -/
inductive Status
  | ok | badCheck | badForm | noRecord | stale | state | busy | range | overlap | full | invalid
deriving DecidableEq, Repr

/-- What an owner answers to a request: the status code and the result bytes (R182). -/
structure Answer where
  status : Status
  result : List Byte
deriving DecidableEq, Repr

/-- What the inventory unit answers to an offer (R59, R61). -/
inductive OfferAnswer
  | bound (r : InvRef)
  | revived (r : InvRef)
  | created (r : InvRef)
  | duplicate
  | full
deriving DecidableEq, Repr

/-- An object of the alert index with its cause set (R187). -/
structure AlertEntry where
  object : AlertObject
  causes : CauseSet
deriving DecidableEq, Repr

/-- Table 64, the settings record, the alert index, and what SPI_MISO carried in the last transfer (log 31). -/
structure Port where
  /-- The request PENDING in the request slot, decoded; `none` is EMPTY. -/
  request : Option Instr
  /-- The message in the response slot; `none` is EMPTY. -/
  response : Option (List Byte)
  overrun : Bool
  restartWaiting : Bool
  settings : Settings
  alerts : List AlertEntry
  returned : List Byte
deriving DecidableEq, Repr

/-- R179, R185, R190. -/
def Port.reset : Port :=
  { request := none, response := none, overrun := false, restartWaiting := false, settings := Settings.reset,
    alerts := [], returned := [] }

/-! ## The part -/

/-- The eight blocks of Table 1, the reports posted between them and not yet delivered (log 1), and the count of STATUS pages
taken, the model's own, which picks the free values (log 17). -/
structure Chip where
  slots : Bank 16 Slot
  engines : Bank 16 Engine
  modules : ModuleLink
  inventory : Inventory
  power : Power
  fans : FanUnit
  hub : Hub
  port : Port
  messages : List Instr
  statusPages : Nat
deriving DecidableEq, Repr

/-- The levels on the input pins that cold reset samples. -/
structure InputLevels where
  early : Bank 16 Bool
  late : Bank 16 Bool
  latch : Bank 16 Bool
  powerGood : Bank 16 Bool
  psuPresent : Bank 6 Bool
  psuPowerGood : Bank 6 Bool
  fanPresent : Bank 8 Bool
  link : Bank 2 Bool
deriving DecidableEq, Repr

/-- Every input low: the levels of `State.reset` (DESIGN CHOICE, log 5). -/
def InputLevels.low : InputLevels :=
  { early := .fill 16 false, late := .fill 16 false, latch := .fill 16 false, powerGood := .fill 16 false,
    psuPresent := .fill 6 false, psuPowerGood := .fill 6 false, fanPresent := .fill 8 false, link := .fill 2 false }

/-- Every record, collection and timer at its cold reset value, with the given levels on the input pins (R1, R30, R55,
R72, R73, R89, R92, R93, R107, R116, R122, R140, R150, R167, R179, R185, R190). -/
def Chip.reset (pins : InputLevels) : Chip :=
  { slots := .gen fun k => .reset (pins.early.read k) (pins.late.read k) (pins.latch.read k) (pins.powerGood.read k),
    engines := .fill 16 .reset,
    modules := .reset (fun b => pins.psuPresent.read b) (fun f => pins.fanPresent.read f),
    inventory := .reset,
    power := .reset fun b => pins.psuPowerGood.read b,
    fans := .reset,
    hub := .reset fun u => pins.link.read u,
    port := .reset,
    messages := [],
    statusPages := 0 }

/-- The part with the queue of commands waiting, first in, first out. -/
structure State where
  pending : List Instr
  chip : Chip
deriving DecidableEq, Repr

/-- The machine right after power-on, every input low (log 5). -/
def State.reset : State := { pending := [], chip := Chip.reset InputLevels.low }

end Sys2Proof.Machine
end

