-- ==== Sys2Proof/Machine/Operands.lean ====
section
/-!
DEFINITION. Numbers and check bytes of messages (R191, R192), multi-byte numbers most significant byte first, and the pages
sent and received, and the module read requests and identities (Tables 73 and 74, section 11.4).
-/

namespace Sys2Proof.Machine

/-- The number a list of bytes spells. -/
def number (bytes : List Byte) : Nat := bytes.foldl (fun n b => n * 256 + b.toNat) 0

/-- A number in one byte. -/
def byte1 (n : Nat) : List Byte := [BitVec.ofNat 8 n]

/-- A number in two bytes. -/
def byte2 (n : Nat) : List Byte := [BitVec.ofNat 8 (n / 256), BitVec.ofNat 8 n]

/-- A number in four bytes. -/
def byte4 (n : Nat) : List Byte := byte2 (n / 65536) ++ byte2 n

/-- R192: a signed number in four bytes, two's complement. -/
def byte4Signed (x : Int) : List Byte := byte4 (BitVec.ofInt 32 x).toNat

/-- A 32-bit count in four bytes. -/
def countBytes (n : Count) : List Byte := byte4 n.toNat

/-- R192: a number without stated upper bound reads 65535 above that. -/
def byte2Saturating (n : Nat) : List Byte := byte2 (min 65535 n)

/-- A flag in one byte: no 0, yes 1. -/
def flagByte (b : Bool) : List Byte := byte1 (if b then 1 else 0)

/-- A named value with two members of which the first stands for `true`, as PRESENT, ASSERTED, UP and ENABLED do. -/
def firstByte (b : Bool) : List Byte := byte1 (if b then 0 else 1)

/-- R191: the sum of all bytes of a message. -/
def byteSum (bytes : List Byte) : Byte := bytes.foldl (· + ·) 0

/-- R191: the check of a received message. -/
def checkPasses (bytes : List Byte) : Bool := decide (byteSum bytes = 0)

/-- R191: the check byte that ends a message. -/
def checkByte (bytes : List Byte) : Byte := 0 - byteSum bytes

/-- A message with the check byte that ends it (R191). -/
def withCheck (bytes : List Byte) : List Byte := bytes ++ [checkByte bytes]

/-- NONE, FLOOR, FULL. -/
def levelCode : Level → Nat
  | .none => 0 | .floor => 1 | .full => 2

/-! ## Slot link pages the part sends (Table 73) -/

/-- Table 73: the kind codes of the pages from the part to a blade. -/
def PageRequest.kindCode : PageRequest → Nat
  | .interrogate => 1 | .negotiate => 2 | .next => 3 | .grant _ _ => 4 | .channelGrant _ _ => 5 | .cap _ => 6
  | .uncap _ => 7 | .shutdown => 8 | .poll => 9

/-- Table 73: the payloads of the pages from the part to a blade. -/
def PageRequest.payload : PageRequest → List Byte
  | .grant w l => byte2 w ++ byte1 (levelCode l)
  | .channelGrant base limit => byte2 base ++ byte2 limit
  | .cap w | .uncap w => byte2 w
  | .interrogate | .negotiate | .next | .shutdown | .poll => []

/-- R31, R191, Table 73: the page an exchange sends, at either attempt: kind, flags with the toggle in bit 0 and the other
bits 0, payload length, payload and check byte. -/
def Exchange.page (x : Exchange) : List Byte :=
  withCheck (byte1 x.request.kindCode ++ flagByte x.toggle ++ byte1 x.request.payload.length ++ x.request.payload)

/-- The page the part has sent on a slot link and waits to have answered (R31). -/
def Engine.sentPage (e : Engine) : Option (List Byte) := e.inFlight.map Exchange.page

/-! ## Slot link pages received (Table 73) -/

/-- A page as received. A page whose bytes do not agree with its payload length has kind 0 (R191). -/
structure Page where
  kind : Nat
  flags : Byte
  payload : List Byte
deriving DecidableEq, Repr

/-- Table 73. In a page of two bytes the second is read as the flags, although it is the check byte as well (log 64). -/
def readPage : List Byte → Page
  | kind :: flags :: n :: rest =>
    if rest.length = n.toNat + 1 then { kind := kind.toNat, flags := flags, payload := rest.dropLast }
    else { kind := 0, flags := flags, payload := [] }
  | [_, flags] => { kind := 0, flags := flags, payload := [] }
  | _ => { kind := 0, flags := 0, payload := [] }

def Page.toggle (p : Page) : Bool := p.flags.getLsbD 0
def Page.more (p : Page) : Bool := p.flags.getLsbD 1
def Page.ack (p : Page) : Bool := p.flags.getLsbD 2

/-- Table 73: bits 4 and 5 of the flags. -/
def Page.fault (p : Page) : FaultCode :=
  match p.flags.getLsbD 5, p.flags.getLsbD 4 with
  | false, false => .none
  | false, true => .degraded
  | true, false => .offline
  | true, true => .refused

/-- The payload of a first IDENTITY page (R37), its characters included. -/
structure IdentityHead where
  vendor : BitVec 16
  model : BitVec 16
  revision : Byte
  serialLength : Nat
  chars : List Byte
deriving DecidableEq, Repr

/-- R37, Table 73: a first IDENTITY page. -/
def Page.identityFirst (p : Page) : Option IdentityHead :=
  match p.payload with
  | v1 :: v0 :: m1 :: m0 :: r :: n :: chars =>
    if p.kind = 16 ∧ chars.length = min n.toNat 12 then
      some { vendor := v1 ++ v0, model := m1 ++ m0, revision := r, serialLength := n.toNat, chars := chars }
    else none
  | _ => none

/-- R37, Table 73: a second IDENTITY page of a serial of a length. -/
def Page.identitySecond (p : Page) (serialLength : Nat) : Option (List Byte) :=
  if p.kind = 16 ∧ p.payload.length = serialLength - 12 then some p.payload else none

/-- R39, Table 73: the four values of a BASE page. -/
def Page.base (p : Page) : Option (Nat × Nat × Nat × Nat) :=
  match p.payload with
  | [r1, r0, f1, f0, priority, count] =>
    if p.kind = 17 then some (number [r1, r0], number [f1, f0], priority.toNat, count.toNat) else none
  | _ => none

/-- R40, Table 73: the window size of a CHANNEL_REQ page. -/
def Page.channelReq (p : Page) : Option Nat :=
  match p.payload with
  | [s1, s0] => if p.kind = 18 then some (number [s1, s0]) else none
  | _ => none

/-- Table 73: an ACK_PAGE. -/
def Page.isAck (p : Page) : Bool := decide (p.kind = 19 ∧ p.payload = [])

/-- R50, Table 73: the values of a STATUS page, the `n`-th taken. A value outside its range is free (log 17). -/
def Page.status (n : Nat) (p : Page) : Option BladeStatus :=
  match p.payload with
  | [margin, d1, d0, halted] =>
    if p.kind = 20 then
      some {
        margin := if margin.toNat ≤ 127 then margin.toNat else (Config.freeMargin n).toNat
        measured := if number [d1, d0] ≤ 4095 then number [d1, d0] else (Config.freeDraw n).toNat
        fault := p.fault
        halted := if halted = 0 then false else if halted = 1 then true else Config.freeHalted n }
    else none
  | _ => none

/-! ## Module identity (Table 74) -/

/-- A module identity response, read at a fixed place for each field. -/
structure ModuleIdentity where
  kind : Nat
  identity : Identity
deriving DecidableEq, Repr

/-- The number in some bytes of a message, at a place. -/
def numberAt (m : List Byte) (place length : Nat) : Nat := number ((m.drop place).take length)

/-- Section 11.4: the address of a bay on the module link, 64 + b for a supply bay and 72 + f for a fan bay. -/
def Bay.address : Bay → Byte
  | .supply b => BitVec.ofNat 8 (64 + b.val)
  | .fan f => BitVec.ofNat 8 (72 + f.val)

/-- R68, section 11.4: the read request of a bay: the address it goes to and the one command byte sent, 1. -/
def Bay.readRequest (bay : Bay) : Byte × List Byte := (Bay.address bay, [1])

/-- The read request the module link has sent, at either attempt, and waits to have answered (R68). -/
def ModuleLink.sentRequest (m : ModuleLink) : Option (Byte × List Byte) := m.reading.map fun r => Bay.readRequest r.1

/-- The length of the response of a bay: 34 bytes from a supply bay, 37 from a fan bay (section 11.4). -/
def Bay.responseLength : Bay → Nat
  | .supply _ => 34
  | .fan _ => 37

/-- Table 74: the response of a bay of the length read from it. -/
def readModule (bay : Bay) (m : List Byte) : ModuleIdentity :=
  { kind := numberAt m 0 1,
    identity := {
      vendor := BitVec.ofNat 16 (numberAt m 1 2)
      model := BitVec.ofNat 16 (numberAt m 3 2)
      revision := BitVec.ofNat 8 (numberAt m 5 1)
      serial := (m.drop 7).take (numberAt m 6 1)
      capacity := match bay with | .supply _ => some (numberAt m 31 2) | .fan _ => none
      fanDraw := match bay with | .supply _ => none | .fan _ => some (numberAt m 31 2)
      fanSpeed := match bay with | .supply _ => none | .fan _ => some (numberAt m 33 2)
      fanPulses := match bay with | .supply _ => none | .fan _ => some (numberAt m 35 1) } }

end Sys2Proof.Machine
end

