-- ==== Sys2Proof/Machine/Ops.lean ====
section
/-!
DEFINITION. The named reads and writes of the records of a chip, the alert index, the posting of messages between blocks,
and the frame every command runs in. Every block's operations go through these.
-/

namespace Sys2Proof.Machine

/-! ## Records -/

def Chip.slot (c : Chip) (k : Fin 16) : Slot := c.slots.read k
def Chip.engine (c : Chip) (k : Fin 16) : Engine := c.engines.read k
def Chip.grant (c : Chip) (k : Fin 16) : GrantRecord := c.power.grants.read k
def Chip.supply (c : Chip) (b : Fin 6) : Supply := c.power.supplies.read b
def Chip.reservation (c : Chip) (f : Fin 8) : Reservation := c.power.reservations.read f
def Chip.zone (c : Chip) (z : Fin 4) : Zone := c.fans.zones.read z
def Chip.fan (c : Chip) (f : Fin 8) : Fan := c.fans.fans.read f
def Chip.channel (c : Chip) (h : Fin 32) : Option Channel := c.hub.channels.read h
def Chip.uplink (c : Chip) (u : Fin 2) : Uplink := c.hub.uplinks.read u
def Chip.lane (c : Chip) (k : Fin 16) : Lane := c.hub.lanes.read k
def Chip.invHandle (c : Chip) (h : Fin 48) : InvHandle := c.inventory.handles.read h
def Chip.settings (c : Chip) : Settings := c.port.settings

def setSlot (k : Fin 16) (s : Slot) (c : Chip) : Chip := { c with slots := c.slots.put k s }
def setEngine (k : Fin 16) (e : Engine) (c : Chip) : Chip := { c with engines := c.engines.put k e }
def setPower (p : Power) (c : Chip) : Chip := { c with power := p }
def setGrant (k : Fin 16) (g : GrantRecord) (c : Chip) : Chip :=
  { c with power := { c.power with grants := c.power.grants.put k g } }
def setQueue (q : List QueueEntry) (c : Chip) : Chip := { c with power := { c.power with queue := q } }
def setShed (l : List ShedEntry) (c : Chip) : Chip := { c with power := { c.power with shed := l } }
def setServiceDue (due : Bool) (c : Chip) : Chip := { c with power := { c.power with serviceDue := due } }
def setSupply (b : Fin 6) (p : Supply) (c : Chip) : Chip :=
  { c with power := { c.power with supplies := c.power.supplies.put b p } }
def setReservation (f : Fin 8) (r : Reservation) (c : Chip) : Chip :=
  { c with power := { c.power with reservations := c.power.reservations.put f r } }
def setZone (z : Fin 4) (r : Zone) (c : Chip) : Chip := { c with fans := { c.fans with zones := c.fans.zones.put z r } }
def setFan (f : Fin 8) (r : Fan) (c : Chip) : Chip := { c with fans := { c.fans with fans := c.fans.fans.put f r } }
def setDrainSent (k : Fin 16) (b : Bool) (c : Chip) : Chip :=
  { c with fans := { c.fans with drainSent := c.fans.drainSent.put k b } }
def setChannel (h : Fin 32) (ch : Option Channel) (c : Chip) : Chip :=
  { c with hub := { c.hub with channels := c.hub.channels.put h ch } }
def setUplink (u : Fin 2) (r : Uplink) (c : Chip) : Chip :=
  { c with hub := { c.hub with uplinks := c.hub.uplinks.put u r } }
def setLane (k : Fin 16) (r : Lane) (c : Chip) : Chip := { c with hub := { c.hub with lanes := c.hub.lanes.put k r } }
def setMatchOrder (k : Fin 16) (l : List (Fin 32)) (c : Chip) : Chip :=
  { c with hub := { c.hub with matchOrder := c.hub.matchOrder.put k l } }
def setInvHandle (h : Fin 48) (r : InvHandle) (c : Chip) : Chip :=
  { c with inventory := { c.inventory with handles := c.inventory.handles.put h r } }
def setEpoch (e : Count) (c : Chip) : Chip := { c with inventory := { c.inventory with epoch := e } }
def setModules (m : ModuleLink) (c : Chip) : Chip := { c with modules := m }
def setPort (p : Port) (c : Chip) : Chip := { c with port := p }
def setAlerts (l : List AlertEntry) (c : Chip) : Chip := { c with port := { c.port with alerts := l } }
def setSettings (s : Settings) (c : Chip) : Chip := { c with port := { c.port with settings := s } }
def setMessages (l : List Instr) (c : Chip) : Chip := { c with messages := l }
def setStatusPages (n : Nat) (c : Chip) : Chip := { c with statusPages := n }

def modSlot (k : Fin 16) (f : Slot → Slot) (c : Chip) : Chip := setSlot k (f (c.slot k)) c
def modEngine (k : Fin 16) (f : Engine → Engine) (c : Chip) : Chip := setEngine k (f (c.engine k)) c
def modGrant (k : Fin 16) (f : GrantRecord → GrantRecord) (c : Chip) : Chip := setGrant k (f (c.grant k)) c
def modSupply (b : Fin 6) (f : Supply → Supply) (c : Chip) : Chip := setSupply b (f (c.supply b)) c
def modZone (z : Fin 4) (f : Zone → Zone) (c : Chip) : Chip := setZone z (f (c.zone z)) c
def modFan (i : Fin 8) (f : Fan → Fan) (c : Chip) : Chip := setFan i (f (c.fan i)) c
def modUplink (u : Fin 2) (f : Uplink → Uplink) (c : Chip) : Chip := setUplink u (f (c.uplink u)) c
def modLane (k : Fin 16) (f : Lane → Lane) (c : Chip) : Chip := setLane k (f (c.lane k)) c

/-- A change of a channel record; a free handle stays free. -/
def modChannel (h : Fin 32) (f : Channel → Channel) (c : Chip) : Chip := setChannel h ((c.channel h).map f) c

/-- One operation for each key of a list, in the list's order. -/
def forEach {α : Type} (l : List α) (f : α → Chip → Chip) (c : Chip) : Chip := l.foldl (fun c a => f a c) c

/-! ## Messages between blocks (log 1) -/

/-- A block posts a report or request that another block takes as a step of its own. -/
def post (m : Instr) (c : Chip) : Chip := setMessages (c.messages ++ [m]) c

/-- A message row is being taken: its message is no longer in flight. -/
def deliver (m : Instr) (c : Chip) : Chip := setMessages (c.messages.erase m) c

/-! ## Alert index (R187, R190) -/

/-- The bit of a cause in its object's cause set: its position in its row of Table 69 (R192). -/
def Cause.bit : Cause → Nat
  | .held => 0 | .surpriseRemoval => 1 | .powerFault => 2 | .bladeSilent => 3 | .overdraw => 4 | .degraded => 5
  | .channelShort => 6 | .thermalDrain => 7 | .shedOff => 8
  | .supplyFailed => 0 | .supplyRemoved => 1
  | .fanFailed => 0 | .fanWeak => 1 | .fanAssumed => 2
  | .zoneEmergency => 0
  | .oversize => 0 | .uplinkHold => 1 | .failover => 2
  | .linkDown => 0 | .linkUp => 1
  | .budgetExhausted => 0 | .inventoryFull => 1 | .restarted => 2

/-- The cause set that holds one cause. -/
def Cause.mask (x : Cause) : CauseSet := 1#16 <<< x.bit

/-- How many causes the row of an object's kind has in Table 69. -/
def AlertObject.causeCount : AlertObject → Nat
  | .slot _ => 9 | .supply _ => 2 | .fan _ => 3 | .zone _ => 1 | .channel _ => 3 | .uplink _ => 2 | .chassis => 3

/-- R187: a raise into an index. A new object joins at the tail; an object already in it keeps its place. -/
def raiseIn (o : AlertObject) (m : CauseSet) : List AlertEntry → List AlertEntry
  | [] => [{ object := o, causes := m }]
  | e :: rest =>
    if e.object = o then { object := o, causes := e.causes ||| m } :: rest
    else e :: raiseIn o m rest

/-- R187: a block raises a cause on an object. -/
def raise (o : AlertObject) (x : Cause) (c : Chip) : Chip := setAlerts (raiseIn o x.mask c.port.alerts) c

/-- R189: the cause set of an object, empty when the object is not in the index. -/
def causesOf (o : AlertObject) : List AlertEntry → CauseSet
  | [] => 0
  | e :: rest => if e.object = o then e.causes else causesOf o rest

/-- R189: an index with the named causes removed from an object; an object whose set empties leaves. -/
def ackIn (o : AlertObject) (m : CauseSet) : List AlertEntry → List AlertEntry
  | [] => []
  | e :: rest =>
    if e.object = o then
      (if e.causes &&& ~~~m = 0 then rest else { object := o, causes := e.causes &&& ~~~m } :: rest)
    else e :: ackIn o m rest

/-- R155: an object leaves the index with all its causes. -/
def dropObject (o : AlertObject) (c : Chip) : Chip := setAlerts (c.port.alerts.filter fun e => e.object ≠ o) c

/-- R190: ATTN_N is asserted while the alert index holds an object. -/
def Chip.attention (c : Chip) : Bool := !c.port.alerts.isEmpty

/-! ## Keys that belong together -/

/-- The other uplink. -/
def otherUplink (u : Fin 2) : Fin 2 := if u = 0 then 1 else 0

/-- Fan bays 2z and 2z+1 of zone z (section 5, Table 3). -/
def firstFan (z : Fin 4) : Fin 8 := ⟨2 * z.val, by have := z.isLt; omega⟩
def secondFan (z : Fin 4) : Fin 8 := ⟨2 * z.val + 1, by have := z.isLt; omega⟩

/-- The zone of a fan bay. -/
def fanZone (f : Fin 8) : Fin 4 := ⟨f.val / 2, by have := f.isLt; omega⟩

/-- R118, R156: RUNNING or DRAINING. -/
def SlotState.isCounted (s : SlotState) : Bool := s = .running ∨ s = .draining

/-- R7: the powered states, those with the switch CLOSED. -/
def SlotState.powered (s : SlotState) : Bool :=
  s = .powering ∨ s = .starting ∨ s = .running ∨ s = .draining ∨ s = .adopting

/-- R6: the states with the blade reset RELEASED. -/
def SlotState.released (s : SlotState) : Bool := s = .running ∨ s = .draining ∨ s = .adopting

/-- R7: the pre-power states. -/
def SlotState.prePower (s : SlotState) : Bool :=
  s = .interrogating ∨ s = .negotiating ∨ s = .awaitingAdmit ∨ s = .awaitingGrant

/-- The states in which a slot waits for, holds or still has to release a grant (R12, R19). -/
def SlotState.holdsGrant (s : SlotState) : Bool := s.powered ∨ s = .awaitingGrant ∨ s = .poweringDown

/-- The zone a slot is mapped to (Table 68 field 6). -/
def Chip.slotZone (c : Chip) (k : Fin 16) : Fin 4 := c.settings.zoneMap.read k

end Sys2Proof.Machine
end

