-- ==== Sys2Proof/Machine/Fields.lean ====
section
/-!
DEFINITION. The fields of the tables reachable through the request port (Table 66): their form in a request and the judging
of field items (R192).
-/

namespace Sys2Proof.Machine

/-- The form of a field's value in an item (R192). -/
inductive Shape
  /-- A value of so many bytes. -/
  | fixed (n : Nat)
  /-- A value of so many bytes, or absent. -/
  | opt (n : Nat)
  /-- A string. -/
  | text
  /-- A string, or absent. -/
  | optText
  /-- The terms record of Table 6, or absent. -/
  | terms
  /-- The zone map as an AMEND gives it: a count and pairs of slot and zone. -/
  | pairs
deriving DecidableEq, Repr

/-- The fields of each table in field order, counting from 1. The alert table has none. -/
def shapes : TableId → List Shape
  | .slot =>
    [.fixed 1, .fixed 1, .opt 1, .opt 1, .fixed 1, .fixed 1, .fixed 1, .opt 2, .terms, .opt 1,
     .fixed 1, .fixed 1, .fixed 1, .opt 5, .fixed 1, .fixed 1, .fixed 1, .fixed 2, .fixed 1, .fixed 1]
  | .inventory =>
    [.fixed 1, .fixed 1, .fixed 1, .fixed 2, .fixed 1, .fixed 2, .fixed 2, .text, .fixed 1, .opt 2,
     .opt 2, .opt 2, .opt 1, .optText, .fixed 2, .fixed 4]
  | .supply => [.fixed 1, .opt 1, .opt 2, .fixed 2, .fixed 1, .fixed 1]
  | .power => [.fixed 1, .fixed 2, .fixed 2, .fixed 2, .fixed 2, .fixed 2, .fixed 2, .fixed 2, .fixed 4, .fixed 1]
  | .zone => [.fixed 18, .fixed 18, .opt 1, .fixed 2, .fixed 1, .opt 1, .opt 2]
  | .fan =>
    [.fixed 1, .opt 2, .fixed 1, .fixed 2, .fixed 2, .fixed 1, .fixed 1, .fixed 1, .fixed 2, .fixed 2,
     .fixed 1, .opt 3, .opt 1, .fixed 1]
  | .channel =>
    [.fixed 1, .fixed 1, .fixed 2, .fixed 2, .fixed 1, .fixed 1, .fixed 1, .fixed 2, .fixed 2, .fixed 1,
     .fixed 1, .opt 1, .fixed 1, .fixed 1, .fixed 1, .fixed 1, .fixed 28]
  | .uplink => [.fixed 1, .fixed 1, .fixed 4, .fixed 1, .fixed 20]
  | .lane => [.fixed 16, .opt 1]
  | .settings =>
    [.fixed 1, .fixed 1, .fixed 2, .fixed 2, .fixed 1, .pairs, .fixed 2, .fixed 2, .fixed 1, .fixed 1,
     .fixed 2, .fixed 1, .fixed 1, .fixed 2, .fixed 2, .fixed 1]
  | .alert => []

/-- The form of a field of a table, if the table has the field. -/
def fieldShape (t : TableId) (field : Nat) : Option Shape := if field = 0 then none else (shapes t)[field - 1]?

/-- The pairs of a zone map operand, in order. -/
def readPairs : List Byte → List (Nat × Nat)
  | slot :: zone :: rest => (slot.toNat, zone.toNat) :: readPairs rest
  | _ => []

/-- Whether no entry of a list stands in it twice. -/
def allDistinct : List Nat → Bool
  | [] => true
  | x :: rest => !rest.contains x && allDistinct rest

/-- R185, R192: the value of a zone map operand: one or more pairs, each slot once. A count of 0 with no pairs is not
well-formed, so that it is answered BAD_FORM (log 20). -/
def pairsWellFormed : List Byte → Bool
  | [] => false
  | count :: rest =>
    decide (0 < count.toNat ∧ rest.length = 2 * count.toNat) && allDistinct ((readPairs rest).map Prod.fst)

/-- R192: the value of the terms record. Any count that agrees with the length is taken, one above the two requests of Table 6
too (log 20). -/
def termsWellFormed (v : List Byte) : Bool :=
  match v.drop 5 with
  | count :: _ => decide (v.length = 7 + 2 * count.toNat)
  | [] => false

/-- R192: whether a value has the form of its field. -/
def Shape.accepts (s : Shape) (value : Option (List Byte)) : Bool :=
  match s, value with
  | .fixed n, some v | .opt n, some v => decide (v.length = n)
  | .text, some v | .optText, some v => decide (v.length ≤ 254)
  | .terms, some v => termsWellFormed v
  | .pairs, some v => pairsWellFormed v
  | .opt _, none | .optText, none | .terms, none => true
  | .fixed _, none | .text, none | .pairs, none => false

/-- R192: whether an item names a field of a table and carries a value of its form. -/
def itemWellFormed (t : TableId) (i : Item) : Bool :=
  match fieldShape t i.field with
  | some s => s.accepts i.value
  | none => false

/-- R192: items of one request: each well formed, no field named twice. -/
def itemsWellFormed (t : TableId) (items : List Item) : Bool :=
  items.all (itemWellFormed t) && allDistinct (items.map Item.field)

/-- R192: an AMEND names one field or more (log 20). -/
def amendWellFormed (t : TableId) (items : List Item) : Bool := !items.isEmpty && itemsWellFormed t items

/-- R153, R192: a DEFINE of a channel gives fields 2 to 10. -/
def defineWellFormed (items : List Item) : Bool :=
  itemsWellFormed .channel items &&
    [2, 3, 4, 5, 6, 7, 8, 9, 10].all fun f => items.any fun i => decide (i.field = f)

/-- The value an item list gives a field. -/
def valueOf (items : List Item) (field : Nat) : Option (List Byte) :=
  (items.find? fun i => decide (i.field = field)).bind Item.value

/-- The number an item list gives a field. -/
def numberOf (items : List Item) (field : Nat) : Option Nat := (valueOf items field).map number

/-- Whether an item list names a field. -/
def namesField (items : List Item) (field : Nat) : Bool := items.any fun i => decide (i.field = field)

/-- R187, R192: the causes a set may hold for an object. -/
def AlertObject.allCauses (o : AlertObject) : CauseSet := BitVec.ofNat 16 (2 ^ AlertObject.causeCount o - 1)

/-- R189: every cause of a set belongs to the object's kind. -/
def causesBelong (o : AlertObject) (m : CauseSet) : Bool := decide (m &&& ~~~(AlertObject.allCauses o) = 0)

end Sys2Proof.Machine
end

