-- ==== Sys2Proof/Decode.lean ====
section
/-!
DEFINITION. Decoding: a request message to the command that takes it (Table 67 steps 1 to 3, R181, R191 to R193), and the
words of the opcode table, which gives no row any bits.
-/

namespace Sys2Proof

open Sys2Proof.Machine

/-- The command a word spells by the opcode table's bits. No row of the table gives bits, so no word spells one. -/
def decodeTableWord (_nbits _w : Nat) : Option Instr := none

/-! ## The codes of section 11.1 -/

/-- R192: verbs are coded from 1. -/
def verbOf (b : Byte) : Option Verb := [Verb.fetch, .amend, .define, .retire, .order, .ack][b.toNat - 1]?.filter fun _ => b ≠ 0

/-- R192: tables are coded from 1 in the order of Table 66. -/
def tableOf (b : Byte) : Option TableId :=
  [TableId.slot, .inventory, .supply, .power, .zone, .fan, .channel, .uplink, .lane, .settings, .alert][b.toNat - 1]?.filter
    fun _ => b ≠ 0

/-- The number as a key below `n`. -/
def keyBelow (n x : Nat) : Option (Fin n) := if h : x < n then some ⟨x, h⟩ else none

/-- A location: its kind 0, 1, 2 for slot, supply bay and fan bay, and its number (R193). -/
def locationOf (kind x : Nat) : Option Location :=
  match kind with
  | 0 => (keyBelow 16 x).map Location.slot
  | 1 => (keyBelow 6 x).map Location.supply
  | 2 => (keyBelow 8 x).map Location.fan
  | _ => none

/-- A kind of unit, as Table 24 lists them. -/
def unitKindOf (b : Byte) : Option UnitKind := [UnitKind.blade, .supply, .fan][b.toNat]?

/-- An alert object: its kind in the row order of Table 69, and its key, 0 for the chassis (R193). -/
def alertObjectOf (kind x : Nat) : Option AlertObject :=
  match kind with
  | 0 => (keyBelow 16 x).map AlertObject.slot
  | 1 => (keyBelow 6 x).map AlertObject.supply
  | 2 => (keyBelow 8 x).map AlertObject.fan
  | 3 => (keyBelow 4 x).map AlertObject.zone
  | 4 => (keyBelow 32 x).map AlertObject.channel
  | 5 => (keyBelow 2 x).map AlertObject.uplink
  | 6 => if x = 0 then some .chassis else none
  | _ => none

/-- How many causes the row of an object kind has in Table 69. -/
def causeCountOf (kind : Nat) : Nat := ([9, 2, 3, 1, 3, 2, 3][kind]?).getD 16

/-! ## Keys (R193) -/

/-- The key as a request carries it: its form and its bytes. -/
structure RawKey where
  form : Byte
  bytes : List Byte
deriving DecidableEq, Repr

/-- R193: the key at the head of the bytes behind the key form, and what follows it. -/
def takeKey (form : Byte) (rest : List Byte) : Option (RawKey × List Byte) :=
  let take (n : Nat) : Option (RawKey × List Byte) :=
    if n ≤ rest.length then some ({ form := form, bytes := rest.take n }, rest.drop n) else none
  match form.toNat with
  | 0 => take 1
  | 1 | 2 | 6 => take 2
  | 3 => match rest with
    | _ :: n :: _ => take (2 + n.toNat)
    | _ => none
  | 4 | 5 | 7 => take 0
  | _ => none

/-- R181, R193: the key forms a table takes; form 7 is for DEFINE alone. The inventory table knows the epoch key, form 4,
for every verb, so that R64 can answer DEFINE with it; a DEFINE with any other key is of a form not taken (log 47). -/
def keyFormTaken (verb : Verb) (table : TableId) (form : Byte) : Bool :=
  match verb, table with
  | .define, .inventory => form = 4 ∨ form = 7
  | .define, _ => form = 7
  | _, .inventory => form = 1 ∨ form = 2 ∨ form = 3 ∨ form = 4
  | _, .alert => form = 5 ∨ form = 6
  | _, _ => form = 0

/-- How many records a table with numeric keys has (Table 66). -/
def tableSize : TableId → Nat
  | .slot => 16 | .supply => 6 | .power => 1 | .zone => 4 | .fan => 8 | .channel => 32 | .uplink => 2 | .lane => 16
  | .settings => 1 | .inventory => 48 | .alert => 69

/-- Table 67 step 3: the key, when every number in it lies within its range. -/
def keyOf (table : TableId) (raw : RawKey) : Option Key :=
  match raw.form.toNat, raw.bytes with
  | 0, [n] => if n.toNat < tableSize table then some (.record n.toNat) else none
  | 1, [h, g] => (keyBelow 48 h.toNat).map fun h => .inv (.handle h g)
  | 2, [kind, x] => (locationOf kind.toNat x.toNat).map fun l => .inv (.location l)
  | 3, kind :: _ :: chars => (unitKindOf kind).map fun u => .inv (.serial u chars)
  | 4, [] => some (.inv .epoch)
  | 5, [] => some (.alert .index)
  | 6, [kind, x] => (alertObjectOf kind.toNat x.toNat).map fun o => .alert (.object o)
  | 7, [] => some .noKey
  | _, _ => none

/-! ## Operands (R192, R193) -/

/-- The operands of a request. -/
inductive Operand
  | none
  | items (l : List Item)
  | order (n : Nat) (band : Nat)
  | causes (m : CauseSet)
deriving DecidableEq, Repr

/-- R192: field items, at most so many. -/
def readItems : Nat → List Byte → Option (List Item)
  | _, [] => some []
  | 0, _ => Option.none
  | fuel + 1, field :: n :: rest =>
    if n = 255 then (readItems fuel rest).map fun l => { field := field.toNat, value := Option.none } :: l
    else if n.toNat ≤ rest.length then
      (readItems fuel (rest.drop n.toNat)).map fun l => { field := field.toNat, value := some (rest.take n.toNat) } :: l
    else Option.none
  | _ + 1, [_] => Option.none

/-- Table 66: how many orders a table takes. -/
def orderCount : TableId → Nat
  | .slot => 7 | .supply => 1 | .zone => 1 | .fan => 3 | .channel => 4 | .uplink => 2 | .settings => 1
  | .inventory | .power | .lane | .alert => 0

/-- Table 67 step 2: the operands of a verb on a table, known for that table. -/
def readOperand (verb : Verb) (table : TableId) (key : RawKey) (bytes : List Byte) : Option Operand :=
  match verb with
  | .fetch | .retire => if bytes = [] then some .none else Option.none
  | .amend =>
    (readItems bytes.length bytes).bind fun l => if amendWellFormed table l then some (.items l) else Option.none
  | .define =>
    (readItems bytes.length bytes).bind fun l =>
      if itemsWellFormed table l ∧ (table = .channel → defineWellFormed l) then some (.items l) else Option.none
  | .order =>
    match bytes with
    | n :: rest =>
      if n.toNat < orderCount table then
        (if table = .fan ∧ n = 0 then
          match rest with
          | [band] => some (.order 0 band.toNat)
          | _ => Option.none
        else if rest = [] then some (.order n.toNat 0) else Option.none)
      else Option.none
    | [] => Option.none
  | .ack =>
    match bytes with
    | [m1, m0] =>
      let m : CauseSet := m1 ++ m0
      if key.form = 5 then Option.none
      else if key.form = 6 ∧ 2 ^ causeCountOf (numberAt key.bytes 0 1) ≤ m.toNat then Option.none
      else some (.causes m)
    | _ => Option.none

/-! ## Commands -/

/-- Table 66: the order a table gives a number. -/
def orderOf (table : TableId) (n band k : Nat) : Option Instr :=
  match table with
  | .slot => (keyBelow 16 k).bind fun k =>
      [Instr.orderAdmit k, .orderReadmit k, .orderEvict k, .orderForceOff k, .orderRenegotiate k, .orderCap k, .orderUncap k][n]?
  | .supply => (keyBelow 6 k).map Instr.orderRetrySupply
  | .zone => (keyBelow 4 k).map Instr.orderCommitCurve
  | .fan => (keyBelow 8 k).bind fun f => [Instr.orderPin f band, .orderUnpin f, .orderRetryFan f][n]?
  | .channel => (keyBelow 32 k).bind fun h => [Instr.orderPass h, .orderHold h, .orderBar h, .orderFlush h][n]?
  | .uplink => (keyBelow 2 k).bind fun u => [Instr.orderEnable u, .orderDisable u][n]?
  | .settings => some .orderRestart
  | .inventory | .power | .lane | .alert => none

/-- FETCH of a record by number. -/
def fetchOf (table : TableId) (k : Nat) : Option Instr :=
  match table with
  | .slot => (keyBelow 16 k).map Instr.fetchSlot
  | .supply => (keyBelow 6 k).map Instr.fetchSupply
  | .power => some .fetchPower
  | .zone => (keyBelow 4 k).map Instr.fetchZone
  | .fan => (keyBelow 8 k).map Instr.fetchFan
  | .channel => (keyBelow 32 k).map Instr.fetchChannel
  | .uplink => (keyBelow 2 k).map Instr.fetchUplink
  | .lane => (keyBelow 16 k).map Instr.fetchLane
  | .settings => some .fetchSettings
  | .inventory | .alert => none

/-- AMEND of a record by number, on the tables that take it. -/
def amendOf (table : TableId) (k : Nat) (items : List Item) : Option Instr :=
  match table with
  | .slot => (keyBelow 16 k).map fun k => .amendSlot k items
  | .zone => (keyBelow 4 k).map fun z => .amendZone z items
  | .channel => (keyBelow 32 k).map fun h => .amendChannel h items
  | .settings => some (.amendSettings items)
  | .inventory | .supply | .power | .fan | .uplink | .lane | .alert => none

/-- R181: the command of a decoded request. A verb its table does not accept is a command of its own. -/
def commandOf (verb : Verb) (table : TableId) (key : Key) (x : Operand) : Instr :=
  let accepted : Option Instr :=
    match verb, key, x with
    | .fetch, .record k, _ => fetchOf table k
    | .fetch, .inv k, _ => some (.fetchInventory k)
    | .fetch, .alert k, _ => some (.fetchAlert k)
    | .amend, .record k, .items l => amendOf table k l
    | .amend, .inv k, .items l => some (.amendInventory k l)
    | .define, .noKey, .items l => if table = .channel then some (.defineChannel l) else none
    | .retire, .inv k, _ => some (.retireInventory k)
    | .retire, .record k, _ => if table = .channel then (keyBelow 32 k).map Instr.retireChannel else none
    | .order, .record k, .order n band => orderOf table n band k
    | .ack, .alert (.object o), .causes m => some (.ack o m)
    | _, _, _ => none
  accepted.getD (.unacceptedVerb verb table key)

/-- What Table 67 steps 1 to 3 make of a message. -/
inductive Decoded
  /-- Answered at step 1 or 2; the verb and table bytes are echoed. -/
  | bad (status : Status) (verb table : Byte)
  /-- Answered at step 3. -/
  | outOfRange (verb table : Byte) (key : RawKey)
  /-- Judged on. -/
  | request (verb table : Byte) (key : Key) (i : Instr)
deriving DecidableEq, Repr

/-- Table 67 step 2: the request behind the length bytes, without its check byte. -/
def decodeBody (verb table form : Byte) (rest : List Byte) : Decoded :=
  let bad : Decoded := .bad .badForm verb table
  match verbOf verb, tableOf table, takeKey form rest with
  | some v, some t, some (raw, operands) =>
    if keyFormTaken v t form then
      match readOperand v t raw operands with
      | none => bad
      | some x =>
        match keyOf t raw with
        | none => .outOfRange verb table raw
        | some key => .request verb table key (commandOf v t key x)
    else bad
  | _, _, _ => bad

/-- R181: Table 67 steps 1 to 3 on a message. The last byte of a message of 3 or 4 bytes is its check byte and is also the
verb or the table byte it is answered with (log 49). -/
def decodeRequest (m : List Byte) : Decoded :=
  let verb := BitVec.ofNat 8 (numberAt m 2 1)
  let table := BitVec.ofNat 8 (numberAt m 3 1)
  if checkPasses m then
    match m with
    | l1 :: l0 :: v :: t :: form :: rest =>
      if number [l1, l0] + 2 = m.length ∧ rest ≠ [] then decodeBody v t form rest.dropLast
      else .bad .badForm verb table
    | _ => .bad .badForm verb table
  else .bad .badCheck verb table

end Sys2Proof
end

