-- ==== Sys2Proof/Machine/Flags.lean ====
section
/-!
DEFINITION. The port status byte (Table 71), its four flags computed from the port and the alert index.
-/

namespace Sys2Proof.Machine

/-- Section 10.1: request slot PENDING. -/
def Chip.requestPending (c : Chip) : Bool := c.port.request.isSome

/-- Section 10.1: response slot READY. -/
def Chip.responseReady (c : Chip) : Bool := c.port.response.isSome

/-- Table 71: bit 0 REQUEST_PENDING, bit 1 RESPONSE_READY, bit 2 OVERRUN, bit 3 ATTN, the others 0. -/
def Chip.statusByte (c : Chip) : Byte :=
  BitVec.ofNat 8
    ((if c.requestPending then 1 else 0) + (if c.responseReady then 2 else 0) + (if c.port.overrun then 4 else 0) +
      (if c.attention then 8 else 0))

end Sys2Proof.Machine
end

