-- ==== Sys2Proof/Machine/Engine.lean ====
section
/-!
DEFINITION. The slot link engine (chapter 2): the pending exchange list, arbitration, the start of the phases and the
emptying. What a received page does stands in SlotLink.lean.
-/

namespace Sys2Proof.Machine

/-- R36: the states in which the list is kept empty. -/
def SlotState.keepsListEmpty (s : SlotState) : Bool :=
  s = .empty ∨ s = .seated ∨ s = .held ∨ s = .poweringDown

/-! ## Sending (R31) -/

/-- R31: an exchange begins with attempt 1. -/
def send (k : Fin 16) (request : PageRequest) (toggle : Bool) : Chip → Chip :=
  modEngine k fun e => { e with inFlight := some { request := request, toggle := toggle, second := false } }

/-- R45 step 1: a channel of the settlement's list that is still granted to the slot. -/
def Chip.grantedChannel (c : Chip) (k : Fin 16) (h : Fin 32) : Option Channel :=
  match c.channel h with
  | some ch => if ch.granted ∧ ch.slot = k then some ch else none
  | none => none

/-- R45: the next channel of a channel list that is not skipped, with how many of the list are taken once it is. -/
def nextChannel (c : Chip) (k : Fin 16) : List (Fin 32) → Nat → Option (Channel × Nat)
  | [], _ => none
  | h :: rest, n =>
    match c.grantedChannel k h with
    | some ch => some (ch, n + 1)
    | none => nextChannel c k rest (n + 1)

/-- R45: the channels granted now, in match order. -/
def Chip.settlementChannels (c : Chip) (k : Fin 16) : List (Fin 32) :=
  (c.hub.matchOrder.read k).filter fun h => (c.grantedChannel k h).isSome

/-- R37, R39, R53: the start of a phase. -/
def startPhase (k : Fin 16) (phase : Phase) : Chip → Chip :=
  modEngine k fun e => { e with phase := phase, toggle := false, responses := 0, draft := some .fresh }

/-! ## Arbitration (R35) -/

/-- R35 step 4: the pending entry of highest rank leaves the list and is sent. A GRANT entry starts a settlement (R45). -/
def sendPending (k : Fin 16) (c : Chip) : Chip :=
  let e := c.engine k
  if e.list.shutdown then
    c |> setEngine k { e with list := { e.list with shutdown := false } } |> send k .shutdown false
  else
    match e.list.cap, e.list.uncap, e.list.grant with
    | some w, _, _ => c |> setEngine k { e with list := { e.list with cap := none } } |> send k (.cap w) false
    | none, some w, _ => c |> setEngine k { e with list := { e.list with uncap := none } } |> send k (.uncap w) false
    | none, none, some (g, l) =>
      c |> setEngine k { e with
              list := { e.list with grant := none },
              settlement := some { channels := c.settlementChannels k, next := 0 } }
        |> send k (.grant g l) false
    | none, none, none =>
      if e.list.poll then c |> setEngine k { e with list := { e.list with poll := false } } |> send k .poll false
      else c

/-- R35 steps 3 and 4. -/
def sendRenegotiationOrPending (k : Fin 16) (c : Chip) : Chip :=
  if (c.engine k).renegRequest then
    c |> modEngine k (fun e => { e with renegRequest := false })
      |> startPhase k .renegotiation
      |> send k .negotiate false
  else sendPending k c

/-- R35 step 1: the next page of the running phase: the first one, or NEXT with the toggle of the phase. -/
def phasePage (e : Engine) : PageRequest :=
  if e.responses = 0 then (if e.phase = .interrogation then .interrogate else .negotiate) else .next

/-- R35: when the link is idle, the engine chooses its next exchange. -/
def arbitrate (k : Fin 16) (c : Chip) : Chip :=
  let e := c.engine k
  if e.inFlight.isSome ∨ e.quiet then c
  else if e.phase ≠ .idle then send k (phasePage e) e.toggle c
  else
    match e.settlement with
    | some s =>
      match nextChannel c k (s.channels.drop s.next) s.next with
      | some (ch, n) =>
        c |> setEngine k { e with settlement := some { s with next := n } }
          |> send k (.channelGrant ch.base ch.limit) false
      | none =>
        c |> setEngine k { e with settlement := none }
          |> post (.settlementReport k .settled)
          |> sendRenegotiationOrPending k
    | none => sendRenegotiationOrPending k c

/-- R37: the slot controller asks for the interrogation. -/
def startInterrogation (k : Fin 16) (c : Chip) : Chip := c |> startPhase k .interrogation |> arbitrate k

/-- R39: the slot controller asks for the negotiation. -/
def startNegotiation (k : Fin 16) (c : Chip) : Chip := c |> startPhase k .negotiation |> arbitrate k

/-! ## The pending exchange list (R34, R36) -/

/-- R34: SHUTDOWN joins; refused at request in the states of R36. -/
def requestShutdown (k : Fin 16) (c : Chip) : Chip :=
  if (c.slot k).state.keepsListEmpty then c
  else c |> modEngine k (fun e => { e with list := { e.list with shutdown := true } }) |> arbitrate k

/-- R34: POLL joins or merges. -/
def requestPoll (k : Fin 16) (c : Chip) : Chip :=
  if (c.slot k).state.keepsListEmpty then c
  else c |> modEngine k (fun e => { e with list := { e.list with poll := true } }) |> arbitrate k

/-- R34: CAP joins, merges with a pending CAP, and supersedes a pending UNCAP. -/
def requestCap (k : Fin 16) (limit : Nat) (c : Chip) : Chip :=
  if (c.slot k).state.keepsListEmpty then post (.capOutcome k .abandoned) c
  else
    let e := c.engine k
    let c := setEngine k { e with list := { e.list with cap := some limit, uncap := none } } c
    let c := if e.list.uncap.isSome then post (.uncapOutcome k .superseded) c else c
    arbitrate k c

/-- R34: UNCAP joins, merges with a pending UNCAP, and supersedes a pending CAP. -/
def requestUncap (k : Fin 16) (limit : Nat) (c : Chip) : Chip :=
  if (c.slot k).state.keepsListEmpty then post (.uncapOutcome k .abandoned) c
  else
    let e := c.engine k
    let c := setEngine k { e with list := { e.list with uncap := some limit, cap := none } } c
    let c := if e.list.cap.isSome then post (.capOutcome k .superseded) c else c
    arbitrate k c

/-- R34, R45: GRANT joins or merges. -/
def requestGrant (k : Fin 16) (grant : Nat) (level : Level) (c : Chip) : Chip :=
  if (c.slot k).state.keepsListEmpty then post (.settlementReport k .abandoned) c
  else c |> modEngine k (fun e => { e with list := { e.list with grant := some (grant, level) } }) |> arbitrate k

/-- R36: the report of an abandoned exchange in flight, for CAP, UNCAP and GRANT. -/
def reportAbandoned (k : Fin 16) (x : Exchange) (c : Chip) : Chip :=
  match x.request with
  | .cap _ => post (.capOutcome k .abandoned) c
  | .uncap _ => post (.uncapOutcome k .abandoned) c
  | .grant _ _ => post (.settlementReport k .abandoned) c
  | .interrogate | .negotiate | .next | .channelGrant _ _ | .shutdown | .poll => c

/-- R36: the engine is emptied. -/
def emptyEngine (k : Fin 16) (c : Chip) : Chip :=
  let e := c.engine k
  let c := setEngine k { Engine.reset with quiet := e.quiet || e.inFlight.isSome } c
  let c := match e.inFlight with
    | some x => reportAbandoned k x c
    | none => c
  let c := if e.list.cap.isSome then post (.capOutcome k .abandoned) c else c
  let c := if e.list.uncap.isSome then post (.uncapOutcome k .abandoned) c else c
  if e.list.grant.isSome then post (.settlementReport k .abandoned) c else c

/-- R54: a renegotiation asked for and not started is cleared when the slot leaves RUNNING. -/
def clearRenegotiation (k : Fin 16) : Chip → Chip := modEngine k fun e => { e with renegRequest := false }

/-- R31, R33: the exchange in flight ends; a failed one starts the quiet period. -/
def endExchange (k : Fin 16) (failed : Bool) : Chip → Chip :=
  modEngine k fun e => { e with inFlight := none, quiet := e.quiet || failed }

end Sys2Proof.Machine
end

