-- ==== Sys2Proof/Machine/Power.lean ====
section
/-!
DEFINITION. The power unit (chapters 4 and 5): the budget and committed draw, grants and cap sets, the grant queue, the
shed list, the supplies and the fan reservations.
-/

namespace Sys2Proof.Machine

/-! ## Figures (R85 to R87, R91) -/

/-- R2: the effective priority of a slot. -/
def Chip.effectivePriority (c : Chip) (k : Fin 16) : Option Nat :=
  match (c.slot k).priorityOverride with
  | some p => some p
  | none => (c.slot k).terms.map Terms.priority

/-- The run draw of a slot's terms; 0 without terms. -/
def Chip.runDraw (c : Chip) (k : Fin 16) : Nat := ((c.slot k).terms.map Terms.runDraw).getD 0

/-- The floor draw of a slot's terms; 0 without terms. -/
def Chip.floorDraw (c : Chip) (k : Fin 16) : Nat := ((c.slot k).terms.map Terms.floorDraw).getD 0

/-- R87: draw(b) = ceil(rated draw x b / 63). -/
def bandDraw (rated band : Nat) : Nat := ceilDiv (rated * band) 63

/-- R87: a reservation in W. -/
def Reservation.watts (r : Reservation) : Nat := bandDraw (r.ratedDraw.getD 0) r.band

/-- The sum of the eight reservations (Table 32 field 6). -/
def Chip.fanReservations (c : Chip) : Nat := ((keys 8).map fun f => (c.reservation f).watts).sum

/-- The sum of the sixteen grants (Table 32 field 7). -/
def Chip.totalGrants (c : Chip) : Nat := ((keys 16).map fun k => (c.grant k).grant).sum

/-- R86. -/
def Chip.committed (c : Chip) : Nat := c.settings.baseDraw + c.fanReservations + c.totalGrants

/-- The capacities of the ONLINE supplies. -/
def Chip.onlineCapacities (c : Chip) : List Nat :=
  ((keys 6).filter fun b => (c.supply b).state = .online).map fun b => (c.supply b).capacity

/-- R85: S. -/
def Chip.onlineCapacity (c : Chip) : Nat := c.onlineCapacities.sum

/-- R85: M. -/
def Chip.largestOnline (c : Chip) : Nat := c.onlineCapacities.foldl max 0

/-- R85. -/
def Chip.budget (c : Chip) : Nat :=
  match c.settings.policy with
  | .none => c.onlineCapacity
  | .nPlus1 => c.onlineCapacity - c.largestOnline
  | .nPlusN => c.onlineCapacity / 2

/-- R86: available draw, negative while over-committed. -/
def Chip.available (c : Chip) : Int := (c.budget : Int) - (c.committed : Int)

/-- R90. -/
def Chip.overCommitted (c : Chip) : Bool := decide (c.budget < c.committed)

/-! ## Grant records (R92) -/

/-- R92: the level of a grant under a slot's terms. -/
def levelFor (terms : Option Terms) (grant : Nat) : Level :=
  if grant = 0 then .none
  else if terms.map Terms.runDraw = some grant then .full
  else .floor

/-- R92: a write of a grant recomputes the level. -/
def writeGrant (k : Fin 16) (grant : Nat) (c : Chip) : Chip :=
  modGrant k (fun r => { r with grant := grant, level := levelFor (c.slot k).terms grant }) c

/-! ## Cap sets -/

def CapSet.has (s : CapSet) : CapReason → Bool
  | .budget => s.budget | .thermal => s.thermal | .host => s.host

def CapSet.put (s : CapSet) (r : CapReason) (b : Bool) : CapSet :=
  match r with
  | .budget => { s with budget := b }
  | .thermal => { s with thermal := b }
  | .host => { s with host := b }

/-- The set with one reason. -/
def CapSet.only (r : CapReason) : CapSet := CapSet.empty.put r true

/-- The reasons of the first set that the second does not hold. -/
def CapSet.without (s t : CapSet) : CapSet :=
  { budget := s.budget && !t.budget, thermal := s.thermal && !t.thermal, host := s.host && !t.host }

/-! ## The grant queue (R95, R96) -/

/-- R96: an entry goes behind every entry of its priority that joined earlier; entries of one priority that join in one
event stand in rising slot number. -/
def insertEntry (e : QueueEntry) : List QueueEntry → List QueueEntry
  | [] => [e]
  | x :: rest =>
    if x.priority < e.priority ∨ (x.priority = e.priority ∧ x.fresh ∧ e.slot < x.slot) then e :: x :: rest
    else x :: insertEntry e rest

/-- R95: an entry joins, which is a trigger of R97. -/
def joinQueue (k : Fin 16) (kind : QueueKind) (need : Nat) (c : Chip) : Chip :=
  c |> setQueue (insertEntry
      { slot := k, kind := kind, need := need, priority := (c.effectivePriority k).getD 0, fresh := true } c.power.queue)
    |> setServiceDue true

/-- The queue entry of a slot, if it has one. -/
def Chip.queueEntry (c : Chip) (k : Fin 16) : Option QueueEntry := c.power.queue.find? fun e => e.slot = k

/-- An entry leaves the queue, which is a trigger of R97; nothing happens when the slot has none. -/
def leaveQueue (k : Fin 16) (c : Chip) : Chip :=
  match c.queueEntry k with
  | none => c
  | some _ => c |> setQueue (c.power.queue.filter fun e => e.slot ≠ k) |> setServiceDue true

/-- R95: a RUNNING slot at level FLOOR with cap set exactly {BUDGET}. -/
def Chip.qualifiesUplift (c : Chip) (k : Fin 16) : Bool :=
  (c.slot k).state = .running ∧ (c.grant k).level = .floor ∧ (c.grant k).capSet = .onlyBudget

/-- R95, R106: brings the UPLIFT entry of a slot into line. A qualifying slot joins, or keeps its place with the need
rewritten, whatever brought it here (log 51); an UPLIFT entry of a slot that does not qualify leaves. -/
def alignUplift (k : Fin 16) (c : Chip) : Chip :=
  let need := c.runDraw k - (c.grant k).grant
  if c.qualifiesUplift k then
    match c.queueEntry k with
    | none => joinQueue k .uplift need c
    | some _ => setQueue (c.power.queue.map fun e => if e.slot = k then { e with need := need } else e) c
  else
    match c.queueEntry k with
    | some e => if e.kind = .uplift then leaveQueue k c else c
    | none => c

/-! ## Cap reasons (R101, R104) -/

/-- R101: a reason is added to a slot's cap set, and a CAP is asked for or the outstanding one takes the reason. -/
def addReason (r : CapReason) (k : Fin 16) (c : Chip) : Chip :=
  let g := c.grant k
  if g.capSet.has r then c
  else
    let g := { g with capSet := g.capSet.put r true }
    if c.floorDraw k < g.grant then
      match g.capRequest with
      | none =>
        c |> setGrant k { g with capRequest := some (CapSet.only r) }
          |> post (.capRequest k (c.floorDraw k))
          |> alignUplift k
      | some q => c |> setGrant k { g with capRequest := some (q.put r true) } |> alignUplift k
    else c |> setGrant k g |> alignUplift k

/-- R104: a slot at level FLOOR never has an empty cap set; {BUDGET} is written in place of the last reason. -/
def keepFloorReason (k : Fin 16) (c : Chip) : Chip :=
  modGrant k (fun g => if g.level = .floor ∧ g.capSet = .empty then { g with capSet := .onlyBudget } else g) c

/-- R104: removal of HOST or THERMAL. -/
def removeReason (r : CapReason) (k : Fin 16) (c : Chip) : Chip :=
  if (c.grant k).capSet.has r then
    c |> modGrant k (fun g => { g with capSet := g.capSet.put r false }) |> keepFloorReason k |> alignUplift k
  else c

/-- R101: HOST and THERMAL cannot be added to a slot with floor draw 0, with grant 0, or not RUNNING. -/
def Chip.canCap (c : Chip) (k : Fin 16) : Bool :=
  (c.slot k).state = .running ∧ c.floorDraw k ≠ 0 ∧ (c.grant k).grant ≠ 0

/-- R105: the fan controller's request to add THERMAL; a slot that cannot be capped is answered not capped. -/
def requestThermal (k : Fin 16) (c : Chip) : Chip := if c.canCap k then addReason .thermal k c else c

/-! ## The projection walk (R108) -/

/-- R108: shed order, lowest effective priority first, and at equal priority the higher slot number first. -/
def Chip.shedOrder (c : Chip) : List (Fin 16) :=
  (List.range 8).flatMap fun p => (keys 16).reverse.filter fun k => c.effectivePriority k = some p

/-- R108 step 1: a slot whose grant is projected as freed. -/
def Chip.freeing (c : Chip) (k : Fin 16) : Bool :=
  (c.slot k).state = .draining ∨ (c.slot k).state = .poweringDown

/-- R108 step 1: the projected draw before any candidate is taken. A kept CAP head whose floor draw a renegotiation raised to
its grant or above it frees nothing (log 43). -/
def Chip.projectedDraw (c : Chip) (kept : Option ShedEntry) : Nat :=
  let base := c.committed - (((keys 16).filter fun k => c.freeing k).map fun k => (c.grant k).grant).sum
  match kept with
  | none => base
  | some e =>
    if c.freeing e.slot then base
    else match e.action with
      | .off => base - (c.grant e.slot).grant
      | .cap => base - ((c.grant e.slot).grant - c.floorDraw e.slot)

/-- R108 step 2: a RUNNING slot at level FULL with floor draw above 0. -/
def Chip.capCandidate (c : Chip) (k : Fin 16) : Bool :=
  (c.slot k).state = .running ∧ (c.grant k).level = .full ∧ c.floorDraw k ≠ 0

/-- R108 step 3: a slot with its switch CLOSED in POWERING, STARTING, RUNNING or ADOPTING. -/
def Chip.offCandidate (c : Chip) (k : Fin 16) : Bool :=
  (c.slot k).switchClosed ∧ ((c.slot k).state = .powering ∨ (c.slot k).state = .starting ∨
    (c.slot k).state = .running ∨ (c.slot k).state = .adopting)

/-- R108 step 2: the CAP entries, and the projected draw after them. -/
def capWalk (c : Chip) : List (Fin 16) → Nat → List ShedEntry × Nat
  | [], p => ([], p)
  | k :: rest, p =>
    if p ≤ c.budget then ([], p)
    else if c.capCandidate k then
      let (l, q) := capWalk c rest (p - ((c.grant k).grant - c.floorDraw k))
      ({ slot := k, action := .cap, acting := false } :: l, q)
    else capWalk c rest p

/-- R108 step 3: a CAP entry becomes OFF where it stands; any other candidate is appended as OFF. -/
def offWalk (c : Chip) : List (Fin 16) → Nat → List ShedEntry → List ShedEntry
  | [], _, l => l
  | k :: rest, p, l =>
    if p ≤ c.budget then l
    else if c.offCandidate k then
      if l.any fun e => e.slot = k then
        offWalk c rest (p - c.floorDraw k) (l.map fun e => if e.slot = k then { e with action := .off } else e)
      else offWalk c rest (p - (c.grant k).grant) (l ++ [{ slot := k, action := .off, acting := false }])
    else offWalk c rest p l

/-- R108: the entries the projection walk appends, behind a kept head if one is given. -/
def Chip.projectionWalk (c : Chip) (kept : Option ShedEntry) : List ShedEntry :=
  let order := c.shedOrder.filter fun k => kept.map ShedEntry.slot ≠ some k
  let (caps, p) := capWalk c order (c.projectedDraw kept)
  offWalk c order p caps

/-! ## Shedding (R109 to R114) and the comparison (R90) -/

/-- R109: a CAP head adds BUDGET to its slot's cap set, and a CAP to the floor draw is asked for, carrying BUDGET. An
outstanding request takes BUDGET instead. R109 asks for the CAP also where R101 would not (log 37). -/
def capForShed (k : Fin 16) (c : Chip) : Chip :=
  let g := c.grant k
  let g := { g with capSet := g.capSet.put .budget true }
  match g.capRequest with
  | none =>
    c |> setGrant k { g with capRequest := some (CapSet.only .budget) }
      |> post (.capRequest k (c.floorDraw k))
      |> alignUplift k
  | some q => c |> setGrant k { g with capRequest := some (q.put .budget true) } |> alignUplift k

/-- R109, R110: the head becomes ACTING and acts. -/
def actHead (c : Chip) : Chip :=
  match c.power.shed with
  | [] => c
  | e :: rest =>
    let c := setShed ({ e with acting := true } :: rest) c
    match e.action with
    | .cap => capForShed e.slot c
    | .off => post (.shedOffAction e.slot) c

/-- R112, R113: the walk with no kept head. Its head acts; when it appends nothing and no slot holds a grant,
BUDGET_EXHAUSTED is raised on the chassis. -/
def startShedding (c : Chip) : Chip :=
  match c.projectionWalk none with
  | [] => if c.totalGrants = 0 then raise .chassis .budgetExhausted c else c
  | l => actHead (setShed l c)

/-- R111: an entry stays while its slot's switch is CLOSED. A WAITING entry also leaves when its slot is DRAINING, and a
WAITING CAP when its slot has come to floor draw 0. A WAITING CAP whose slot comes to level FLOOR by a cap leaves in
`completeCapEntry`; one whose slot comes to FLOOR by a renegotiation is on no row of R111 and stays (log 10), until an accepted CAP (log 66). -/
def Chip.keepsShedEntry (c : Chip) (e : ShedEntry) : Bool :=
  (c.slot e.slot).switchClosed ∧
    (e.acting ∨ ((c.slot e.slot).state ≠ .draining ∧ (e.action = .off ∨ c.floorDraw e.slot ≠ 0)))

/-- R111. -/
def pruneShed (c : Chip) : Chip := setShed (c.power.shed.filter c.keepsShedEntry) c

/-- R90, R97, R111 to R114: what the power unit does at the end of an event it takes, given the part before the event.
`report` says that the event was a grant write or a slot state reported by the slot controller (R113); a list that the event
empties is judged as at a completion (R112). An event that moves budget and committed draw the same way is judged by each of
the two: still over-committed, it is a new over-commit cause; not over-committed, it is a trigger of R97 (log 44). -/
def settlePower (before : Chip) (report : Bool) (c : Chip) : Chip :=
  let c := pruneShed c
  let emptied := !before.power.shed.isEmpty
  let more := c.committed < before.committed ∨ before.budget < c.budget
  let less := before.committed < c.committed ∨ c.budget < before.budget
  let c := if more then setServiceDue true c else c
  if c.overCommitted then
    match c.power.shed with
    | e :: _ =>
      if e.acting then
        (if !before.overCommitted ∨ less then setShed (e :: c.projectionWalk (some e)) c else c)
      else actHead c
    | [] => if report ∨ emptied ∨ more ∨ less then startShedding c else c
  else
    let kept := c.power.shed.filter fun e => e.acting
    let c := setShed kept c
    if kept.isEmpty ∧ emptied then setServiceDue true c else c

/-- An event of the power unit: the change, then the comparison and what it hands on. -/
def powerEvent (report : Bool) (f : Chip → Chip) (c : Chip) : Chip := settlePower c report (f c)

/-! ## Queue service (R97, R98, R100) -/

/-- R98: the grant is written, the stage is SETTLING and a GRANT is asked for. -/
def serveAdmission (k : Fin 16) (grant : Nat) (caps : CapSet) (c : Chip) : Chip :=
  let c := c |> modGrant k (fun g => { g with stage := .settling, capSet := caps }) |> writeGrant k grant
  post (.grantRequest k grant (c.grant k).level) c

/-- R100: the grant becomes the run draw, BUDGET is removed and an UNCAP is asked for. -/
def serveUplift (k : Fin 16) (c : Chip) : Chip :=
  c |> modGrant k (fun g => { g with capSet := g.capSet.put .budget false, uncapRequest := true })
    |> writeGrant k (c.runDraw k)
    |> post (.uncapRequest k (c.runDraw k))

/-- Table 38: the head entry served, or nothing when it cannot be served. -/
def serveHead (e : QueueEntry) (c : Chip) : Option Chip :=
  match e.kind with
  | .admission =>
    if (e.need : Int) ≤ c.available then some (serveAdmission e.slot (c.runDraw e.slot) .empty c)
    else if c.settings.floorAdmission ∧ 0 < c.floorDraw e.slot ∧ (c.floorDraw e.slot : Int) ≤ c.available then
      some (serveAdmission e.slot (c.floorDraw e.slot) .onlyBudget c)
    else none
  | .uplift => if (e.need : Int) ≤ c.available then some (serveUplift e.slot c) else none

/-- R97: heads are served in strict order until one cannot be. -/
def serveQueue : List QueueEntry → Chip → Chip
  | [], c => setQueue [] c
  | e :: rest, c =>
    match serveHead e c with
    | some c' => serveQueue rest c'
    | none => setQueue (e :: rest) c

/-- R97 at the end of an event (log 7): when a trigger was met and the shed list is empty, the queue is served. The marks
of the event are cleared. -/
def queueService (c : Chip) : Chip :=
  let served := if c.power.serviceDue ∧ c.power.shed.isEmpty then serveQueue c.power.queue c else c
  served |> setQueue (served.power.queue.map fun e => { e with fresh := false }) |> setServiceDue false

/-! ## Reports of the slot controller (R94, R95, R99, R105) -/

/-- R94: a grant release or a withdrawal. -/
def releaseGrant (k : Fin 16) : Chip → Chip :=
  powerEvent true fun c =>
    c |> setGrant k GrantRecord.reset
      |> leaveQueue k
      |> (fun c => setShed (c.power.shed.filter fun e => e.slot ≠ k) c)

/-- R105: a slot that enters RUNNING at level FULL with a non-empty cap set is capped again. -/
def capAgain (k : Fin 16) (c : Chip) : Chip :=
  let g := c.grant k
  if g.level = .full ∧ g.capSet ≠ .empty then
    c |> setGrant k { g with capRequest := some g.capSet } |> post (.capRequest k (c.floorDraw k))
  else c

/-- R27, Table 13: a slot has entered a state. -/
def powerOnSlot (k : Fin 16) (new : SlotState) : Chip → Chip :=
  powerEvent true fun c =>
    alignUplift k
      (match new with
      | .awaitingGrant =>
        c |> modGrant k (fun g => { g with stage := .queued }) |> joinQueue k .admission (c.runDraw k)
      | .powering => modGrant k (fun g => { g with stage := .none }) c
      | .running => capAgain k c
      | _ => c)

/-- R96: an accepted AMEND of the priority override places the slot's entry again. -/
def replaceEntry (k : Fin 16) (c : Chip) : Chip :=
  match c.queueEntry k with
  | none => c
  | some e => c |> setQueue (c.power.queue.filter fun x => x.slot ≠ k) |> joinQueue k e.kind e.need

/-- R99, settled while over-committed: the grant is set back and the slot joins the queue again. -/
def requeueAdmission (k : Fin 16) : Chip → Chip :=
  powerEvent true fun c =>
    c |> setGrant k { GrantRecord.reset with stage := .queued } |> joinQueue k .admission (c.runDraw k)

/-- R99, failed: the grant is set back. -/
def failAdmission (k : Fin 16) : Chip → Chip :=
  powerEvent true fun c => setGrant k GrantRecord.reset c

/-! ## Outcomes of CAP and UNCAP (R100, R103) -/

/-- R103, R111: the CAP entry of a slot whose CAP was accepted leaves the list: one that is ACTING completes, and one that
waits leaves when the slot is now at level FLOOR, also when it was at FLOOR before and the CAP lowered nothing (log 66). -/
def completeCapEntry (k : Fin 16) (c : Chip) : Chip :=
  setShed (c.power.shed.filter fun e =>
    !(e.slot = k ∧ e.action = .cap ∧ (e.acting ∨ (c.grant k).level = .floor))) c

/-- R103, accepted: the grant falls to the floor draw when it is above it, to 0 when a renegotiation has brought the floor
draw to 0; the level is the one R92 computes. The switch stays CLOSED at a grant of 0, against the words of R6 and R27
(log 11). -/
def capAccepted (k : Fin 16) (c : Chip) : Chip :=
  let lowers := c.floorDraw k < (c.grant k).grant
  powerEvent lowers (fun c =>
    c |> modGrant k (fun g => { g with capRequest := none })
      |> (fun c => if lowers then writeGrant k (c.floorDraw k) c else c)
      |> keepFloorReason k
      |> alignUplift k
      |> completeCapEntry k) c

/-- R109: the ACTING CAP entry of a slot becomes OFF where it stands and acts by R110. -/
def turnCapOff (k : Fin 16) (c : Chip) : Chip :=
  match c.power.shed with
  | e :: rest =>
    if e.slot = k ∧ e.acting ∧ e.action = .cap then
      c |> setShed ({ e with action := .off } :: rest) |> post (.shedOffAction k)
    else c
  | [] => c

/-- R103, refused or failed: every reason the request carried leaves the set. DEGRADED is raised before the event settles
(log 58). -/
def capRefused (k : Fin 16) (q : CapSet) (c : Chip) : Chip :=
  powerEvent false (fun c =>
    c |> modGrant k (fun g => { g with capRequest := none, capSet := g.capSet.without q })
      |> keepFloorReason k
      |> alignUplift k
      |> (fun c => if q.host then raise (.slot k) .degraded c else c)
      |> (fun c => if q.budget then turnCapOff k c else c)) c

/-- R103: the outcome of a CAP; with no cap request it is ignored (R93). -/
def takeCapOutcome (k : Fin 16) (o : LimitOutcome) (c : Chip) : Chip :=
  match (c.grant k).capRequest with
  | none => c
  | some q =>
    match o with
    | .accepted => capAccepted k c
    | .refused | .failed => capRefused k q c
    | .superseded | .abandoned => modGrant k (fun g => { g with capRequest := none }) c

/-- R100: the outcome of an UNCAP; with uncap request no it is ignored (R93). -/
def takeUncapOutcome (k : Fin 16) (o : LimitOutcome) (c : Chip) : Chip :=
  if (c.grant k).uncapRequest then
    let c := modGrant k (fun g => { g with uncapRequest := false }) c
    match o with
    | .refused | .failed => raise (.slot k) .degraded c
    | .accepted | .superseded | .abandoned => c
  else c

/-! ## Renegotiated terms (R106) -/

/-- R106 steps 1 to 6, the new terms being in the slot record. A grant of 0 stays at level NONE by R92 (log 50). -/
def settleTerms (k : Fin 16) : Chip → Chip :=
  powerEvent true fun c =>
    let f := c.floorDraw k
    let c := if f = 0 then
        modGrant k (fun g => { g with capSet := (g.capSet.put .host false).put .thermal false }) c else c
    let g := c.grant k
    let target := if g.capSet.host ∨ g.capSet.thermal then f else c.runDraw k
    let c := if target ≤ g.grant then
        c |> writeGrant k target
          |> modGrant k (fun g => if g.level = .full then { g with capSet := g.capSet.put .budget false } else g)
      else
        c |> writeGrant k g.grant |> modGrant k (fun g => { g with capSet := g.capSet.put .budget true })
    let c := alignUplift k c
    post (.grantRequest k (c.grant k).grant (c.grant k).level) c

/-! ## Fan reservations (R87, R88) -/

/-- R87, R88: a raise or a release, taken in full in the event it arrives. -/
def giveReservation (f : Fin 8) (band rated : Nat) : Chip → Chip :=
  powerEvent false (setReservation f { band := band, ratedDraw := some rated })

/-! ## Supplies (R75 to R82) -/

/-- R76, R78, R81: entry to STARTING; a PSU_PG already asserted brings the supply ONLINE at once. -/
def startSupply (b : Fin 6) : Chip → Chip :=
  powerEvent false (modSupply b fun p =>
    if p.powerGood then { p with state := .online, failReason := none, enable := true, startDelay := false }
    else { p with state := .starting, failReason := none, enable := true, startDelay := true })

/-- R75: an arrival, taken in ABSENT. -/
def supplyArrival (b : Fin 6) : Chip → Chip :=
  modSupply b fun p =>
    if p.state = .absent then
      { p with state := .identifying, enable := false, capacity := 0, failReason := none, handle := none }
    else p

/-- R82: a removal, taken in every state except ABSENT. SUPPLY_REMOVED is raised before budget and committed draw are
compared (log 58). -/
def supplyRemoval (b : Fin 6) (c : Chip) : Chip :=
  if (c.supply b).state = .absent then c
  else
    let wasOnline := (c.supply b).state = .online
    c |> powerEvent false (fun c =>
          c |> modSupply b (fun p => Supply.reset p.powerGood)
            |> (fun c => if wasOnline then raise (.supply b) .supplyRemoved c else c))

/-- R79, R77, R78: entry to FAILED with PSU_EN deasserted; SUPPLY_FAILED is raised. -/
def failSupply (b : Fin 6) (reason : SupplyFail) : Chip → Chip :=
  powerEvent false fun c =>
    c |> modSupply b (fun p => { p with state := .failed, failReason := some reason, enable := false, startDelay := false })
      |> raise (.supply b) .supplyFailed

/-- R76: the identity of a supply in IDENTIFYING. -/
def supplyIdentity (b : Fin 6) (capacity : Nat) (handle : Option InvRef) (c : Chip) : Chip :=
  if (c.supply b).state = .identifying then
    c |> modSupply b (fun p => { p with capacity := capacity, handle := handle }) |> startSupply b
  else c

/-- R77: a failed read of a supply in IDENTIFYING. -/
def supplyReadFailed (b : Fin 6) (c : Chip) : Chip :=
  if (c.supply b).state = .identifying then failSupply b .unread c else c

/-- Table 30: a change of PSU_PG. -/
def psuPgChanged (b : Fin 6) (level : Bool) (c : Chip) : Chip :=
  if (c.supply b).powerGood = level then c
  else
    let state := (c.supply b).state
    let c := modSupply b (fun p => { p with powerGood := level }) c
    match state, level with
    | .starting, true =>
      powerEvent false (modSupply b fun p => { p with state := .online, startDelay := false }) c
    | .online, false => failSupply b .lost c
    | _, _ => c

/-! ## Warm restart (R115) -/

/-- R115 items 1 to 3: the grant record of a slot after the slot controller's mapping. -/
def restartGrant (switchClosed : Bool) (g : GrantRecord) : GrantRecord :=
  if switchClosed then
    let caps := g.capSet.put .thermal false
    { grant := g.grant, level := g.level,
      capSet := if caps = .empty ∧ g.level = .floor then .onlyBudget else caps,
      stage := .none, capRequest := none, uncapRequest := false }
  else GrantRecord.reset

/-- R115 items 1 to 4. -/
def restartGrants (c : Chip) : Chip :=
  setPower { c.power with
    grants := .gen fun k => restartGrant (c.slot k).switchClosed (c.grant k),
    queue := [], shed := [], serviceDue := false } c

/-- R115: the grant records, the queue and the shed list, and the comparison with warm restart as a cause. -/
def restartPower (c : Chip) : Chip :=
  let c := restartGrants c
  if c.overCommitted then startShedding c else c

end Sys2Proof.Machine
end

