-- ==== Sys2Proof/Machine/Fans.lean ====
section
/-!
DEFINITION. The fan controller (chapters 6 and 7): demand and target, the fan states, calibration, tracking and lock, pins
and boost, and zone emergencies.
-/

namespace Sys2Proof.Machine

/-! ## Bands and reservations (R123) -/

/-- R123: the step covering a band, the smallest step at or above it. -/
def stepCovering (b : Nat) : Nat :=
  if b = 0 then 0 else if b ≤ 8 then 8 else if b ≤ 16 then 16 else if b ≤ 24 then 24 else if b ≤ 32 then 32
  else if b ≤ 40 then 40 else if b ≤ 48 then 48 else if b ≤ 56 then 56 else 63

/-- R123: the step above a step. -/
def stepAbove (s : Nat) : Nat := if s < 56 then s + 8 else 63

/-- R123: a write of the reserved band, given to the power unit with the rated draw field as it stands. -/
def reserve (f : Fin 8) (step : Nat) (c : Chip) : Chip :=
  let c := modFan f (fun r => { r with reservedBand := step }) c
  giveReservation f step (c.fan f).ratedDraw c

/-! ## Percentages (R124) -/

/-- |a - b|. -/
def gap (a b : Nat) : Nat := (a - b) + (b - a)

def within3 (m t : Nat) : Bool := decide (gap m t * 100 ≤ 3 * t)
def within6 (m t : Nat) : Bool := decide (gap m t * 100 ≤ 6 * t)
def weakBelow (m t : Nat) : Bool := decide (6 * t < (t - m) * 100)

/-- A target change of more than 6 % of a figure (R128, R130). -/
def beyondChange (new figure : Nat) : Bool := decide (6 * figure < gap new figure * 100)

/-! ## Demand and target (R118 to R120, R139) -/

/-- R118. -/
def Chip.counted (c : Chip) (z : Fin 4) (k : Fin 16) : Bool :=
  c.slotZone k = z ∧ ((c.slot k).state = .running ∨ (c.slot k).state = .draining)

/-- R139. -/
def Chip.countedMargin (c : Chip) (k : Fin 16) : Nat :=
  match (c.slot k).lastStatus with
  | some st => if (c.slot k).silent then c.settings.criticalMargin + 1 else st.margin
  | none => c.settings.criticalMargin + 1

/-- The lowest number of a list; absent when it is empty. -/
def lowest : List Nat → Option Nat
  | [] => none
  | m :: rest => match lowest rest with
    | none => some m
    | some x => some (min m x)

/-- R118: the demand of a zone. -/
def Chip.demandOf (c : Chip) (z : Fin 4) : Option Nat :=
  lowest (((keys 16).filter fun k => c.counted z k).map fun k => c.countedMargin k)

/-- R120, Table 45. -/
def targetFor (curve : Curve) (demand : Option Nat) : Nat :=
  match demand with
  | none => (curve.read 0).speed
  | some d =>
    (keys 6).foldl (fun s i => if d ≤ (curve.read i).margin then (curve.read i).speed else s) (curve.read 0).speed

/-! ## Searches and entries to the driven states (R126, R133, R135) -/

/-- R126, from "to start the search". -/
def startSearch (f : Fin 8) : Chip → Chip :=
  modFan f fun r =>
    { r with searchTarget := r.target, search := some { index := 0, partialResult := 0, trial := 32 }, band := 32,
             window := .settle }

/-- R133, R135: the back-to-back windows go on running, the count window of a decision too (log 52); where none runs, one
starts with the band driven from now on (log 41). -/
def Fan.runWindows (band : Nat) (r : Fan) : Fan :=
  { r with window := .count, windowBand := if r.window = .count then r.windowBand else band }

/-- R126: entry to CALIBRATING. -/
def enterCalibrating (f : Fin 8) (c : Chip) : Chip :=
  c |> reserve f 63
    |> modFan f (fun r => { r with
        state := .calibrating, lockCount := 0, weakCount := 0, stallCount := 0, releaseTimer := false,
        pinnedBand := none })
    |> startSearch f

/-- R135: entry to BOOST. -/
def enterBoost (f : Fin 8) (c : Chip) : Chip :=
  let restarted : Bool := (c.fan f).state = .identifying ∨ (c.fan f).state = .failed
  c |> reserve f 63
    |> modFan f (fun r => { r.runWindows 63 with
        state := .boost, band := 63, search := none, releaseTimer := false, lockCount := 0,
        stallCount := if restarted then 0 else r.stallCount, weakCount := if restarted then 0 else r.weakCount })

/-- R135: every entry to CALIBRATING in a zone whose emergency is ACTIVE is taken as an entry to BOOST. -/
def calibrateOrBoost (f : Fin 8) (c : Chip) : Chip :=
  if (c.zone (fanZone f)).emergency then enterBoost f c else enterCalibrating f c

/-- R133: entry to PINNED, or a new PIN in it. -/
def enterPinned (f : Fin 8) (band : Nat) (c : Chip) : Chip :=
  c |> modFan f (fun r => { r.runWindows band with
        state := .pinned, pinnedBand := some band, search := none, releaseTimer := false, lockCount := 0, weakCount := 0,
        band := band })
    |> reserve f (stepCovering band)

/-- R129, R130: entry to TRACKING from LOCKED. The unlock count is cleared, and it keeps its value when the fan leaves LOCKED
for another state (log 59). -/
def unlock (r : Fan) : Fan := { r with state := .tracking, lockCount := 0, unlockCount := 0, releaseTimer := false }

/-! ## Target changes (R121) -/

/-- R121, R128 to R130, R132, R133, R135: a target change taken in the fan's state. -/
def targetChange (f : Fin 8) (t : Nat) (c : Chip) : Chip :=
  let old := c.fan f
  let c := modFan f (fun r => { r with target := t }) c
  match old.state with
  | .calibrating => if beyondChange t old.searchTarget then startSearch f c else c
  | .tracking => modFan f (fun r => { r with lockCount := 0 }) c
  | .locked => if beyondChange t old.target then modFan f unlock c else c
  | .absent | .identifying | .pinned | .boost | .failed => c

/-- R121: the fan target under the zone's target. -/
def Chip.fanTarget (c : Chip) (f : Fin 8) : Nat := min (c.zone (fanZone f)).target (c.fan f).maxSpeed

/-- R120, R121: a new zone target reaches a fan that is not ABSENT or IDENTIFYING. -/
def deliverTarget (f : Fin 8) (c : Chip) : Chip :=
  if (c.fan f).state = .absent ∨ (c.fan f).state = .identifying then c
  else if c.fanTarget f = (c.fan f).target then c
  else targetChange f (c.fanTarget f) c

/-- R120: recomputation of a zone's target. -/
def recomputeTarget (z : Fin 4) (c : Chip) : Chip :=
  let t := targetFor (c.zone z).active (c.zone z).demand
  if t = (c.zone z).target then c
  else c |> modZone z (fun r => { r with target := t }) |> deliverTarget (firstFan z) |> deliverTarget (secondFan z)

/-- R118, R119: recomputation of a zone's demand. -/
def recomputeDemand (z : Fin 4) (c : Chip) : Chip :=
  let d := c.demandOf z
  if d = (c.zone z).demand then c else c |> modZone z (fun r => { r with demand := d }) |> recomputeTarget z

/-! ## Zone emergencies (R141 to R148) -/

/-- R141: neither FAILED nor ABSENT. -/
def Fan.works (r : Fan) : Bool := r.state ≠ .failed ∧ r.state ≠ .absent

/-- R141: both fans of the zone are FAILED or ABSENT. -/
def Chip.fanCondition (c : Chip) (z : Fin 4) : Bool :=
  !(c.fan (firstFan z)).works && !(c.fan (secondFan z)).works

/-- R141: the demand is present and at or below the critical margin. -/
def Chip.marginCondition (c : Chip) (z : Fin 4) : Bool :=
  match (c.zone z).demand with
  | none => false
  | some d => decide (d ≤ c.settings.criticalMargin)

/-- R141, R147: the emergency cause. -/
def Chip.emergencyCause (c : Chip) (z : Fin 4) : EmergencyCause := if c.fanCondition z then .fans else .margin

/-- R145: the slots the emergency cause selects. -/
def Chip.selected (c : Chip) (z : Fin 4) (k : Fin 16) : Bool :=
  c.slotZone k = z ∧ (c.slot k).state = .running ∧
    ((c.zone z).cause = some .fans ∨ c.countedMargin k ≤ c.settings.criticalMargin)

/-- R145, R146: one thermal drain request for each entry to RUNNING. -/
def sendDrain (z : Fin 4) (k : Fin 16) (c : Chip) : Chip :=
  if c.selected z k ∧ !c.fans.drainSent.read k then
    c |> setDrainSent k true |> post (.thermalDrainRequest k)
  else c

/-- R145, R146: the selected slots of a zone are sent their requests, in rising slot number (log 54). -/
def sendDrains (z : Fin 4) : Chip → Chip := forEach (keys 16) (sendDrain z)

/-- R142 step 3: a fan in CALIBRATING, TRACKING, LOCKED or PINNED enters BOOST. -/
def boostFan (f : Fin 8) (c : Chip) : Chip :=
  match (c.fan f).state with
  | .calibrating | .tracking | .locked | .pinned => enterBoost f c
  | .absent | .identifying | .boost | .failed => c

/-- R142. The fans of the zone are moved in rising bay order (log 53), and THERMAL is asked for in rising slot number
(log 54). -/
def beginEmergency (z : Fin 4) (c : Chip) : Chip :=
  c |> modZone z (fun r => { r with emergency := true, cause := some (c.emergencyCause z) })
    |> raise (.zone z) .zoneEmergency
    |> boostFan (firstFan z)
    |> boostFan (secondFan z)
    |> forEach ((keys 16).filter fun k => c.slotZone k = z) requestThermal
    |> modZone z (fun r => { r with grace := some c.settings.emergencyGrace, graceTimer := true })

/-- R135, R148 step 3: a fan in BOOST leaves it. -/
def unboostFan (f : Fin 8) (c : Chip) : Chip :=
  if (c.fan f).state = .boost then
    match (c.fan f).pinnedBand with
    | some b => enterPinned f b c
    | none => enterCalibrating f c
  else c

/-- R148. The fans of the zone are moved in rising bay order (log 53). -/
def endEmergency (z : Fin 4) (c : Chip) : Chip :=
  c |> modZone z (fun r => { r with graceTimer := false })
    |> forEach ((keys 16).filter fun k => c.slotZone k = z) (removeReason .thermal)
    |> unboostFan (firstFan z)
    |> unboostFan (secondFan z)
    |> modZone z (fun r => { r with emergency := false, cause := none, grace := none })

/-- R148: the demand is absent or clear of the critical margin by five degrees, and the fan condition does not hold. -/
def Chip.endsEmergency (c : Chip) (z : Fin 4) : Bool :=
  !c.fanCondition z &&
    (match (c.zone z).demand with
    | none => true
    | some d => decide (c.settings.criticalMargin + 5 ≤ d))

/-- R141, R146 to R148: the evaluation of a zone. -/
def evaluateZone (z : Fin 4) (c : Chip) : Chip :=
  if (c.zone z).emergency then
    if c.endsEmergency z then endEmergency z c
    else
      let c := modZone z (fun r => { r with cause := some (c.emergencyCause z) }) c
      if (c.zone z).grace = some 0 then sendDrains z c else c
  else if c.marginCondition z ∨ c.fanCondition z then beginEmergency z c
  else c

/-- An event of R118 that reaches a zone: the demand is recomputed, a new target is taken by the fans, and the zone is evaluated
(R141), in this order (log 63). -/
def refreshZone (z : Fin 4) (c : Chip) : Chip := c |> recomputeDemand z |> evaluateZone z

/-- R27, R118, R143, R146: a slot has passed from one state to another. The zone is evaluated before THERMAL is asked for
(log 60). -/
def fanOnSlot (k : Fin 16) (old new : SlotState) (c : Chip) : Chip :=
  let c := if new = .running then setDrainSent k false c else c
  if old.isCounted ∨ new.isCounted then
    let c := refreshZone (c.slotZone k) c
    if new = .running ∧ (c.zone (c.slotZone k)).emergency then requestThermal k c else c
  else c

/-- R118: a STATUS page was written, or silent changed, for a counted slot. -/
def fanOnStatus (k : Fin 16) (c : Chip) : Chip :=
  if (c.slot k).state.isCounted then refreshZone (c.slotZone k) c else c

/-! ## Arrival, identification and removal (R125, R136) -/

/-- R125: an arrival, taken in ABSENT. -/
def fanArrival (f : Fin 8) (c : Chip) : Chip :=
  if (c.fan f).state = .absent then
    c |> modFan f (fun _ => { Fan.reset with state := .identifying }) |> evaluateZone (fanZone f)
  else c

/-- R125: the figures of a fan in IDENTIFYING are written, its target follows, and it calibrates or boosts. -/
def identifyFan (f : Fin 8) (handle : Option InvRef) (assumed : Bool) (rated speed pulses : Nat) (c : Chip) : Chip :=
  c |> modFan f (fun r => { r with
        handle := handle, assumed := assumed, ratedDraw := rated, maxSpeed := speed, pulses := pulses })
    |> (fun c => modFan f (fun r => { r with target := c.fanTarget f }) c)
    |> calibrateOrBoost f

/-- R125: the read ended with an identity. -/
def fanIdentity (f : Fin 8) (handle : Option InvRef) (rated speed pulses : Nat) (c : Chip) : Chip :=
  if (c.fan f).state = .identifying then identifyFan f handle false rated speed pulses c else c

/-- R125: the read failed, and the fan runs on the default figures. -/
def fanReadFailed (f : Fin 8) (c : Chip) : Chip :=
  if (c.fan f).state = .identifying then
    c |> raise (.fan f) .fanAssumed
      |> identifyFan f none true c.settings.defaultFanDraw c.settings.defaultFanSpeed c.settings.defaultFanPulses
  else c

/-- R136. -/
def fanRemoval (f : Fin 8) (c : Chip) : Chip :=
  if (c.fan f).state = .absent then c
  else
    c |> modFan f (fun r => { r with band := 0, window := .none, releaseTimer := false })
      |> reserve f 0
      |> modFan f (fun _ => Fan.reset)
      |> evaluateZone (fanZone f)

/-! ## Samples (R124, R126 to R132) -/

/-- R132: a fan fails. -/
def failFan (f : Fin 8) (c : Chip) : Chip :=
  c |> modFan f (fun r => { r with band := 0, window := .none, windowBand := 0, releaseTimer := false })
    |> reserve f 0
    |> modFan f (fun r => { r with
        search := none, pinnedBand := none, lockCount := 0, weakCount := 0, stallCount := 0, state := .failed })
    |> raise (.fan f) .fanFailed
    |> evaluateZone (fanZone f)

/-- R131: the weak count at a sample, by the band driven through the window. -/
def updateWeak (f : Fin 8) (c : Chip) : Chip :=
  let r := c.fan f
  if r.state = .tracking ∨ r.state = .locked ∨ r.state = .boost then
    if r.windowBand = 63 ∧ weakBelow r.measured r.target then
      let c := modFan f (fun r => { r with weakCount := min 10 (r.weakCount + 1) }) c
      if r.weakCount = 9 then raise (.fan f) .fanWeak c else c
    else modFan f (fun r => { r with weakCount := 0 }) c
  else c

/-- R126: the bit of a decision index. -/
def decisionBit (i : Nat) : Nat := 32 >>> i

/-- R127: the end of a search. -/
def endSearch (f : Fin 8) (result : Nat) (c : Chip) : Chip :=
  c |> modFan f (fun r => { r with band := result, search := none })
    |> reserve f (stepCovering result)
    |> modFan f (fun r => { r with state := .tracking, lockCount := 0, window := .count })

/-- R126: a decision of the search. -/
def takeDecision (f : Fin 8) (s : Search) (c : Chip) : Chip :=
  let r := c.fan f
  let result := if r.measured ≤ r.searchTarget then s.trial else s.partialResult
  if s.index < 5 then
    let trial := result + decisionBit (s.index + 1)
    modFan f (fun r => { r with
      search := some { index := s.index + 1, partialResult := result, trial := trial }, band := trial,
      window := .settle }) c
  else endSearch f result c

/-- R130: entry to LOCKED. -/
def enterLocked (f : Fin 8) : Chip → Chip :=
  modFan f fun r => { r with state := .locked, lockCount := 4, unlockCount := 0, releaseTimer := decide (r.band + 8 ≤ r.reservedBand) }

/-- R129: a sample in TRACKING. -/
def trackSample (f : Fin 8) (c : Chip) : Chip :=
  let r := c.fan f
  if within3 r.measured r.target then
    if 3 ≤ r.lockCount then enterLocked f c else modFan f (fun r => { r with lockCount := r.lockCount + 1 }) c
  else if r.measured < r.target ∧ r.band < 63 then
    let c := if r.reservedBand < r.band + 1 then reserve f (stepAbove r.reservedBand) c else c
    modFan f (fun r => { r with band := r.band + 1, lockCount := 0 }) c
  else if r.target < r.measured ∧ 0 < r.band then modFan f (fun r => { r with band := r.band - 1, lockCount := 0 }) c
  else modFan f (fun r => { r with lockCount := 0 }) c

/-- R130: a sample in LOCKED. -/
def lockSample (f : Fin 8) : Chip → Chip :=
  modFan f fun r =>
    if within6 r.measured r.target then { r with unlockCount := 0 }
    else if 3 ≤ r.unlockCount then unlock r
    else { r with unlockCount := r.unlockCount + 1 }

/-- R126, R129, R130, R133, R135: the rule of the fan's state for a sample. -/
def sampleByState (f : Fin 8) (c : Chip) : Chip :=
  match (c.fan f).state with
  | .calibrating =>
    match (c.fan f).search with
    | some s => takeDecision f s c
    | none => c
  | .tracking => trackSample f c
  | .locked => lockSample f c
  | .pinned | .boost | .absent | .identifying | .failed => c

/-- R124: a sample starts the next window, through which the band it leaves is driven. -/
def nextWindow (f : Fin 8) : Chip → Chip := modFan f fun r => if r.window = .count then { r with windowBand := r.band } else r

/-- R124: a sample, the end of a count window, taken by the fan's state. -/
def takeSample (f : Fin 8) (pulses : Nat) (c : Chip) : Chip :=
  let c := modFan f (fun r => { r with
    measured := pulses * 300 / r.pulses
    stallCount := if pulses = 0 ∧ 8 ≤ r.windowBand then r.stallCount + 1 else 0 }) c
  if 5 ≤ (c.fan f).stallCount then failFan f c
  else c |> updateWeak f |> sampleByState f |> nextWindow f

/-- R130: the release timer expires. -/
def releaseLocked (f : Fin 8) (c : Chip) : Chip :=
  c |> modFan f (fun r => { r with releaseTimer := false }) |> reserve f (stepCovering (c.fan f).band)

/-! ## Host orders (R117, R133, R134) -/

/-- R117: the checks on a staged curve. -/
def Curve.committable (q : Curve) : Bool :=
  ((keys 6).all fun i => decide (500 ≤ (q.read i).speed ∧ (q.read i).speed ≤ 30000)) &&
  ((keys 5).all fun i =>
    decide ((q.read i.succ).margin < (q.read i.castSucc).margin ∧ (q.read i.castSucc).speed ≤ (q.read i.succ).speed))

/-- R117. -/
def commitCurve (z : Fin 4) (c : Chip) : Chip × Status :=
  if (c.zone z).staged.committable then
    (c |> modZone z (fun r => { r with active := r.staged }) |> recomputeTarget z, .ok)
  else (c, .invalid)

/-- R133. -/
def pinFan (f : Fin 8) (band : Nat) (c : Chip) : Chip × Status :=
  if 63 < band then (c, .range)
  else
    match (c.fan f).state with
    | .calibrating | .tracking | .locked | .pinned => (enterPinned f band c, .ok)
    | .boost => (modFan f (fun r => { r with pinnedBand := some band }) c, .ok)
    | .absent | .identifying | .failed => (c, .state)

/-- R134. -/
def unpinFan (f : Fin 8) (c : Chip) : Chip × Status :=
  match (c.fan f).state, (c.fan f).pinnedBand with
  | .pinned, _ => (c |> modFan f (fun r => { r with pinnedBand := none }) |> calibrateOrBoost f, .ok)
  | .boost, some _ => (modFan f (fun r => { r with pinnedBand := none }) c, .ok)
  | _, _ => (c, .state)

/-- R134. -/
def retryFan (f : Fin 8) (c : Chip) : Chip × Status :=
  if (c.fan f).state = .failed then (c |> calibrateOrBoost f |> evaluateZone (fanZone f), .ok) else (c, .state)

/-! ## Settings amended (R143, R186) -/

/-- R143: THERMAL follows a slot that an AMEND of the zone map moved; `old` is the part before the AMEND (log 16). A slot
moved from an ACTIVE zone to another is asked for as any slot moved in (log 61). -/
def followMove (old : Chip) (k : Fin 16) (c : Chip) : Chip :=
  if old.slotZone k = c.slotZone k then c
  else if (c.zone (c.slotZone k)).emergency then requestThermal k c
  else if (old.zone (old.slotZone k)).emergency then removeReason .thermal k c
  else c

/-- R186: a zone that a moved slot leaves or joins. -/
def zoneTouched (old c : Chip) (z : Fin 4) : Bool :=
  (keys 16).any fun k => old.slotZone k ≠ c.slotZone k ∧ (old.slotZone k = z ∨ c.slotZone k = z)

/-- R141, R186: the zone map and the critical margin were written; `every` says that the critical margin was named. The zones,
and then the slots moved, are taken in rising number (log 54). -/
def fanSettings (old : Chip) (every : Bool) (c : Chip) : Chip :=
  c |> forEach ((keys 4).filter fun z => every ∨ zoneTouched old c z) refreshZone
    |> forEach (keys 16) (followMove old)

/-! ## Warm restart (R116, R138, R140) -/

/-- R140, R116: emergencies are cleared and every demand is absent. -/
def restartZone (r : Zone) : Zone :=
  { r with demand := none, target := targetFor r.active none, emergency := false, cause := none, grace := none,
           graceTimer := false }

/-- Table 49: a fan after warm restart, its zone's target being written. The new state is entered with the fan target as it
was kept, and the new target is then a change taken in that state. A fan that stays in CALIBRATING searches against the new
target from decision 0; the spec states nothing of its stall count, which is kept (log 42). -/
def restartFan (f : Fin 8) (c : Chip) : Chip :=
  match (c.fan f).state with
  | .absent | .identifying | .failed => deliverTarget f c
  | .calibrating => c |> modFan f (fun r => { r with target := c.fanTarget f }) |> startSearch f
  | .tracking | .locked | .boost => c |> enterCalibrating f |> deliverTarget f
  | .pinned =>
    c |> modFan f (fun r => { r with stallCount := 0, window := .count, windowBand := r.band }) |> deliverTarget f

/-- R138, R140: the zones, then the fans in rising bay order (log 53). -/
def restartFans (c : Chip) : Chip :=
  c |> forEach (keys 4) (fun z => modZone z restartZone) |> forEach (keys 8) restartFan

end Sys2Proof.Machine
end

