-- ==== Sys2Proof/Machine/Hub.lean ====
section
/-!
DEFINITION. The uplink hub (chapters 8 and 9): channels and the cell pool, the flush, frames in and out, failover.
-/

namespace Sys2Proof.Machine

/-! ## Cells (R151, R164) -/

/-- R151: the cells a frame of a length takes. -/
def frameCells (length : Nat) : Nat := ceilDiv length 128

/-- The cells of a list of frames. -/
def cellsOf (frames : List Nat) : Nat := (frames.map frameCells).sum

/-- Table 54 field 16: the cells of the stored frames and of the detached ones. -/
def Channel.cellsInUse (ch : Channel) : Nat :=
  cellsOf ch.down + cellsOf ch.up + cellsOf ch.detachedDown.toList + cellsOf ch.detachedUp.toList

/-- R164. -/
def Channel.busy (ch : Channel) : Bool := decide (0 < ch.cellsInUse)

/-- R176. -/
def Channel.away (ch : Channel) : Bool := decide (ch.active ≠ ch.preferred)

/-- Whether the window holds a tag. -/
def Channel.holdsTag (ch : Channel) (tag : Nat) : Bool := decide (ch.base ≤ tag ∧ tag ≤ ch.limit)

/-- R168. -/
def Uplink.usable (r : Uplink) : Bool := r.link && r.admin

/-- R168. -/
def Chip.usable (c : Chip) (u : Fin 2) : Bool := (c.uplink u).usable

/-- The handles of the channels with a property, in rising order. -/
def Chip.channelsWith (c : Chip) (p : Channel → Bool) : List (Fin 32) := (keys 32).filter fun h => (c.channel h).any p

/-- Whether a channel is busy; a free handle is not. -/
def Chip.channelBusy (c : Chip) (h : Fin 32) : Bool := (c.channel h).any Channel.busy

/-! ## Channel states (R156, R176) -/

/-- Entry to PASS on an uplink. -/
def Channel.passOn (u : Fin 2) (ch : Channel) : Channel := { ch with state := .pass, holdCause := none, active := u }

/-- Entry to HOLD, or a new hold cause. -/
def Channel.hold (x : HoldCause) (ch : Channel) : Channel := { ch with state := .hold, holdCause := some x }

/-- Entry to BAR. -/
def Channel.bar (ch : Channel) : Channel := { ch with state := .bar, holdCause := none }

/-- R156: granted, with the slot RUNNING or DRAINING. -/
def Chip.mayCarry (c : Chip) (ch : Channel) : Bool := ch.granted && (c.slot ch.slot).state.isCounted

/-- R157, R163: the uplink a channel passes on, its own or the other when fallback allows it. -/
def Chip.passUplink (c : Chip) (ch : Channel) : Option (Fin 2) :=
  if c.usable ch.active then some ch.active
  else if ch.fallback && c.usable (otherUplink ch.active) then some (otherUplink ch.active)
  else none

/-- R176: an away channel goes back to its preferred uplink when that is usable. -/
def revert (h : Fin 32) (c : Chip) : Chip :=
  modChannel h (fun ch => if ch.away && c.usable ch.preferred then { ch with active := ch.preferred } else ch) c

/-- R164, R176: a change that may free the last cells of a channel; at the change of busy to no the channel reverts. -/
def freeing (h : Fin 32) (f : Chip → Chip) (c : Chip) : Chip :=
  let after := f c
  if c.channelBusy h && !after.channelBusy h then revert h after else after

/-! ## Lines (R172, R173) -/

/-- R172: an idle and usable uplink sends the head of its egress list. -/
def startUplink (u : Fin 2) : Chip → Chip :=
  modUplink u fun r =>
    match r.sending, r.egress with
    | none, e :: _ => if r.usable then { r with sending := some (.stored e.1) } else r
    | _, _ => r

/-- R173 step 1: the channel the lane takes next. -/
def Chip.nextDown (c : Chip) (k : Fin 16) : Option (Fin 32) :=
  let ready := c.channelsWith fun ch => decide (ch.slot = k) && !ch.down.isEmpty
  match (c.lane k).pointer with
  | none => ready.head?
  | some p => ((ready.filter fun h => decide (p < h)) ++ (ready.filter fun h => decide (h ≤ p))).head?

/-- R173: an idle lane starts a frame. -/
def startLane (k : Fin 16) (c : Chip) : Chip :=
  match (c.lane k).sending, c.nextDown k with
  | none, some h => modLane k (fun r => { r with pointer := some h, sending := some (.stored h) }) c
  | _, _ => c

/-! ## Flush (R162) -/

/-- A line that sends the stored frame of a channel sends it on detached. -/
def detachLine (h : Fin 32) (x : Option Sending) : Option Sending := if x = some (.stored h) then some (.detached h) else x

/-- A count raised by a number of frames. -/
def countFlushed (n : Nat) (x : ChannelCounters) : ChannelCounters := { x with flushed := x.flushed + BitVec.ofNat 32 n }

/-- R162: the queues of a channel are emptied; a frame being sent is detached. -/
def Channel.flushed (ch : Channel) (onLane onUplink : Bool) : Channel :=
  { ch with
    down := [], up := [],
    detachedDown := if onLane then ch.down.head? else ch.detachedDown,
    detachedUp := if onUplink then ch.up.head? else ch.detachedUp,
    counters := countFlushed (ch.down.length + ch.up.length) ch.counters }

/-- R162, on a record. -/
def flushRecord (h : Fin 32) (ch : Channel) (c : Chip) : Chip :=
  let onLane := decide ((c.lane ch.slot).sending = some (.stored h))
  let onUplink := decide ((c.uplink ch.active).sending = some (.stored h))
  c |> setChannel h (some (ch.flushed onLane onUplink))
    |> modLane ch.slot (fun r => { r with sending := detachLine h r.sending })
    |> modUplink ch.active (fun r => { r with
        egress := r.egress.filter fun e => decide (e.1 ≠ h),
        sending := detachLine h r.sending,
        counters := { r.counters with flushed := r.counters.flushed + BitVec.ofNat 32 ch.up.length } })

/-- R162, R176. -/
def flush (h : Fin 32) (c : Chip) : Chip :=
  match c.channel h with
  | none => c
  | some ch => freeing h (flushRecord h ch) c

/-- R161: HOLD (SLOT), flushed. -/
def holdForSlot (h : Fin 32) (c : Chip) : Chip := c |> modChannel h (Channel.hold .slot) |> flush h

/-- R158: entry to BAR, flushed. -/
def enterBar (h : Fin 32) (c : Chip) : Chip := c |> modChannel h Channel.bar |> flush h

/-! ## The slot's reports (R160, R161, R163) -/

/-- R161: the slot's power stops. -/
def hubStop (k : Fin 16) (c : Chip) : Chip := forEach (c.channelsWith fun ch => decide (ch.slot = k)) holdForSlot c

/-- R160: entry to a state that removes the slot's terms. -/
def hubClearGrants (k : Fin 16) (c : Chip) : Chip :=
  forEach (c.channelsWith fun ch => decide (ch.slot = k)) (fun h => modChannel h fun ch => { ch with granted := false }) c

/-- R163: auto pass of one channel. -/
def autoPassChannel (h : Fin 32) (c : Chip) : Chip :=
  match c.channel h with
  | none => c
  | some ch =>
    match c.passUplink ch with
    | some u => setChannel h (some (ch.passOn u)) c
    | none => c |> setChannel h (some (ch.hold .uplink)) |> raise (.channel h) .uplinkHold

/-- R163: the slot enters RUNNING. Its channels are taken in rising handle (log 54). -/
def hubRunning (k : Fin 16) (c : Chip) : Chip :=
  forEach (c.channelsWith fun ch => decide (ch.slot = k ∧ ch.state = .hold) && ch.granted && ch.autoPass) autoPassChannel c

/-- Section 8.6: the hub's part in a slot's change of state. A slot that leaves the powered states stops (R18, R23,
R24). -/
def hubOnSlot (k : Fin 16) (old new : SlotState) (c : Chip) : Chip :=
  let c := if old.powered && !new.powered then hubStop k c else c
  match new with
  | .empty | .seated | .interrogating | .negotiating => hubClearGrants k c
  | .running => hubRunning k c
  | .awaitingAdmit | .awaitingGrant | .powering | .starting | .draining | .poweringDown | .held | .adopting => c

/-- R160: a channel of the slot takes the match. A handle stands for the record it names now (log 30). A channel in HOLD or BAR
that loses its grant keeps its state and is not flushed, as R160 says, against R54's HOLD (SLOT) and flush (log 65). -/
def matchChannel (handles : List (Fin 32)) (h : Fin 32) (c : Chip) : Chip :=
  match c.channel h with
  | none => c
  | some ch =>
    if handles.contains h then setChannel h (some { ch with granted := true }) c
    else
      let c := setChannel h (some { ch with granted := false }) c
      if ch.granted && decide (ch.state = .pass) then holdForSlot h c else c

/-- R160: the handoff of a match. -/
def takeMatch (k : Fin 16) (handles : List (Fin 32)) (c : Chip) : Chip :=
  c |> forEach (c.channelsWith fun ch => decide (ch.slot = k)) (matchChannel handles) |> setMatchOrder k handles

/-! ## Frames received (R169 to R171) -/

/-- R170, R171: the channel whose window holds a tag, among those with a property. -/
def Chip.channelFor (c : Chip) (tag : Nat) (p : Channel → Bool) : Option (Fin 32 × Channel) :=
  (keys 32).findSome? fun h =>
    match c.channel h with
    | some ch => if ch.holdsTag tag && p ch then some (h, ch) else none
    | none => none

/-- Where a frame came from. -/
inductive Side
  | fromUplink
  | fromLane
deriving DecidableEq, Repr

/-- Table 62: a frame joins the down queue, or the up queue and the egress list, and an idle line starts. -/
def storeFrame (side : Side) (h : Fin 32) (ch : Channel) (length : Nat) (c : Chip) : Chip :=
  match side with
  | .fromUplink => c |> setChannel h (some { ch with down := ch.down ++ [length] }) |> startLane ch.slot
  | .fromLane =>
    c |> setChannel h (some { ch with up := ch.up ++ [length] })
      |> modUplink ch.active (fun r => { r with egress := r.egress ++ [(h, length)] })
      |> startUplink ch.active

/-- Table 62: the fate of a frame at the channel found. -/
def frameFate (side : Side) (h : Fin 32) (ch : Channel) (length : Nat) (c : Chip) : Chip :=
  let counted (x : ChannelCounters) : Chip := setChannel h (some { ch with counters := x }) c
  match ch.state with
  | .bar => counted { ch.counters with barredDrops := ch.counters.barredDrops + 1 }
  | .hold =>
    if ch.maxFrame < length then
      counted { ch.counters with oversize := ch.counters.oversize + 1 } |> enterBar h |> raise (.channel h) .oversize
    else counted { ch.counters with heldDrops := ch.counters.heldDrops + 1 }
  | .pass =>
    if ch.maxFrame < length then
      counted { ch.counters with oversize := ch.counters.oversize + 1 } |> enterBar h |> raise (.channel h) .oversize
    else if frameCells length ≤ ch.cellCount - ch.cellsInUse then storeFrame side h ch length c
    else counted { ch.counters with noCell := ch.counters.noCell + 1 }

/-- R170, R171: a check that passes, on a frame of at most 1536 bytes. -/
def goodFrame (x : Frame) : Bool := x.good && decide (x.length ≤ 1536)

/-- A change of the counters of an uplink. -/
def countUplink (u : Fin 2) (f : UplinkCounters → UplinkCounters) : Chip → Chip :=
  modUplink u fun r => { r with counters := f r.counters }

/-- A change of the counters of a lane. -/
def countLane (k : Fin 16) (f : LaneCounters → LaneCounters) : Chip → Chip :=
  modLane k fun r => { r with counters := f r.counters }

/-- R169: a frame starts at a usable uplink. -/
def uplinkStart (u : Fin 2) : Chip → Chip := modUplink u fun r => if r.usable then { r with receiving := true } else r

/-- R170: a frame completes at a usable uplink. -/
def uplinkFrame (u : Fin 2) (x : Frame) (c : Chip) : Chip :=
  if goodFrame x then
    let c := countUplink u (fun n => { n with framesIn := n.framesIn + 1 }) c
    match c.channelFor x.tag fun ch => decide (ch.active = u) with
    | some (h, ch) => frameFate .fromUplink h ch x.length c
    | none => countUplink u (fun n => { n with unmatched := n.unmatched + 1 }) c
  else countUplink u (fun n => { n with checkErrors := n.checkErrors + 1 }) c

/-- R169, R170: the completion of the frame in the receive area; the area is freed. -/
def uplinkCompletion (u : Fin 2) (x : Frame) (c : Chip) : Chip :=
  if (c.uplink u).receiving then
    let c := modUplink u (fun r => { r with receiving := false }) c
    if c.usable u then uplinkFrame u x c else c
  else c

/-- R171: the completion of a frame on a lane. -/
def laneCompletion (k : Fin 16) (x : Frame) (c : Chip) : Chip :=
  if !(c.slot k).state.isCounted then countLane k (fun n => { n with idleDrops := n.idleDrops + 1 }) c
  else if goodFrame x then
    let c := countLane k (fun n => { n with framesIn := n.framesIn + 1 }) c
    match c.channelFor x.tag fun ch => decide (ch.slot = k) && ch.granted with
    | some (h, ch) => frameFate .fromLane h ch x.length c
    | none => countLane k (fun n => { n with stray := n.stray + 1 }) c
  else countLane k (fun n => { n with checkErrors := n.checkErrors + 1 }) c

/-! ## Frames sent (R172, R173) -/

/-- R172: what a transmit completion at an uplink removes and counts. -/
def uplinkSent (u : Fin 2) (x : Sending) (c : Chip) : Chip :=
  match x with
  | .stored h =>
    c |> modUplink u (fun r => { r with
          sending := none, egress := r.egress.tail,
          counters := { r.counters with framesOut := r.counters.framesOut + 1 } })
      |> freeing h (modChannel h fun ch => { ch with
          up := ch.up.tail, counters := { ch.counters with framesUp := ch.counters.framesUp + 1 } })
  | .detached h =>
    c |> modUplink u (fun r => { r with sending := none })
      |> freeing h (modChannel h fun ch => { ch with detachedUp := none })

/-- R172: the transmit completion of an uplink. -/
def uplinkTransmitted (u : Fin 2) (c : Chip) : Chip :=
  match (c.uplink u).sending with
  | none => c
  | some x => c |> uplinkSent u x |> startUplink u

/-- R173: what a transmit completion at a lane removes and counts. -/
def laneSent (k : Fin 16) (x : Sending) (c : Chip) : Chip :=
  match x with
  | .stored h =>
    c |> modLane k (fun r => { r with sending := none })
      |> freeing h (modChannel h fun ch => { ch with
          down := ch.down.tail, counters := { ch.counters with framesDown := ch.counters.framesDown + 1 } })
  | .detached h =>
    c |> modLane k (fun r => { r with sending := none })
      |> freeing h (modChannel h fun ch => { ch with detachedDown := none })

/-- R173: the transmit completion of a lane. -/
def laneTransmitted (k : Fin 16) (c : Chip) : Chip :=
  match (c.lane k).sending with
  | none => c
  | some x => c |> laneSent k x |> startLane k

/-! ## Failover (R168, R174 to R176) -/

/-- R174 step 1: a frame on the egress list of the lost uplink is discarded. -/
def discardEntry (u : Fin 2) (e : Fin 32 × Nat) (c : Chip) : Chip :=
  c |> modChannel e.1 (fun ch => { ch with up := ch.up.tail, counters := countFlushed 1 ch.counters })
    |> countUplink u (fun n => { n with flushed := n.flushed + 1 })

/-- R174 step 1. No channel reverts within a loss (R174, R176, log 15). -/
def discardEgress (u : Fin 2) (c : Chip) : Chip :=
  let r := c.uplink u
  let c := forEach r.egress (discardEntry u) c
  let c := match r.sending with
    | some (.detached h) => modChannel h (fun ch => { ch with detachedUp := none }) c
    | _ => c
  modUplink u (fun r => { r with egress := [], sending := none }) c

/-- R174 step 2: a channel that is moved when its uplink is lost. -/
def Chip.failsOver (c : Chip) (ch : Channel) : Bool := ch.fallback && c.usable (otherUplink ch.active)

/-- R174 step 2. -/
def failOver (h : Fin 32) (c : Chip) : Chip :=
  c |> modChannel h (fun ch => { ch with active := otherUplink ch.active }) |> raise (.channel h) .failover

/-- R174 step 3. -/
def holdForUplink (h : Fin 32) (c : Chip) : Chip := c |> modChannel h (Channel.hold .uplink) |> raise (.channel h) .uplinkHold

/-- R174: the loss of an uplink. Every channel that is moved is moved before any is held, so their raises stand in that order
(R187). -/
def uplinkLoss (u : Fin 2) (c : Chip) : Chip :=
  let c := discardEgress u c
  let passing (ch : Channel) : Bool := decide (ch.active = u ∧ ch.state = .pass)
  c |> forEach (c.channelsWith fun ch => passing ch && c.failsOver ch) failOver
    |> forEach (c.channelsWith fun ch => passing ch && !c.failsOver ch) holdForUplink
    |> raise (.uplink u) .linkDown

/-- A channel held for UPLINK that may carry traffic. -/
def Chip.liftable (c : Chip) (ch : Channel) : Bool :=
  decide (ch.state = .hold ∧ ch.holdCause = some .uplink) && c.mayCarry ch

/-- R175 step 1. -/
def liftChannels (u : Fin 2) (c : Chip) : Chip :=
  forEach (c.channelsWith fun ch => c.liftable ch && decide (ch.active = u)) (fun h => modChannel h (Channel.passOn u)) c

/-- R175 step 2. -/
def takeOverChannels (u : Fin 2) (c : Chip) : Chip :=
  if c.usable (otherUplink u) then c
  else
    forEach (c.channelsWith fun ch => c.liftable ch && decide (ch.active ≠ u) && ch.fallback)
      (fun h c => c |> modChannel h (Channel.passOn u) |> raise (.channel h) .failover) c

/-- R175 step 3, R176. -/
def revertChannels (u : Fin 2) (c : Chip) : Chip :=
  forEach (c.channelsWith fun ch => decide (ch.preferred = u ∧ ch.active ≠ u) && !ch.busy) revert c

/-- R175: the return of an uplink. -/
def uplinkReturn (u : Fin 2) (c : Chip) : Chip :=
  c |> liftChannels u |> takeOverChannels u |> revertChannels u |> raise (.uplink u) .linkUp

/-- R168: a change of link or admin, with the loss or return it makes. -/
def changeUplink (u : Fin 2) (f : Uplink → Uplink) (c : Chip) : Chip :=
  let after := modUplink u f c
  if c.usable u && !after.usable u then uplinkLoss u after
  else if !c.usable u && after.usable u then uplinkReturn u after
  else after

/-- R168, R169: a change of UPL_LINK; a fall abandons the frame in reception. -/
def linkChanged (u : Fin 2) (level : Bool) (c : Chip) : Chip :=
  if (c.uplink u).link = level then c
  else changeUplink u (fun r => { r with link := level, receiving := r.receiving && level }) c

/-! ## Orders (R157 to R159) -/

/-- R157. -/
def passChannel (h : Fin 32) (c : Chip) : Chip × Status :=
  match c.channel h with
  | none => (c, .noRecord)
  | some ch =>
    match ch.state with
    | .pass => (c, .ok)
    | .bar => (c, .state)
    | .hold =>
      if c.mayCarry ch then
        match c.passUplink ch with
        | some u => (setChannel h (some (ch.passOn u)) c, .ok)
        | none => (c, .state)
      else (c, .state)

/-- R157. -/
def holdChannel (h : Fin 32) (c : Chip) : Chip × Status :=
  match c.channel h with
  | none => (c, .noRecord)
  | some ch => (setChannel h (some (ch.hold .host)) c, .ok)

/-- R158. -/
def barChannel (h : Fin 32) (c : Chip) : Chip × Status :=
  match c.channel h with
  | none => (c, .noRecord)
  | some ch => if ch.state = .bar then (c, .ok) else (enterBar h c, .ok)

/-- R159. -/
def flushChannel (h : Fin 32) (c : Chip) : Chip × Status :=
  match c.channel h with
  | none => (c, .noRecord)
  | some ch => if ch.state = .pass then (c, .state) else (flush h c, .ok)

/-! ## Definitions (R153 to R155) -/

/-- Fields 2 to 10 of Table 54 as a request gives them. -/
structure Definition where
  slot : Nat
  base : Nat
  limit : Nat
  preferred : Fin 2
  fallback : Bool
  autoPass : Bool
  maxFrame : Nat
  firstCell : Nat
  cellCount : Nat
deriving DecidableEq, Repr

/-- The definition a record holds. -/
def Channel.definition (ch : Channel) : Definition :=
  { slot := ch.slot.val, base := ch.base, limit := ch.limit, preferred := ch.preferred, fallback := ch.fallback,
    autoPass := ch.autoPass, maxFrame := ch.maxFrame, firstCell := ch.firstCell, cellCount := ch.cellCount }

/-- R153 step 1. -/
def Definition.inRange (d : Definition) : Bool :=
  decide (d.slot < 16 ∧ 1 ≤ d.base ∧ d.base ≤ 4094 ∧ 1 ≤ d.limit ∧ d.limit ≤ 4094 ∧ d.base ≤ d.limit ∧
    d.limit - d.base + 1 ≤ 256 ∧ 64 ≤ d.maxFrame ∧ d.maxFrame ≤ 1536 ∧
    24 ≤ d.firstCell ∧ d.firstCell + d.cellCount ≤ 512 ∧ d.cellCount ≤ 128 ∧ 2 * frameCells d.maxFrame ≤ d.cellCount)

/-- R153 step 2: four records already name the slot. -/
def Chip.slotFull (c : Chip) (slot : Nat) : Bool :=
  decide (4 ≤ (c.channelsWith fun ch => decide (ch.slot.val = slot)).length)

/-- R153 step 3: a shared tag or a shared cell. -/
def Definition.collides (d : Definition) (ch : Channel) : Bool :=
  decide ((d.base ≤ ch.limit ∧ ch.base ≤ d.limit) ∨
    (d.firstCell < ch.firstCell + ch.cellCount ∧ ch.firstCell < d.firstCell + d.cellCount))

/-- R153 step 3, leaving one handle out (R154). -/
def Chip.overlaps (c : Chip) (except : Option (Fin 32)) (d : Definition) : Bool :=
  (c.channelsWith d.collides).any fun h => decide (some h ≠ except)

/-- The lowest free handle. -/
def Chip.freeChannel (c : Chip) : Option (Fin 32) := (keys 32).find? fun h => (c.channel h).isNone

/-- Every channel counter 0. -/
def ChannelCounters.zero : ChannelCounters :=
  { framesUp := 0, framesDown := 0, noCell := 0, heldDrops := 0, barredDrops := 0, oversize := 0, flushed := 0 }

/-- R153: the record a definition creates. -/
def newChannel (slot : Fin 16) (d : Definition) : Channel :=
  { slot := slot, base := d.base, limit := d.limit, preferred := d.preferred, fallback := d.fallback,
    autoPass := d.autoPass, maxFrame := d.maxFrame, firstCell := d.firstCell, cellCount := d.cellCount,
    state := .hold, holdCause := some .host, granted := false, active := d.preferred, counters := .zero,
    down := [], up := [], detachedDown := none, detachedUp := none }

/-- R154: a passing AMEND writes the definition; a named preferred uplink is also the active one. -/
def Channel.redefine (ch : Channel) (slot : Fin 16) (d : Definition) (namesPreferred : Bool) : Channel :=
  { ch with
    slot := slot, base := d.base, limit := d.limit, preferred := d.preferred, fallback := d.fallback,
    autoPass := d.autoPass, maxFrame := d.maxFrame, firstCell := d.firstCell, cellCount := d.cellCount,
    active := if namesPreferred then d.preferred else ch.active }

/-- R153: the answer carries the handle. -/
def defineRecord (d : Definition) (c : Chip) : Chip × Answer :=
  if hs : d.slot < 16 then
    if d.inRange then
      match c.freeChannel with
      | none => (c, { status := .full, result := [] })
      | some h =>
        if c.slotFull d.slot then (c, { status := .full, result := [] })
        else if c.overlaps none d then (c, { status := .overlap, result := [] })
        else (setChannel h (some (newChannel ⟨d.slot, hs⟩ d)) c, { status := .ok, result := [BitVec.ofNat 8 h.val] })
    else (c, { status := .range, result := [] })
  else (c, { status := .range, result := [] })

/-- R154: a checked AMEND of a record. -/
def checkedAmend (h : Fin 32) (ch : Channel) (d : Definition) (namesPreferred : Bool) (c : Chip) : Chip × Status :=
  if hs : d.slot < 16 then
    if d.inRange then
      if d.slot ≠ ch.slot.val ∧ c.slotFull d.slot then (c, .full)
      else if c.overlaps (some h) d then (c, .overlap)
      else (setChannel h (some (ch.redefine ⟨d.slot, hs⟩ d namesPreferred)) c, .ok)
    else (c, .range)
  else (c, .range)

/-- R154: whether the state of a channel lets an AMEND be checked. -/
def Channel.amendBar (ch : Channel) (namesSlot : Bool) : Status :=
  if ch.state ≠ .hold then .state
  else if ch.busy then .busy
  else if ch.granted && namesSlot then .state
  else .ok

/-- R155. -/
def retireRecord (h : Fin 32) (c : Chip) : Chip × Status :=
  match c.channel h with
  | none => (c, .noRecord)
  | some ch =>
    if ch.state ≠ .hold then (c, .state)
    else if ch.busy then (c, .busy)
    else (c |> setChannel h none |> dropObject (.channel h), .ok)

/-! ## Warm restart (R165, R178) -/

/-- R178: the lines stop, and the frames detached on them are dropped. -/
def stopLines (c : Chip) : Chip :=
  c |> forEach (keys 2) (fun u => modUplink u fun r => { r with sending := none })
    |> forEach (keys 16) (fun k => modLane k fun r => { r with sending := none, pointer := none })
    |> forEach (keys 32) (fun h => modChannel h fun ch => { ch with detachedDown := none, detachedUp := none })

/-- R165, for one channel. -/
def restartChannel (h : Fin 32) (c : Chip) : Chip :=
  c |> holdForSlot h
    |> modChannel h (fun ch => { ch with
        active := ch.preferred, granted := ch.granted && decide ((c.slot ch.slot).state = .adopting) })

/-- R165, R178. The link field is the level of the pin, so the sample changes nothing. -/
def restartHub (c : Chip) : Chip :=
  c |> stopLines
    |> forEach (keys 32) restartChannel
    |> forEach (keys 2) (fun u => modUplink u fun r => { r with egress := [], receiving := false })

end Sys2Proof.Machine
end

