-- ==== Sys2Proof/Machine/Inventory.lean ====
section
/-!
DEFINITION. The inventory unit (sections 3.1 to 3.5): offers, departure, retirement, asset tags and the resolution of keys.
-/

namespace Sys2Proof.Machine

/-- The kind of unit a location holds (R56). -/
def Location.kind : Location → UnitKind
  | .slot _ => .blade | .supply _ => .supply | .fan _ => .fan

/-- Field 3 of an inventory record. -/
def InvRecord.kind (r : InvRecord) : UnitKind := Location.kind r.location

/-- R55: a printable character. -/
def printable (b : Byte) : Bool := decide (32 ≤ b.toNat ∧ b.toNat ≤ 126)

/-- The lowest handle whose content satisfies a test. -/
def Chip.findHandle (c : Chip) (p : InvHandle → Bool) : Option (Fin 48) :=
  (keys 48).find? fun h => p (c.invHandle h)

/-- A handle that holds a record with a property. -/
def InvHandle.holds (p : InvRecord → Bool) (e : InvHandle) : Bool :=
  match e.record with
  | some r => p r
  | none => false

/-- R55: the handle of the record of a kind and serial, PRESENT or DEPARTED. -/
def Chip.bySerial (c : Chip) (kind : UnitKind) (chars : List Byte) : Option (Fin 48) :=
  c.findHandle (InvHandle.holds fun r => decide (r.kind = kind ∧ r.identity.serial = chars))

/-- R55: the handle of the PRESENT record bound at a location. -/
def Chip.boundAt (c : Chip) (l : Location) : Option (Fin 48) :=
  c.findHandle (InvHandle.holds fun r => r.present && decide (r.location = l))

/-- The lowest free handle. -/
def Chip.freeHandle (c : Chip) : Option (Fin 48) := c.findHandle fun e => e.record.isNone

/-- A handle with its generation. -/
def Chip.invRef (c : Chip) (h : Fin 48) : InvRef := { handle := h, generation := (c.invHandle h).generation }

/-- R58: the epoch is incremented and the record written with its new value. -/
def writeRecord (h : Fin 48) (r : InvRecord) (c : Chip) : Chip :=
  let epoch := c.inventory.epoch + 1
  c |> setEpoch epoch |> setInvHandle h { c.invHandle h with record := some { r with changeEpoch := epoch } }

/-- R62: the record bound at a vacated location departs. -/
def vacate (l : Location) (c : Chip) : Chip :=
  match c.boundAt l with
  | none => c
  | some h =>
    match (c.invHandle h).record with
    | some r => writeRecord h { r with present := false } c
    | none => c

/-- R60: a DEPARTED record is revived by an offer. -/
def InvRecord.revive (r : InvRecord) (l : Location) (id : Identity) : InvRecord :=
  { r with location := l, present := true, identity := { id with serial := r.identity.serial },
           arrivals := min 65535 (r.arrivals + 1) }

/-- R60: the record an offer creates. -/
def InvRecord.create (l : Location) (id : Identity) : InvRecord :=
  { location := l, present := true, identity := id, assetTag := none, arrivals := 1, changeEpoch := 0 }

/-- R59 step 6. -/
def createRecord (l : Location) (id : Identity) (c : Chip) : Chip × OfferAnswer :=
  match c.freeHandle with
  | some h => (writeRecord h (.create l id) c, .created (c.invRef h))
  | none => (raise .chassis .inventoryFull c, .full)

/-- R59: the inventory unit takes an offer. -/
def offer (l : Location) (id : Identity) (c : Chip) : Chip × OfferAnswer :=
  match c.bySerial (Location.kind l) id.serial with
  | some h =>
    match (c.invHandle h).record with
    | some r =>
      if r.present then
        (if r.location = l then (c, .bound (c.invRef h)) else (c, .duplicate))
      else
        let c := vacate l c
        (writeRecord h (r.revive l id) c, .revived (c.invRef h))
    | none => (c, .duplicate)
  | none =>
    if c.freeHandle.isNone then (raise .chassis .inventoryFull c, .full)
    else createRecord l id (vacate l c)

/-! ## Keys (R56) -/

/-- What a key resolves to: a record's handle, or the status to answer. -/
inductive Resolved
  | found (h : Fin 48) (r : InvRecord)
  | stale (generation : Byte) (inUse : Bool)
  | noRecord
deriving DecidableEq, Repr

/-- A handle found by a search. -/
def Chip.resolvedAt (c : Chip) : Option (Fin 48) → Resolved
  | none => .noRecord
  | some h =>
    match (c.invHandle h).record with
    | some r => .found h r
    | none => .noRecord

/-- R56. The epoch key names no record. -/
def Chip.resolve (c : Chip) : InvKey → Resolved
  | .handle h g =>
    if (c.invHandle h).generation ≠ g then .stale (c.invHandle h).generation (c.invHandle h).record.isSome
    else c.resolvedAt (some h)
  | .location l => c.resolvedAt (c.boundAt l)
  | .serial kind chars => c.resolvedAt (c.bySerial kind chars)
  | .epoch => .noRecord

/-- R63: a DEPARTED record is retired. -/
def retireHandle (h : Fin 48) (c : Chip) : Chip :=
  c |> setEpoch (c.inventory.epoch + 1)
    |> setInvHandle h { generation := (c.invHandle h).generation + 1, record := none }

end Sys2Proof.Machine
end

