-- ==== Sys2Proof/Machine/SlotController.lean ====
section
/-!
DEFINITION. The slot controller (chapter 1): the entry to each state, the events of contacts, latch, power good and slot
timers, drain requests, adoption, and the slot controller's part of the slot link reports.
-/

namespace Sys2Proof.Machine

/-! ## Entry to a state (R3, R6, R7) -/

/-- R3, R6, R7: what the entry to a state does to the record, whatever the event. A state's own writes follow it. -/
def Slot.enter (new : SlotState) (s : Slot) : Slot :=
  let clearTerms : Bool := new = .empty ∨ new = .seated ∨ new = .interrogating ∨ new = .negotiating
  let clearStatus : Bool := new = .empty ∨ new = .powering
  { s with
    state := new,
    holdReason := none,
    drainCause := if new = .poweringDown then s.drainCause else none,
    handle := if new = .empty then none else s.handle,
    terms := if clearTerms then none else s.terms,
    priorityOverride := if new = .empty then none else s.priorityOverride,
    switchClosed := new.powered,
    resetReleased := new.released,
    lastStatus := if clearStatus then none else s.lastStatus,
    silence := if clearStatus then 0 else s.silence,
    silent := !clearStatus && s.silent,
    overdraw := if clearStatus then 0 else s.overdraw,
    powerUpDelay := none, resetHold := none,
    pollTimer := if new.isCounted then s.pollTimer else none,
    drainTimer := none, powerDownTimer := none,
    outcome := none, adoptCause := none }

/-- R27: the change of state is reported to the power unit, the fan controller and the uplink hub (log 25). -/
def reportSlot (k : Fin 16) (old new : SlotState) (c : Chip) : Chip :=
  c |> powerOnSlot k new |> fanOnSlot k old new |> hubOnSlot k old new

/-- The engine's part in a change of state (R36, R54). -/
def engineOnSlot (k : Fin 16) (old new : SlotState) (c : Chip) : Chip :=
  if new.keepsListEmpty then emptyEngine k c
  else if old = .running then clearRenegotiation k c
  else c

/-- R12, R19, R22 to R24: a slot that leaves the states that hold or await a grant gives it back. -/
def grantOnSlot (k : Fin 16) (old new : SlotState) (c : Chip) : Chip :=
  if old.holdsGrant && !new.holdsGrant then releaseGrant k c else c

/-- A slot changes its state: the record with the new state's own writes, the engine, the grant, the reports. -/
def enterState (k : Fin 16) (new : SlotState) (own : Slot → Slot) (c : Chip) : Chip :=
  let old := (c.slot k).state
  c |> modSlot k (fun s => own (s.enter new))
    |> engineOnSlot k old new
    |> grantOnSlot k old new
    |> reportSlot k old new

/-- R20: entry to HELD. HELD is raised once the entry is reported (log 55). -/
def toHeld (k : Fin 16) (reason : HoldReason) (c : Chip) : Chip :=
  c |> enterState k .held (fun s => { s with holdReason := some reason }) |> raise (.slot k) .held

/-- R8, R21: entry to SEATED. -/
def toSeated (k : Fin 16) : Chip → Chip := enterState k .seated id

/-- R9: entry to INTERROGATING. -/
def toInterrogating (k : Fin 16) (c : Chip) : Chip := c |> enterState k .interrogating id |> startInterrogation k

/-- R10: entry to NEGOTIATING. -/
def toNegotiating (k : Fin 16) (c : Chip) : Chip := c |> enterState k .negotiating id |> startNegotiation k

/-- R14, R29: entry to RUNNING; the poll timer starts. -/
def toRunning (k : Fin 16) (c : Chip) : Chip :=
  enterState k .running (fun s => { s with pollTimer := some c.settings.pollInterval }) c

/-- R13: entry to STARTING; the reset hold starts. -/
def toStarting (k : Fin 16) (c : Chip) : Chip :=
  enterState k .starting (fun s => { s with resetHold := some c.settings.resetHold }) c

/-- R12, R13: entry to POWERING; an asserted power good is taken at once. -/
def toPowering (k : Fin 16) (c : Chip) : Chip :=
  let c := enterState k .powering (fun s => { s with powerUpDelay := some c.settings.powerUpDelay }) c
  if (c.slot k).powerGood then toStarting k c else c

/-- R17: the drain timer's setting for a cause. -/
def Chip.drainTime (c : Chip) (cause : DrainCause) : Nat :=
  if cause = .shed then c.settings.shedDrainTimeout else c.settings.drainTimeout

/-- R17: entry to DRAINING. -/
def toDraining (k : Fin 16) (cause : DrainCause) (c : Chip) : Chip :=
  let poll := match (c.slot k).pollTimer with
    | some t => t
    | none => c.settings.pollInterval
  c |> enterState k .draining (fun s => { s with
        drainCause := some cause, drainTimer := some (c.drainTime cause), pollTimer := some poll })
    |> requestShutdown k

/-! ## Power-down (R18, R19) -/

/-- Table 10: the outcome of a drain. -/
def DrainCause.outcome : DrainCause → PdOutcome
  | .latch => .interrogating
  | .evict => .heldEvicted
  | .shed => .heldShed
  | .thermal => .heldThermal
  | .adoptMismatch => .heldAdoptMismatch

/-- Table 10: the alert raised at completion. -/
def PdOutcome.alert : PdOutcome → Option Cause
  | .heldShed => some .shedOff
  | .heldThermal => some .thermalDrain
  | .interrogating | .heldEvicted | .heldAdoptMismatch | .heldForced | .heldPowerFault => none

/-- Table 10: the state the outcome names, with the latch CLOSED. -/
def toOutcome (k : Fin 16) : PdOutcome → Chip → Chip
  | .interrogating => toInterrogating k
  | .heldEvicted => toHeld k .evicted
  | .heldShed => toHeld k .shed
  | .heldThermal => toHeld k .thermal
  | .heldAdoptMismatch => toHeld k .adoptMismatch
  | .heldForced => toHeld k .forced
  | .heldPowerFault => toHeld k .powerFault

/-- R19: normal completion. -/
def completePowerDown (k : Fin 16) (c : Chip) : Chip :=
  let o := (c.slot k).outcome.getD .interrogating
  let c := if (c.slot k).latch.field then toOutcome k o c else toSeated k c
  match o.alert with
  | some x => raise (.slot k) x c
  | none => c

/-- R18: entry to POWERING_DOWN with a drain cause and an outcome; PWR_GOOD already deasserted completes at once. -/
def toPoweringDown (k : Fin 16) (cause : Option DrainCause) (o : PdOutcome) (c : Chip) : Chip :=
  let c := enterState k .poweringDown (fun s => { s with
      drainCause := cause, outcome := some o, powerDownTimer := some Config.powerDownMs }) c
  if (c.slot k).powerGood then c else completePowerDown k c

/-- R17: the end of a drain. -/
def endDrain (k : Fin 16) (c : Chip) : Chip :=
  let cause := (c.slot k).drainCause.getD .latch
  toPoweringDown k (some cause) cause.outcome c

/-! ## Removal and power faults (R22 to R24) -/

/-- R22, R23: entry to EMPTY; a bound record departs. -/
def toEmpty (k : Fin 16) (c : Chip) : Chip :=
  let bound := (c.slot k).handle.isSome
  let c := enterState k .empty id c
  if bound then vacate (.slot k) c else c

/-- R24, R19: the grant release and the reports come before POWER_FAULT, and the entry to HELD is last. -/
def powerFault (k : Fin 16) (c : Chip) : Chip :=
  c |> enterState k .held (fun s => { s with holdReason := some .powerFault })
    |> raise (.slot k) .powerFault
    |> raise (.slot k) .held

/-- R22, R23: a contact becomes ABSENT. -/
def contactLost (k : Fin 16) (c : Chip) : Chip :=
  let old := (c.slot k).state
  if old = .empty then c
  else if old.powered then c |> toEmpty k |> raise (.slot k) .surpriseRemoval
  else toEmpty k c

/-- R8: a contact becomes PRESENT. -/
def contactMade (k : Fin 16) (c : Chip) : Chip :=
  let s := c.slot k
  if s.state = .empty ∧ s.early.field ∧ s.late.field then
    (if s.latch.field then toInterrogating k c else toSeated k c)
  else c

/-! ## Drain requests (R16, Table 9) -/

/-- Table 9: a drain request in ADOPTING; the interrogation is abandoned (log 28). -/
def drainAdopting (k : Fin 16) (cause : DrainCause) (c : Chip) : Chip :=
  let kept := (c.slot k).adoptCause.getD cause
  c |> emptyEngine k |> toDraining k kept

/-- Table 9: the latch opened. -/
def latchOpened (k : Fin 16) (c : Chip) : Chip :=
  match (c.slot k).state with
  | .interrogating | .negotiating | .awaitingAdmit | .awaitingGrant | .held => toSeated k c
  | .powering | .starting => toPoweringDown k (some .latch) .interrogating c
  | .running => toDraining k .latch c
  | .adopting => drainAdopting k .latch c
  | .empty | .seated | .draining | .poweringDown => c

/-- R8, R20: the latch closed. -/
def latchClosed (k : Fin 16) (c : Chip) : Chip := if (c.slot k).state = .seated then toInterrogating k c else c

/-- Table 9: the shed OFF action. -/
def shedOff (k : Fin 16) (c : Chip) : Chip :=
  match (c.slot k).state with
  | .powering | .starting => toPoweringDown k (some .shed) .heldShed c
  | .running => toDraining k .shed c
  | .adopting => drainAdopting k .shed c
  | .empty | .seated | .interrogating | .negotiating | .awaitingAdmit | .awaitingGrant | .held | .draining
  | .poweringDown => c

/-- Table 9: the thermal drain. -/
def thermalDrain (k : Fin 16) (c : Chip) : Chip :=
  match (c.slot k).state with
  | .running => toDraining k .thermal c
  | .adopting => drainAdopting k .thermal c
  | .empty | .seated | .interrogating | .negotiating | .awaitingAdmit | .awaitingGrant | .held | .powering | .starting
  | .draining | .poweringDown => c

/-! ## Debounced inputs and power good (R4, R5) -/

def Slot.input (s : Slot) : SlotInput → Debounced
  | .early => s.early | .late => s.late | .latch => s.latch

def Slot.putInput (s : Slot) (i : SlotInput) (d : Debounced) : Slot :=
  match i with
  | .early => { s with early := d } | .late => { s with late := d } | .latch => { s with latch := d }

/-- R4: an edge starts or restarts the debounce timer (log 26). -/
def slotEdge (k : Fin 16) (i : SlotInput) (level : Bool) : Chip → Chip :=
  modSlot k fun s => s.putInput i { s.input i with pin := level, timer := true }

/-- R4: the field at the expiry. -/
def Debounced.expire (d : Debounced) : Debounced := { d with field := d.pin, timer := false }

/-- R4: the expiry of a debounce timer; a change is taken by its level. -/
def slotDebounced (k : Fin 16) (i : SlotInput) (made lost : Chip → Chip) (c : Chip) : Chip :=
  let d := (c.slot k).input i
  if d.timer then
    let c := modSlot k (fun s => s.putInput i d.expire) c
    if d.pin = d.field then c else if d.pin then made c else lost c
  else c

/-- R5, Table 8. -/
def pwrGoodChanged (k : Fin 16) (level : Bool) (c : Chip) : Chip :=
  if (c.slot k).powerGood = level then c
  else
    let c := modSlot k (fun s => { s with powerGood := level }) c
    match (c.slot k).state, level with
    | .powering, true => toStarting k c
    | .starting, false | .running, false | .draining, false | .adopting, false => powerFault k c
    | .poweringDown, false => completePowerDown k c
    | _, _ => c

/-! ## Slot timers -/

/-- R13. `together` says that PWR_GOOD is asserted together with the expiry, and the expiry is taken first: the slot then
stands in POWERING_DOWN with power good ASSERTED (log 40). POWER_FAULT is raised before the entry is reported (log 57). -/
def powerUpExpired (k : Fin 16) (together : Bool) (c : Chip) : Chip :=
  if (c.slot k).state = .powering ∧ (c.slot k).powerUpDelay.isSome then
    c |> modSlot k (fun s => { s with powerGood := s.powerGood || together })
      |> raise (.slot k) .powerFault
      |> toPoweringDown k none .heldPowerFault
  else c

/-- R14. -/
def resetHoldExpired (k : Fin 16) (c : Chip) : Chip :=
  if (c.slot k).state = .starting ∧ (c.slot k).resetHold.isSome then toRunning k c else c

/-- R15, R50. -/
def pollExpired (k : Fin 16) (c : Chip) : Chip :=
  if (c.slot k).state.isCounted ∧ (c.slot k).pollTimer.isSome then
    c |> modSlot k (fun s => { s with pollTimer := some c.settings.pollInterval }) |> requestPoll k
  else c

/-- R17. -/
def drainExpired (k : Fin 16) (c : Chip) : Chip :=
  if (c.slot k).state = .draining ∧ (c.slot k).drainTimer.isSome then endDrain k c else c

/-- R19. -/
def powerDownExpired (k : Fin 16) (c : Chip) : Chip :=
  if (c.slot k).state = .poweringDown ∧ (c.slot k).powerDownTimer.isSome then powerFault k c else c

/-! ## Orders (R11, R20, R25, R26, R53, Table 12) -/

/-- R11. -/
def admitSlot (k : Fin 16) (c : Chip) : Chip × Status :=
  if (c.slot k).state = .awaitingAdmit then (enterState k .awaitingGrant id c, .ok) else (c, .state)

/-- R20: whether READMIT begins again with the interrogation. -/
def Slot.readmitsByIdentity (s : Slot) : Bool :=
  s.holdReason = some .duplicateIdentity ∨ s.holdReason = some .inventoryFull ∨ s.holdReason = some .noAnswer ∨
    s.holdReason = some .adoptMismatch ∨ s.handle = none

/-- R20. -/
def readmitSlot (k : Fin 16) (c : Chip) : Chip × Status :=
  if (c.slot k).state = .held ∧ (c.slot k).latch.field then
    (if (c.slot k).readmitsByIdentity then toInterrogating k c else toNegotiating k c, .ok)
  else (c, .state)

/-- R25. -/
def evictSlot (k : Fin 16) (c : Chip) : Chip × Status :=
  match (c.slot k).state with
  | .interrogating | .negotiating | .awaitingAdmit | .awaitingGrant => (toHeld k .evicted c, .ok)
  | .powering | .starting => (toPoweringDown k (some .evict) .heldEvicted c, .ok)
  | .running => (toDraining k .evict c, .ok)
  | .empty | .seated | .held | .draining | .poweringDown | .adopting => (c, .state)

/-- R26. -/
def forceOffSlot (k : Fin 16) (c : Chip) : Chip × Status :=
  if (c.slot k).state.powered then
    let kept := if (c.slot k).state = .draining then (c.slot k).drainCause else none
    (toPoweringDown k kept .heldForced c, .ok)
  else (c, .state)

/-- R53. -/
def renegotiateSlot (k : Fin 16) (c : Chip) : Chip × Status :=
  let e := c.engine k
  if (c.slot k).state = .running ∧ !e.renegRequest ∧ e.phase ≠ .renegotiation then
    (c |> modEngine k (fun e => { e with renegRequest := true }) |> arbitrate k, .ok)
  else (c, .state)

/-- R2: the priority override is written or removed, and the power unit places the slot's entry again. -/
def writeOverride (k : Fin 16) (p : Option Nat) (c : Chip) : Chip :=
  c |> modSlot k (fun s => { s with priorityOverride := p }) |> replaceEntry k

/-- R12: the close order. A slot that has left AWAITING_GRANT refuses it and the grant is given back (log 12). -/
def takeCloseOrder (k : Fin 16) (c : Chip) : Chip :=
  if (c.grant k).stage = .closing then
    (if (c.slot k).state = .awaitingGrant then toPowering k c else releaseGrant k c)
  else c

/-! ## Reports of the slot link engine (R9, R10, R29, R50 to R52) -/

/-- R9: the inventory unit's answer to the offer. -/
def takeOffer (k : Fin 16) (a : OfferAnswer) (c : Chip) : Chip :=
  match a with
  | .bound r | .revived r | .created r => c |> modSlot k (fun s => { s with handle := some r }) |> toNegotiating k
  | .duplicate => toHeld k .duplicateIdentity c
  | .full => toHeld k .inventoryFull c

/-- R29: the identity is the one of the bound record. -/
def Chip.matchesBound (c : Chip) (k : Fin 16) (id : Identity) : Bool :=
  match (c.slot k).handle with
  | none => false
  | some r => (c.invHandle r.handle).holds fun x =>
      decide (x.identity.vendor = id.vendor ∧ x.identity.model = id.model ∧ x.identity.serial = id.serial ∧
        x.identity.revision = id.revision)

/-- Table 15: the adoption ends with the adopt cause, or with RUNNING when there is none. -/
def endAdoption (k : Fin 16) (c : Chip) : Chip :=
  match (c.slot k).adoptCause with
  | none => toRunning k c
  | some cause => toDraining k cause c

/-- R9, R29: the interrogation returned an identity. -/
def takeIdentity (k : Fin 16) (id : Identity) (c : Chip) : Chip :=
  match (c.slot k).state with
  | .interrogating =>
    let (c, a) := offer (.slot k) id c
    takeOffer k a c
  | .adopting => if c.matchesBound k id then endAdoption k c else toDraining k .adoptMismatch c
  | _ => c

/-- R9, R29: the interrogation failed. BLADE_SILENT is raised before the adoption ends (log 57). -/
def takeNoIdentity (k : Fin 16) (c : Chip) : Chip :=
  match (c.slot k).state with
  | .interrogating => toHeld k .noAnswer c
  | .adopting =>
    c |> modSlot k (fun s => { s with silence := 3, silent := true }) |> raise (.slot k) .bladeSilent |> endAdoption k
  | _ => c

/-- R10: the terms of a negotiation, once written, move the slot on by the admission mode. -/
def admitTerms (k : Fin 16) (c : Chip) : Chip :=
  enterState k (if c.settings.autoAdmission then .awaitingGrant else .awaitingAdmit) id c

/-- R52: a measured draw judged against a grant. -/
def judgeDraw (grant measured count : Nat) : Nat :=
  if measured ≤ grant then 0 else if measured * 10 ≤ grant * 11 then count else min 3 (count + 1)

/-- R52. -/
def takeDraw (k : Fin 16) (measured : Nat) (c : Chip) : Chip :=
  let old := (c.slot k).overdraw
  let new := judgeDraw (c.grant k).grant measured old
  let c := modSlot k (fun s => { s with overdraw := new }) c
  if old = 2 ∧ new = 3 then raise (.slot k) .overdraw c else c

/-- R50: an answered POLL. The fan controller reads the new margin right after last status and silence are written (log 56). -/
def takeStatus (k : Fin 16) (st : BladeStatus) (c : Chip) : Chip :=
  let c := c
    |> modSlot k (fun s => { s with lastStatus := some st, silence := 0, silent := false })
    |> fanOnStatus k
    |> takeDraw k st.measured
  let c := if st.fault = .degraded ∨ st.fault = .offline then raise (.slot k) .degraded c else c
  if st.halted ∧ (c.slot k).state = .draining then endDrain k c else c

/-- R51: a failed POLL. -/
def takeSilence (k : Fin 16) (c : Chip) : Chip :=
  let old := (c.slot k).silence
  let c := modSlot k (fun s => { s with silence := min 3 (s.silence + 1) }) c
  if old = 2 then
    c |> modSlot k (fun s => { s with silent := true }) |> raise (.slot k) .bladeSilent |> fanOnStatus k
  else c

/-! ## Warm restart (R28) -/

/-- R28: entry to POWERING_DOWN in the mapping; PWR_GOOD deasserted completes it in the mapping (log 23). -/
def Slot.restartDown (s : Slot) : Slot :=
  if s.powerGood then
    { s.enter .poweringDown with
      drainCause := none, outcome := some .interrogating, powerDownTimer := some Config.powerDownMs }
  else if s.latch.field then s.enter .interrogating
  else s.enter .seated

/-- Table 14. A slot that stays in HELD makes no entry to it: HELD is not raised again (log 45). -/
def Slot.restart (s : Slot) : Slot :=
  match s.state with
  | .running => { s.enter .adopting with adoptCause := none }
  | .draining => { s.enter .adopting with adoptCause := s.drainCause }
  | .adopting => { s.enter .adopting with adoptCause := s.adoptCause }
  | .powering | .starting => s.restartDown
  | .poweringDown =>
    { s.enter .poweringDown with outcome := s.outcome, powerDownTimer := some Config.powerDownMs }
  | .held => { s.enter .held with holdReason := s.holdReason }
  | .empty | .seated | .interrogating | .negotiating | .awaitingAdmit | .awaitingGrant =>
    if !(s.early.field && s.late.field) then (if s.state = .empty then s else s.enter .empty)
    else if s.latch.field then s.enter .interrogating
    else s.enter .seated

/-- R28, for every slot. -/
def restartSlots (c : Chip) : Chip := { c with slots := .gen fun k => (c.slot k).restart }

/-- R28: the slots that begin with an interrogation. -/
def restartInterrogations : Chip → Chip :=
  forEach (keys 16) fun k c =>
    if (c.slot k).state = .interrogating ∨ (c.slot k).state = .adopting then startInterrogation k c else c

end Sys2Proof.Machine
end

