-- ==== Sys2Proof/Machine/ModuleLink.lean ====
section
/-!
DEFINITION. The module link controller (section 3.7): bay presence, the read queue, reads and their outcomes.
-/

namespace Sys2Proof.Machine

/-- The location of a bay. -/
def Bay.location : Bay → Location
  | .supply b => .supply b
  | .fan f => .fan f

/-- The presence input of a bay. -/
def ModuleLink.bay (m : ModuleLink) : Bay → Debounced
  | .supply b => m.supplies.read b
  | .fan f => m.fans.read f

/-- The presence input of a bay replaced. -/
def ModuleLink.putBay (m : ModuleLink) (bay : Bay) (d : Debounced) : ModuleLink :=
  match bay with
  | .supply b => { m with supplies := m.supplies.put b d }
  | .fan f => { m with fans := m.fans.put f d }

/-- A change of the module link controller. -/
def modModules (f : ModuleLink → ModuleLink) (c : Chip) : Chip := setModules (f c.modules) c

/-! ## Reads (R67, R68) -/

/-- R67: an idle module link reads the bay at the head of its queue. -/
def ModuleLink.start (m : ModuleLink) : ModuleLink :=
  match m.reading, m.queue with
  | none, bay :: rest => if m.quiet then m else { m with reading := some (bay, false), queue := rest }
  | _, _ => m

/-- R67: a read of a bay is asked for. -/
def ModuleLink.ask (bay : Bay) (m : ModuleLink) : ModuleLink :=
  if !(m.bay bay).field || m.queue.contains bay || decide (m.reading.map Prod.fst = some bay) then m
  else { m with queue := m.queue ++ [bay] }.start

/-- R67. -/
def askRead (bay : Bay) : Chip → Chip := modModules (ModuleLink.ask bay)

/-- R68: the read in flight ends, with a quiet period when it failed or was abandoned. -/
def ModuleLink.endRead (failed : Bool) (m : ModuleLink) : ModuleLink :=
  { m with reading := none, quiet := m.quiet || failed }

/-- R69: the owner takes a failed read. -/
def ownerReadFailed (bay : Bay) (c : Chip) : Chip :=
  match bay with
  | .supply b => supplyReadFailed b c
  | .fan f => fanReadFailed f c

/-- R68, R69: the read fails. -/
def failRead (bay : Bay) (c : Chip) : Chip := c |> modModules (ModuleLink.endRead true) |> ownerReadFailed bay

/-- R69: the checks of an identity. -/
def ModuleIdentity.accepted (bay : Bay) (i : ModuleIdentity) (serialLength : Nat) : Bool :=
  decide (1 ≤ serialLength ∧ serialLength ≤ 24) && i.identity.serial.all printable &&
    (match bay with
    | .supply _ => decide (i.kind = 1) && decide (200 ≤ i.identity.capacity.getD 0 ∧ i.identity.capacity.getD 0 ≤ 4000)
    | .fan _ => decide (i.kind = 2) &&
        decide (1 ≤ i.identity.fanDraw.getD 0 ∧ i.identity.fanDraw.getD 0 ≤ 500 ∧
          1000 ≤ i.identity.fanSpeed.getD 0 ∧ i.identity.fanSpeed.getD 0 ≤ 30000 ∧
          1 ≤ i.identity.fanPulses.getD 0 ∧ i.identity.fanPulses.getD 0 ≤ 4))

/-- R61, R70: the handle an offer's answer gives. -/
def OfferAnswer.handle : OfferAnswer → Option InvRef
  | .bound r | .revived r | .created r => some r
  | .duplicate | .full => none

/-- R70 step 2: the owner takes the identity. -/
def ownerIdentity (bay : Bay) (id : Identity) (handle : Option InvRef) (c : Chip) : Chip :=
  match bay with
  | .supply b => supplyIdentity b (id.capacity.getD 0) handle c
  | .fan f => fanIdentity f handle (id.fanDraw.getD 0) (id.fanSpeed.getD 0) (id.fanPulses.getD 0) c

/-- R70. -/
def handOn (bay : Bay) (id : Identity) (c : Chip) : Chip :=
  let (c, a) := offer (Bay.location bay) id c
  ownerIdentity bay id a.handle c

/-- R69, R70: a response with a good check byte. A response of another length than the bay's fails the read (log 24). -/
def takeResponse (bay : Bay) (m : List Byte) (c : Chip) : Chip :=
  let i := readModule bay m
  if m.length = Bay.responseLength bay ∧ i.accepted bay (numberAt m 6 1) then
    c |> modModules (ModuleLink.endRead false) |> handOn bay i.identity
  else failRead bay c

/-- R68: the expiry of the response timer. -/
def readExpired (bay : Bay) (second : Bool) (c : Chip) : Chip :=
  if second then failRead bay c else modModules (fun m => { m with reading := some (bay, true) }) c

/-! ## The events of the module link -/

/-- R68: a response is received; with no read in flight it is discarded. -/
def moduleAnswered (message : List Byte) (c : Chip) : Chip :=
  match c.modules.reading with
  | none => c
  | some (bay, second) =>
    c |> (if checkPasses message then takeResponse bay message else readExpired bay second)
      |> modModules ModuleLink.start

/-- R68. -/
def moduleTimedOut (c : Chip) : Chip :=
  match c.modules.reading with
  | none => c
  | some (bay, second) => c |> readExpired bay second |> modModules ModuleLink.start

/-- R68: the quiet period ends. -/
def moduleQuietEnded (c : Chip) : Chip :=
  if c.modules.quiet then modModules (fun m => { m with quiet := false }.start) c else c

/-- R66: an edge on a presence input (log 26). -/
def moduleEdge (bay : Bay) (level : Bool) : Chip → Chip :=
  modModules fun m => m.putBay bay { m.bay bay with pin := level, timer := true }

/-- R66: an arrival. -/
def moduleArrival (bay : Bay) (c : Chip) : Chip :=
  let c := match bay with
    | .supply b => supplyArrival b c
    | .fan f => fanArrival f c
  askRead bay c

/-- R66, R71: a removal drops the bay's entry and ends its read. -/
def ModuleLink.drop (bay : Bay) (m : ModuleLink) : ModuleLink :=
  let m := { m with queue := m.queue.filter fun b => decide (b ≠ bay) }
  if m.reading.map Prod.fst = some bay then m.endRead true else m

/-- R66: a removal. -/
def moduleRemoval (bay : Bay) (c : Chip) : Chip :=
  let c := match bay with
    | .supply b => supplyRemoval b c
    | .fan f => fanRemoval f c
  c |> modModules (ModuleLink.drop bay) |> vacate (Bay.location bay)

/-- R66: the expiry of a presence debounce timer. -/
def moduleDebounced (bay : Bay) (c : Chip) : Chip :=
  let d := c.modules.bay bay
  if d.timer then
    let c := modModules (fun m => m.putBay bay d.expire) c
    if d.pin = d.field then c else if d.pin then moduleArrival bay c else moduleRemoval bay c
  else c

/-! ## RETRY_SUPPLY (R81) -/

/-- R81: a FAILED supply identifies again, or starts again, by its fail reason. -/
def retrySupply (b : Fin 6) (c : Chip) : Chip × Status :=
  if (c.supply b).state = .failed then
    if (c.supply b).failReason = some .unread then
      (c |> modSupply b (fun p => { p with state := .identifying, failReason := none }) |> askRead (.supply b), .ok)
    else (startSupply b c, .ok)
  else (c, .state)

/-! ## Warm restart (R72) -/

/-- R72: the bays whose records are in IDENTIFYING. -/
def Chip.identifyingBays (c : Chip) : List Bay :=
  ((keys 6).filter fun b => decide ((c.supply b).state = .identifying)).map Bay.supply ++
    ((keys 8).filter fun f => decide ((c.fan f).state = .identifying)).map Bay.fan

/-- R72. A quiet period that runs at the restart ends with it, so the first bay is read at once (log 46). -/
def restartModules (c : Chip) : Chip :=
  c |> modModules (fun m => { m with queue := [], reading := none, quiet := false })
    |> (fun c => forEach c.identifyingBays askRead c)

end Sys2Proof.Machine
end

