-- ==== Sys2Proof/Machine/SlotLink.lean ====
section
/-!
DEFINITION. What a received page, a timeout and the end of the quiet period do at a slot link engine (chapter 2).
-/

namespace Sys2Proof.Machine

/-! ## Ends of a phase -/

/-- R37, R38, R41, R44: the phase ends. -/
def endPhase (k : Fin 16) : Chip → Chip := modEngine k fun e => { e with phase := .idle, draft := none }

/-- R38: the interrogation failed. -/
def failInterrogation (k : Fin 16) (c : Chip) : Chip := c |> endPhase k |> takeNoIdentity k

/-- R41, R54: the negotiation or renegotiation failed. -/
def failNegotiation (k : Fin 16) (reason : HoldReason) (c : Chip) : Chip :=
  let phase := (c.engine k).phase
  let c := endPhase k c
  match phase, (c.slot k).state with
  | .negotiation, .negotiating => toHeld k reason c
  | .renegotiation, .running => raise (.slot k) .degraded c
  | _, _ => c

/-- R45 step 4, R46: the settlement failed. -/
def failSettlement (k : Fin 16) (c : Chip) : Chip :=
  let c := c |> modEngine k (fun e => { e with settlement := none }) |> post (.settlementReport k .failed)
  if (c.slot k).state = .running then raise (.slot k) .degraded c else c

/-- R33: a failed exchange is reported to the block that asked for it. -/
def exchangeFailed (k : Fin 16) (request : PageRequest) (reason : HoldReason) (c : Chip) : Chip :=
  match request with
  | .interrogate => failInterrogation k c
  | .negotiate => failNegotiation k reason c
  | .next => if (c.engine k).phase = .interrogation then failInterrogation k c else failNegotiation k reason c
  | .grant _ _ | .channelGrant _ _ => failSettlement k c
  | .cap _ => post (.capOutcome k .failed) c
  | .uncap _ => post (.uncapOutcome k .failed) c
  | .shutdown => c
  | .poll => takeSilence k c

/-! ## Interrogation (R37, R38) -/

/-- Table 19, R39: a page that answers an exchange of a phase is counted, whatever it goes on to do. -/
def answerPhase (k : Fin 16) (c : Chip) : Chip :=
  c |> endExchange k false |> modEngine k (fun e => { e with responses := e.responses + 1 })

/-- R37, R40: a draft waits for the page that NEXT brings with the flipped toggle. -/
def gather (k : Fin 16) (d : Draft) : Chip → Chip :=
  modEngine k fun e => { e with draft := some d, toggle := !e.toggle }

/-- R37: the interrogation ends with the identity. -/
def endInterrogation (k : Fin 16) (vendor model : BitVec 16) (revision : Byte) (serial : List Byte) (c : Chip) : Chip :=
  c |> endPhase k
    |> takeIdentity k {
        vendor := vendor, model := model, revision := revision, serial := serial,
        capacity := none, fanDraw := none, fanSpeed := none, fanPulses := none }

/-- R38: the checks of a first IDENTITY page. -/
def IdentityHead.accepted (h : IdentityHead) (more : Bool) : Bool :=
  decide (1 ≤ h.serialLength ∧ h.serialLength ≤ 24) && more == decide (12 < h.serialLength) && h.chars.all printable

/-- R37, R38: a first IDENTITY page. -/
def takeFirstIdentity (k : Fin 16) (p : Page) (h : IdentityHead) (c : Chip) : Chip :=
  if !h.accepted p.more then failInterrogation k c
  else if p.more then gather k (.identity h.vendor h.model h.revision h.serialLength h.chars) c
  else endInterrogation k h.vendor h.model h.revision h.chars c

/-- R32: a phase's response of an unexpected kind or toggle fails the exchange with no resend. -/
def rejectPage (k : Fin 16) (request : PageRequest) (reason : HoldReason) (c : Chip) : Chip :=
  c |> endExchange k true |> exchangeFailed k request reason

/-- R38, R41, R47: a page with fault DEGRADED raises DEGRADED, before the page is acted on (log 57). -/
def raiseDegraded (k : Fin 16) (f : FaultCode) (c : Chip) : Chip := if f = .degraded then raise (.slot k) .degraded c else c

/-- R37, R38: a page taken against an exchange of the interrogation. Fault DEGRADED is raised for an IDENTITY page of the form
expected, and not for a page that fails the exchange by its kind or length (log 62). -/
def interrogationPage (k : Fin 16) (x : Exchange) (p : Page) (c : Chip) : Chip :=
  match (c.engine k).draft with
  | some (.identity vendor model revision length chars) =>
    match p.identitySecond length with
    | none => rejectPage k x.request .noAnswer c
    | some more =>
      let c := raiseDegraded k p.fault c
      if p.toggle ≠ x.toggle then rejectPage k x.request .noAnswer c
      else
        let c := answerPhase k c
        if p.more || !more.all printable then failInterrogation k c
        else endInterrogation k vendor model revision (chars ++ more) c
  | _ =>
    match p.identityFirst with
    | none => rejectPage k x.request .noAnswer c
    | some h =>
      let c := raiseDegraded k p.fault c
      if p.toggle ≠ x.toggle then rejectPage k x.request .noAnswer c
      else c |> answerPhase k |> takeFirstIdentity k p h

/-! ## Negotiation (R39 to R44, R54) -/

/-- R39: a draw in W, in steps of 5. -/
def drawInRange (w : Nat) : Bool := decide (5 ≤ w ∧ w ≤ 2000 ∧ w % 5 = 0)

/-- R39: the values of a BASE page. -/
def baseInRange (run floor priority count : Nat) : Bool :=
  drawInRange run && (decide (floor = 0) || drawInRange floor) && decide (priority ≤ 7 ∧ count ≤ 2)

/-- R43: the window size of a channel. -/
def Channel.windowSize (ch : Channel) : Nat := ch.limit - ch.base + 1

/-- R43: the candidate with the lowest window base that is large enough and not yet taken. -/
def Chip.bestCandidate (c : Chip) (k : Fin 16) (taken : List (Fin 32)) (request : Nat) : Option (Fin 32) :=
  (keys 32).foldl (fun best h =>
    match c.channel h with
    | none => best
    | some ch =>
      if ch.slot = k ∧ request ≤ ch.windowSize ∧ h ∉ taken then
        match best.bind c.channel with
        | some b => if ch.base < b.base then some h else best
        | none => some h
      else best) none

/-- R43: the match of channel requests in page order. -/
def Chip.matchRequests (c : Chip) (k : Fin 16) : List Nat → List (Fin 32) → List (Fin 32)
  | [], taken => taken
  | r :: rest, taken =>
    match c.bestCandidate k taken r with
    | some h => c.matchRequests k rest (taken ++ [h])
    | none => c.matchRequests k rest taken

/-- R42: resolution, but for matching: the reason it fails for. -/
def Chip.resolutionFailure (c : Chip) (run floor : Nat) : Option HoldReason :=
  if run < floor then some .negError
  else if c.settings.slotCeiling < run then some .budgetMismatch
  else none

/-- R44, R54: a successful resolution hands its results on. CHANNEL_SHORT is raised before the slot moves on or its grant is
settled (log 57). -/
def resolved (k : Fin 16) (run floor priority : Nat) (requests : List Nat) (c : Chip) : Chip :=
  let phase := (c.engine k).phase
  let handles := c.matchRequests k requests []
  let short := decide (handles.length < requests.length)
  let terms : Terms :=
    { runDraw := run, floorDraw := floor, priority := priority, requests := requests, short := short }
  let written (c : Chip) : Chip := c
    |> modSlot k (fun s => { s with terms := some terms })
    |> post (.matchHandoff k handles)
    |> (fun c => if short then raise (.slot k) .channelShort c else c)
  let c := endPhase k c
  match phase, (c.slot k).state with
  | .negotiation, .negotiating => c |> written |> admitTerms k
  | .renegotiation, .running => c |> written |> settleTerms k
  | _, _ => c

/-- R42. -/
def resolve (k : Fin 16) (run floor priority : Nat) (requests : List Nat) (c : Chip) : Chip :=
  match c.resolutionFailure run floor with
  | some reason => failNegotiation k reason c
  | none => resolved k run floor priority requests c

/-- R40, R41: the terms draft after a page: another NEXT, a failure, or resolution. -/
def continueTerms (k : Fin 16) (more : Bool) (run floor priority count : Nat) (requests : List Nat) (c : Chip) : Chip :=
  if count < requests.length then failNegotiation k .negError c
  else if more then
    (if 8 ≤ (c.engine k).responses then failNegotiation k .negError c
    else gather k (.terms run floor priority count requests) c)
  else if requests.length = count then resolve k run floor priority requests c
  else failNegotiation k .negError c

/-- R39 to R41: the terms a page carries, if it is of the expected kind: the draft with it and whether its values are in
range. -/
def termsOf (draft : Option Draft) (p : Page) : Option (Bool × Nat × Nat × Nat × Nat × List Nat) :=
  match draft with
  | some (.terms run floor priority count requests) =>
    p.channelReq.map fun size => (decide (1 ≤ size ∧ size ≤ 256), run, floor, priority, count, requests ++ [size])
  | _ =>
    p.base.map fun (run, floor, priority, count) =>
      (baseInRange run floor priority count, run, floor, priority, count, [])

/-- R41: what a page's own fault makes of a failure. -/
def Page.failReason (p : Page) : HoldReason := if p.fault = .offline then .bladeOffline else .negError

/-- R39 to R41: a page taken against an exchange of a negotiation or renegotiation. Table 21 judges the fault of any response,
one of an unexpected kind too. -/
def negotiationPage (k : Fin 16) (x : Exchange) (p : Page) (c : Chip) : Chip :=
  let c := raiseDegraded k p.fault c
  match termsOf (c.engine k).draft p with
  | none => rejectPage k x.request p.failReason c
  | some (good, run, floor, priority, count, requests) =>
    if p.toggle ≠ x.toggle then rejectPage k x.request p.failReason c
    else
      let c := answerPhase k c
      if p.fault = .offline ∨ p.fault = .refused ∨ !good then failNegotiation k p.failReason c
      else continueTerms k p.more run floor priority count requests c

/-! ## List exchanges (R45 to R50) -/

/-- R47: an ACK_PAGE is accepted. -/
def Page.accepts (p : Page) : Bool := p.ack && decide (p.fault = .none ∨ p.fault = .degraded)

/-- R45 to R49: a judged ACK_PAGE exchange. -/
def takeAck (k : Fin 16) (request : PageRequest) (accepted : Bool) (c : Chip) : Chip :=
  match request with
  | .grant _ _ | .channelGrant _ _ => if accepted then c else failSettlement k c
  | .cap _ => post (.capOutcome k (if accepted then .accepted else .refused)) c
  | .uncap _ => post (.uncapOutcome k (if accepted then .accepted else .refused)) c
  | .interrogate | .negotiate | .next | .shutdown | .poll => c

/-- R32, R47: a page taken against an ACK_PAGE exchange. The fault of a page of another kind is not acted on (log 62). -/
def ackPage (k : Fin 16) (x : Exchange) (p : Page) (c : Chip) : Chip :=
  if p.isAck then c |> endExchange k false |> raiseDegraded k p.fault |> takeAck k x.request p.accepts
  else rejectPage k x.request .noAnswer c

/-- R32, R50: a page taken against a POLL. The fault of a page of another kind is not acted on (log 62). -/
def statusPage (k : Fin 16) (x : Exchange) (p : Page) (c : Chip) : Chip :=
  match p.status c.statusPages with
  | some st => c |> setStatusPages (c.statusPages + 1) |> endExchange k false |> takeStatus k st
  | none => rejectPage k x.request .noAnswer c

/-- R32: a page with a good check byte is taken against the exchange in flight. -/
def takePage (k : Fin 16) (x : Exchange) (p : Page) (c : Chip) : Chip :=
  match x.request with
  | .interrogate => interrogationPage k x p c
  | .negotiate => negotiationPage k x p c
  | .next => if (c.engine k).phase = .interrogation then interrogationPage k x p c else negotiationPage k x p c
  | .grant _ _ | .channelGrant _ _ | .cap _ | .uncap _ | .shutdown => ackPage k x p c
  | .poll => statusPage k x p c

/-- R31: the expiry of the response timer. -/
def takeTimeout (k : Fin 16) (x : Exchange) (c : Chip) : Chip :=
  if x.second then c |> endExchange k true |> exchangeFailed k x.request .noAnswer
  else modEngine k (fun e => { e with inFlight := some { x with second := true } }) c

/-! ## The three events of a link -/

/-- R31, R32: a page is received; with no exchange in flight it is discarded. -/
def slotPage (k : Fin 16) (page : List Byte) (c : Chip) : Chip :=
  match (c.engine k).inFlight with
  | none => c
  | some x => c |> (if checkPasses page then takePage k x (readPage page) else takeTimeout k x) |> arbitrate k

/-- R31. -/
def slotTimeout (k : Fin 16) (c : Chip) : Chip :=
  match (c.engine k).inFlight with
  | none => c
  | some x => c |> takeTimeout k x |> arbitrate k

/-- R33: the quiet period ends. -/
def slotQuietEnded (k : Fin 16) (c : Chip) : Chip :=
  if (c.engine k).quiet then c |> modEngine k (fun e => { e with quiet := false }) |> arbitrate k else c

end Sys2Proof.Machine
end

