-- ==== Sys2Proof/Machine/Restart.lean ====
section
/-!
DEFINITION. Cold reset and warm restart: what every block does, in one event (R1, R28, R30, R84, R115, R138, R165, R184).
-/

namespace Sys2Proof.Machine

/-- The levels on the input pins now. -/
def Chip.levels (c : Chip) : InputLevels :=
  { early := .gen fun k => (c.slot k).early.pin, late := .gen fun k => (c.slot k).late.pin,
    latch := .gen fun k => (c.slot k).latch.pin, powerGood := .gen fun k => (c.slot k).powerGood,
    psuPresent := .gen fun b => (c.modules.supplies.read b).pin,
    psuPowerGood := .gen fun b => (c.supply b).powerGood,
    fanPresent := .gen fun f => (c.modules.fans.read f).pin,
    link := .gen fun u => (c.uplink u).link }

/-- R1 and the reset rule of each block: everything at its cold reset value, on the levels the inputs have. -/
def coldReset (c : Chip) : Chip := setStatusPages c.statusPages (Chip.reset c.levels)

/-- R184 steps 1 to 3. What blocks had posted to each other is dropped (log 22). -/
def restartPort (c : Chip) : Chip :=
  c |> setPort { c.port with request := none, response := none, overrun := false, restartWaiting := false, alerts := [] }
    |> setMessages []
    |> raise .chassis .restarted

/-- R30: every engine as after cold reset. -/
def restartEngines (c : Chip) : Chip := { c with engines := .fill 16 .reset }

/-- R84: a supply in STARTING starts its delay afresh. -/
def restartSupplies : Chip → Chip :=
  forEach (keys 6) fun b => modSupply b fun p => if p.state = .starting then { p with startDelay := true } else p

/-- R184: the warm restart. R115 asks that the power unit acts after the slots' mapping and the supplies; R138 that the fan
controller follows it. -/
def warmRestart (c : Chip) : Chip :=
  c |> restartPort
    |> restartEngines
    |> restartSlots
    |> restartHub
    |> restartSupplies
    |> restartModules
    |> restartPower
    |> restartFans
    |> restartInterrogations

end Sys2Proof.Machine
end

