-- ==== Sys2Proof/Machine/Port.lean ====
section
/-!
DEFINITION. The request port (section 10.1 and 10.2): transfers, decoding's answers, and the taking of a request by its
owner.
-/

namespace Sys2Proof.Machine

/-! ## Responses (Table 72) -/

/-- R192: status codes are 0 to 10. -/
def Status.code : Status → Nat
  | .ok => 0 | .badCheck => 1 | .badForm => 2 | .noRecord => 3 | .stale => 4 | .state => 5 | .busy => 6 | .range => 7
  | .overlap => 8 | .full => 9 | .invalid => 10

/-- R192: verbs are 1 to 6. -/
def verbCode : Verb → Nat
  | .fetch => 1 | .amend => 2 | .define => 3 | .retire => 4 | .order => 5 | .ack => 6

/-- R192: tables are 1 to 11. -/
def tableCode : TableId → Nat
  | .slot => 1 | .inventory => 2 | .supply => 3 | .power => 4 | .zone => 5 | .fan => 6 | .channel => 7 | .uplink => 8
  | .lane => 9 | .settings => 10 | .alert => 11

/-- Table 24 field 3. -/
def kindCode : UnitKind → Nat
  | .blade => 0 | .supply => 1 | .fan => 2

/-- R193: a location in two bytes. -/
def locationBytes : Location → List Byte
  | .slot k => [0, BitVec.ofNat 8 k.val]
  | .supply b => [1, BitVec.ofNat 8 b.val]
  | .fan f => [2, BitVec.ofNat 8 f.val]

/-- R193: an alert object in two bytes. -/
def objectBytes : AlertObject → List Byte
  | .slot k => [0, BitVec.ofNat 8 k.val]
  | .supply b => [1, BitVec.ofNat 8 b.val]
  | .fan f => [2, BitVec.ofNat 8 f.val]
  | .zone z => [3, BitVec.ofNat 8 z.val]
  | .channel h => [4, BitVec.ofNat 8 h.val]
  | .uplink u => [5, BitVec.ofNat 8 u.val]
  | .chassis => [6, 0]

/-- R193: a key with its form. -/
def keyBytes : Key → List Byte
  | .record n => [0, BitVec.ofNat 8 n]
  | .inv (.handle h g) => [1, BitVec.ofNat 8 h.val, g]
  | .inv (.location l) => 2 :: locationBytes l
  | .inv (.serial kind chars) => [3, BitVec.ofNat 8 (kindCode kind), BitVec.ofNat 8 chars.length] ++ chars
  | .inv .epoch => [4]
  | .alert .index => [5]
  | .alert (.object o) => 6 :: objectBytes o
  | .noKey => [7]

/-- Table 72: a response message. -/
def responseMessage (status : Status) (verb table : Byte) (key result : List Byte) : List Byte :=
  let body := [BitVec.ofNat 8 status.code, verb, table] ++ key ++ result
  withCheck (byte2 (body.length + 1) ++ body)

/-! ## Requests as their owners see them -/

/-- The verb, table and key of a request row; other rows are no requests. -/
def requestHeader : Instr → Option (Verb × TableId × Key)
  | .unacceptedVerb verb table key => some (verb, table, key)
  | .fetchSlot k => some (.fetch, .slot, .record k.val)
  | .fetchInventory key => some (.fetch, .inventory, .inv key)
  | .fetchSupply b => some (.fetch, .supply, .record b.val)
  | .fetchPower => some (.fetch, .power, .record 0)
  | .fetchZone z => some (.fetch, .zone, .record z.val)
  | .fetchFan f => some (.fetch, .fan, .record f.val)
  | .fetchChannel h => some (.fetch, .channel, .record h.val)
  | .fetchUplink u => some (.fetch, .uplink, .record u.val)
  | .fetchLane k => some (.fetch, .lane, .record k.val)
  | .fetchSettings => some (.fetch, .settings, .record 0)
  | .fetchAlert key => some (.fetch, .alert, .alert key)
  | .amendSlot k _ => some (.amend, .slot, .record k.val)
  | .amendInventory key _ => some (.amend, .inventory, .inv key)
  | .amendZone z _ => some (.amend, .zone, .record z.val)
  | .amendChannel h _ => some (.amend, .channel, .record h.val)
  | .amendSettings _ => some (.amend, .settings, .record 0)
  | .defineChannel _ => some (.define, .channel, .noKey)
  | .retireInventory key => some (.retire, .inventory, .inv key)
  | .retireChannel h => some (.retire, .channel, .record h.val)
  | .ack o _ => some (.ack, .alert, .alert (.object o))
  | .orderAdmit k | .orderReadmit k | .orderEvict k | .orderForceOff k | .orderRenegotiate k | .orderCap k
  | .orderUncap k => some (.order, .slot, .record k.val)
  | .orderRetrySupply b => some (.order, .supply, .record b.val)
  | .orderCommitCurve z => some (.order, .zone, .record z.val)
  | .orderPin f _ | .orderUnpin f | .orderRetryFan f => some (.order, .fan, .record f.val)
  | .orderPass h | .orderHold h | .orderBar h | .orderFlush h => some (.order, .channel, .record h.val)
  | .orderEnable u | .orderDisable u => some (.order, .uplink, .record u.val)
  | .orderRestart => some (.order, .settings, .record 0)
  | _ => none

/-! ## The messages a host sends (Table 72) -/

/-- R192: a field item. -/
def itemBytes (i : Item) : List Byte :=
  match i.value with
  | some v => [BitVec.ofNat 8 i.field, BitVec.ofNat 8 v.length] ++ v
  | none => [BitVec.ofNat 8 i.field, 255]

/-- R192, R193: the operands of a request row. -/
def operandBytes : Instr → List Byte
  | .amendSlot _ items | .amendInventory _ items | .amendZone _ items | .amendChannel _ items | .amendSettings items
  | .defineChannel items => items.flatMap itemBytes
  | .ack _ causes => byte2 causes.toNat
  | .orderAdmit _ | .orderRetrySupply _ | .orderCommitCurve _ | .orderPass _ | .orderEnable _ | .orderRestart => [0]
  | .orderReadmit _ | .orderUnpin _ | .orderHold _ | .orderDisable _ => [1]
  | .orderEvict _ | .orderRetryFan _ | .orderBar _ => [2]
  | .orderForceOff _ | .orderFlush _ => [3]
  | .orderRenegotiate _ => [4]
  | .orderCap _ => [5]
  | .orderUncap _ => [6]
  | .orderPin _ band => [0, BitVec.ofNat 8 band]
  | _ => []

/-- Table 72: the request message of a row, with which a host asks for it. -/
def requestMessage (i : Instr) : List Byte :=
  match requestHeader i with
  | some (verb, table, key) =>
    let body := [BitVec.ofNat 8 (verbCode verb), BitVec.ofNat 8 (tableCode table)] ++ keyBytes key ++ operandBytes i
    withCheck (byte2 (body.length + 1) ++ body)
  | none => []

/-- R182, R193: the response to a request of a row: with its key, but key form 255 and no key in a BAD_CHECK or BAD_FORM. -/
def answerMessage (i : Instr) (a : Answer) : List Byte :=
  match requestHeader i with
  | some (verb, table, key) =>
    responseMessage a.status (BitVec.ofNat 8 (verbCode verb)) (BitVec.ofNat 8 (tableCode table))
      (if a.status = .badCheck ∨ a.status = .badForm then [255] else keyBytes key) a.result
  | none => []

/-- A change of the port. -/
def modPort (f : Port → Port) (c : Chip) : Chip := setPort (f c.port) c

/-- An answer that carries its status alone (R182, "Any other"). -/
def Status.alone (s : Status) : Answer := { status := s, result := [] }

/-- R56: the answer of a key that resolves to nothing. A STALE answer says in use as 1 and free as 0 (log 18). -/
def Resolved.refusal : Resolved → Answer
  | .found _ _ => Status.alone .ok
  | .stale generation inUse => { status := .stale, result := generation :: flagByte inUse }
  | .noRecord => Status.alone .noRecord

/-- R181, R182: the event that writes the answer. -/
def writeAnswer (i : Instr) (r : Chip × Answer) : Chip :=
  modPort (fun p => { p with request := none, response := some (answerMessage i r.2) }) r.1

/-- R181: the owner takes the request PENDING in the port. A row that comes while both slots are EMPTY is taken as the
request put and taken at once; one that finds a slot in use is discarded as R180 discards (log 3). -/
def takeRequest (i : Instr) (owner : Chip → Chip × Answer) (c : Chip) : Chip :=
  if c.port.request = some i then writeAnswer i (owner c)
  else if c.port.request = none ∧ c.port.response = none then
    writeAnswer i (owner (modPort (fun p => { p with overrun := false }) c))
  else modPort (fun p => { p with overrun := true }) c

/-! ## Decoding (R181) -/

/-- Table 67 step 4: the answer of a key that names no record. -/
def Chip.keyRefusal (c : Chip) (table : Byte) (key : Key) : Option Answer :=
  match key with
  | .inv .epoch => none
  | .inv k => match c.resolve k with
    | .found _ _ => none
    | r => some r.refusal
  | .record n =>
    if table = 7 then
      (match keyBelow 32 n with
      | some h => if (c.channel h).isNone then some (Status.alone .noRecord) else none
      | none => none)
    else none
  | .alert _ | .noKey => none

/-- R191, R193: what decoding does with an accepted message: an answer at steps 1 to 4, or a request PENDING. -/
def decodePut (m : List Byte) (c : Chip) : Chip :=
  let ready (bytes : List Byte) : Chip := modPort (fun p => { p with response := some bytes }) c
  match decodeRequest m with
  | .bad status verb table => ready (responseMessage status verb table [255] [])
  | .outOfRange verb table raw => ready (responseMessage .range verb table (raw.form :: raw.bytes) [])
  | .request verb table key i =>
    match c.keyRefusal table key with
    | some a => ready (responseMessage a.status verb table (keyBytes key) a.result)
    | none => modPort (fun p => { p with request := some i }) c

/-! ## Transfers (Table 65) -/

/-- What a transfer of the port carries on SPI_MISO: the status byte as it stands at the first byte, then the rest
(log 31). -/
def returning (rest : List Byte) (c : Chip) : Chip := modPort (fun p => { p with returned := c.statusByte :: rest }) c

/-- R180: a PUT_REQUEST, its message cut to the 256 bytes the request slot holds (R193). -/
def putMessage (message : List Byte) (c : Chip) : Chip :=
  let c := returning (List.replicate message.length 0) c
  if c.port.request = none ∧ c.port.response = none then
    c |> modPort (fun p => { p with overrun := false }) |> decodePut (message.take 256)
  else modPort (fun p => { p with overrun := true }) c

/-- R182, R184: a GET_RESPONSE that clocks so many bytes behind the status byte. -/
def getMessage (clocked : Nat) (c : Chip) : Chip :=
  let held := c.port.response.getD []
  let c := returning ((held ++ List.replicate clocked 0).take clocked) c
  if c.port.response.isSome ∧ held.length ≤ clocked then
    let c := modPort (fun p => { p with response := none }) c
    if c.port.restartWaiting then warmRestart c else c
  else c

end Sys2Proof.Machine
end

