-- ==== Sys2Proof/Machine/Events.lean ====
section
/-!
DEFINITION. The meanings of COLD_RESET, the slot input and slot timer commands, and the frame every meaning runs in.
-/

namespace Sys2Proof.Machine

/-- What a meaning of this part answers. -/
abbrev Result := Host.Outcome State Fault Refusal

/-- A command is taken: its event on the chip, then the queue service due at the event's end (R97, log 7). No command stops
the part, and none touches the queue of commands waiting. -/
def taken (event : Chip → Chip) (s : State) : Result := .next { s with chip := queueService (event s.chip) }

/-- COLD_RESET (R1): RESET_N falls, and every block takes its cold reset values on the levels the inputs have. -/
def execColdReset (s : State) : Result := taken coldReset s

/-- SLOT_INPUT_EDGE (R4). -/
def execSlotInputEdge (k : Fin 16) (input : SlotInput) (level : Bool) (s : State) : Result :=
  taken (slotEdge k input level) s

/-- The input of a contact. -/
def contactInput : Contact → SlotInput
  | .early => .early | .late => .late

/-- CONTACT_DEBOUNCE_EXPIRY (R4, R8, R22, R23). -/
def execContactDebounceExpiry (k : Fin 16) (contact : Contact) (s : State) : Result :=
  taken (slotDebounced k (contactInput contact) (contactMade k) (contactLost k)) s

/-- LATCH_DEBOUNCE_EXPIRY (R4, R8, R16, R20, R21). -/
def execLatchDebounceExpiry (k : Fin 16) (s : State) : Result :=
  taken (slotDebounced k .latch (latchClosed k) (latchOpened k)) s

/-- PWR_GOOD_CHANGE (R5). -/
def execPwrGoodChange (k : Fin 16) (level : Bool) (s : State) : Result := taken (pwrGoodChanged k level) s

/-- R13, log 40: the assertion of PWR_GOOD arrives together with the command being taken when it is the next one waiting. -/
def State.goodArrives (s : State) (k : Fin 16) : Bool := decide (s.pending.head? = some (.pwrGoodChange k true))

/-- POWER_UP_DELAY_EXPIRY (R13). -/
def execPowerUpDelayExpiry (k : Fin 16) (s : State) : Result := taken (powerUpExpired k (s.goodArrives k)) s

/-- RESET_HOLD_EXPIRY (R14). -/
def execResetHoldExpiry (k : Fin 16) (s : State) : Result := taken (resetHoldExpired k) s

/-- POLL_TIMER_EXPIRY (R15). -/
def execPollTimerExpiry (k : Fin 16) (s : State) : Result := taken (pollExpired k) s

/-- DRAIN_TIMER_EXPIRY (R17). -/
def execDrainTimerExpiry (k : Fin 16) (s : State) : Result := taken (drainExpired k) s

/-- POWER_DOWN_TIMER_EXPIRY (R19). -/
def execPowerDownTimerExpiry (k : Fin 16) (s : State) : Result := taken (powerDownExpired k) s

end Sys2Proof.Machine
end

