-- ==== Sys2Proof/Machine/Links.lean ====
section
/-!
DEFINITION. The meanings of the slot link, module link and supply commands.
-/

namespace Sys2Proof.Machine

/-- SLOT_PAGE_RECEIVED (R31, R32). -/
def execSlotPageReceived (k : Fin 16) (page : List Byte) (s : State) : Result := taken (slotPage k page) s

/-- SLOT_RESPONSE_TIMEOUT (R31). -/
def execSlotResponseTimeout (k : Fin 16) (s : State) : Result := taken (slotTimeout k) s

/-- SLOT_QUIET_END (R33). -/
def execSlotQuietEnd (k : Fin 16) (s : State) : Result := taken (slotQuietEnded k) s

/-- MODULE_PRESENCE_EDGE (R66). -/
def execModulePresenceEdge (bay : Bay) (level : Bool) (s : State) : Result := taken (moduleEdge bay level) s

/-- MODULE_PRESENCE_DEBOUNCE_EXPIRY (R66). -/
def execModulePresenceDebounceExpiry (bay : Bay) (s : State) : Result := taken (moduleDebounced bay) s

/-- MODULE_RESPONSE (R68 to R70). -/
def execModuleResponse (message : List Byte) (s : State) : Result := taken (moduleAnswered message) s

/-- MODULE_RESPONSE_TIMEOUT (R68). -/
def execModuleResponseTimeout (s : State) : Result := taken moduleTimedOut s

/-- MODULE_QUIET_END (R68). -/
def execModuleQuietEnd (s : State) : Result := taken moduleQuietEnded s

/-- PSU_PG_CHANGE (R80). -/
def execPsuPgChange (b : Fin 6) (level : Bool) (s : State) : Result := taken (psuPgChanged b level) s

/-- R78: the start delay of a supply in STARTING expires. -/
def startDelayExpired (b : Fin 6) (c : Chip) : Chip :=
  if (c.supply b).state = .starting ∧ (c.supply b).startDelay then failSupply b .noOutput c else c

/-- SUPPLY_START_DELAY_EXPIRY (R78). -/
def execSupplyStartDelayExpiry (b : Fin 6) (s : State) : Result := taken (startDelayExpired b) s

end Sys2Proof.Machine
end

