-- ==== Sys2Proof/Machine/Fetches.lean ====
section
/-!
DEFINITION. The records as FETCH returns them, field by field (R182, R192), and the meanings of the FETCH commands.
-/

namespace Sys2Proof.Machine

/-! ## Field items (R192) -/

/-- A field with its value. -/
def item (field : Nat) (value : List Byte) : List Byte := byte1 field ++ byte1 value.length ++ value

/-- An optional field: absent is n = 255. -/
def optItem (field : Nat) (value : Option (List Byte)) : List Byte :=
  match value with
  | some v => item field v
  | none => byte1 field ++ byte1 255

/-- An inventory handle with its generation. -/
def InvRef.bytes (r : InvRef) : List Byte := byte1 r.handle.val ++ [r.generation]

/-! ## Named values, coded by their place in the list of the defining table -/

def SlotState.code : SlotState → Nat
  | .empty => 0 | .seated => 1 | .interrogating => 2 | .negotiating => 3 | .awaitingAdmit => 4 | .awaitingGrant => 5
  | .powering => 6 | .starting => 7 | .running => 8 | .draining => 9 | .poweringDown => 10 | .held => 11 | .adopting => 12

def HoldReason.code : HoldReason → Nat
  | .evicted => 0 | .forced => 1 | .shed => 2 | .thermal => 3 | .powerFault => 4 | .noAnswer => 5 | .negError => 6
  | .bladeOffline => 7 | .budgetMismatch => 8 | .inventoryFull => 9 | .duplicateIdentity => 10 | .adoptMismatch => 11

def DrainCause.code : DrainCause → Nat
  | .latch => 0 | .evict => 1 | .shed => 2 | .thermal => 3 | .adoptMismatch => 4

def FaultCode.code : FaultCode → Nat
  | .none => 0 | .degraded => 1 | .offline => 2 | .refused => 3

def SupplyState.code : SupplyState → Nat
  | .absent => 0 | .identifying => 1 | .starting => 2 | .online => 3 | .failed => 4

def SupplyFail.code : SupplyFail → Nat
  | .unread => 0 | .noOutput => 1 | .lost => 2

def FanState.code : FanState → Nat
  | .absent => 0 | .identifying => 1 | .calibrating => 2 | .tracking => 3 | .locked => 4 | .pinned => 5 | .boost => 6
  | .failed => 7

def EmergencyCause.code : EmergencyCause → Nat
  | .margin => 0 | .fans => 1

def ChannelState.code : ChannelState → Nat
  | .hold => 0 | .pass => 1 | .bar => 2

def HoldCause.code : HoldCause → Nat
  | .host => 0 | .slot => 1 | .uplink => 2

def Policy.code : Policy → Nat
  | .none => 0 | .nPlus1 => 1 | .nPlusN => 2

/-- R192: BUDGET in bit 0, THERMAL in bit 1, HOST in bit 2. -/
def CapSet.code (s : CapSet) : Nat := (if s.budget then 1 else 0) + (if s.thermal then 2 else 0) + (if s.host then 4 else 0)

/-! ## Records -/

/-- Table 6 field 9. -/
def Terms.bytes (t : Terms) : List Byte :=
  byte2 t.runDraw ++ byte2 t.floorDraw ++ byte1 t.priority ++ byte1 t.requests.length ++ t.requests.flatMap byte2 ++
    flagByte t.short

/-- Table 6 field 14. -/
def BladeStatus.bytes (st : BladeStatus) : List Byte :=
  byte1 st.margin ++ byte2 st.measured ++ byte1 st.fault.code ++ flagByte st.halted

/-- Fields 1 to 20 of Table 6 (R2). -/
def Chip.slotFields (c : Chip) (k : Fin 16) : List Byte :=
  let s := c.slot k
  let g := c.grant k
  item 1 (byte1 k.val) ++ item 2 (byte1 s.state.code) ++
  optItem 3 (s.holdReason.map fun x => byte1 x.code) ++ optItem 4 (s.drainCause.map fun x => byte1 x.code) ++
  item 5 (firstByte s.early.field) ++ item 6 (firstByte s.late.field) ++ item 7 (flagByte s.latch.field) ++
  optItem 8 (s.handle.map InvRef.bytes) ++ optItem 9 (s.terms.map Terms.bytes) ++ optItem 10 (s.priorityOverride.map byte1) ++
  item 11 (flagByte s.switchClosed) ++ item 12 (firstByte s.powerGood) ++ item 13 (flagByte s.resetReleased) ++
  optItem 14 (s.lastStatus.map BladeStatus.bytes) ++
  item 15 (byte1 s.silence) ++ item 16 (flagByte s.silent) ++ item 17 (byte1 s.overdraw) ++
  item 18 (byte2 g.grant) ++ item 19 (byte1 (levelCode g.level)) ++ item 20 (byte1 g.capSet.code)

/-- Fields 1 to 16 of Table 24 (R57). The location takes the two bytes of key form 2 (log 18). -/
def inventoryFields (h : Fin 48) (generation : Byte) (r : InvRecord) : List Byte :=
  item 1 (byte1 h.val) ++ item 2 [generation] ++ item 3 (byte1 (kindCode r.kind)) ++ item 4 (locationBytes r.location) ++
  item 5 (firstByte r.present) ++ item 6 (byte2 r.identity.vendor.toNat) ++ item 7 (byte2 r.identity.model.toNat) ++
  item 8 r.identity.serial ++ item 9 [r.identity.revision] ++
  optItem 10 (r.identity.capacity.map byte2) ++ optItem 11 (r.identity.fanDraw.map byte2) ++
  optItem 12 (r.identity.fanSpeed.map byte2) ++ optItem 13 (r.identity.fanPulses.map byte1) ++
  optItem 14 r.assetTag ++ item 15 (byte2 r.arrivals) ++ item 16 (countBytes r.changeEpoch)

/-- Fields 1 to 6 of Table 28 (R74). -/
def supplyFields (p : Supply) : List Byte :=
  item 1 (byte1 p.state.code) ++ optItem 2 (p.failReason.map fun x => byte1 x.code) ++
  optItem 3 (p.handle.map InvRef.bytes) ++ item 4 (byte2 p.capacity) ++ item 5 (firstByte p.enable) ++
  item 6 (firstByte p.powerGood)

/-- The ten fields of Table 32 (R91). -/
def Chip.powerFields (c : Chip) : List Byte :=
  item 1 (byte1 c.settings.policy.code) ++ item 2 (byte2 c.onlineCapacity) ++ item 3 (byte2 c.largestOnline) ++
  item 4 (byte2 c.budget) ++ item 5 (byte2 c.settings.baseDraw) ++ item 6 (byte2 c.fanReservations) ++
  item 7 (byte2 c.totalGrants) ++ item 8 (byte2 c.committed) ++ item 9 (byte4Signed c.available) ++
  item 10 (flagByte c.overCommitted)

/-- R192: six points, each its margin in one byte and its speed in two. -/
def Curve.bytes (q : Curve) : List Byte :=
  (keys 6).flatMap fun i => byte1 (q.read i).margin ++ byte2 (q.read i).speed

/-- Fields 1 to 7 of Table 43 (R116). -/
def zoneFields (r : Zone) : List Byte :=
  item 1 (Curve.bytes r.active) ++ item 2 (Curve.bytes r.staged) ++ optItem 3 (r.demand.map byte1) ++ item 4 (byte2 r.target) ++
  item 5 (flagByte r.emergency) ++ optItem 6 (r.cause.map fun x => byte1 x.code) ++ optItem 7 (r.grace.map byte2Saturating)

/-- Table 46 field 12. -/
def Search.bytes (s : Search) : List Byte := byte1 s.index ++ byte1 s.partialResult ++ byte1 s.trial

/-- Fields 1 to 14 of Table 46 (R122). -/
def fanFields (r : Fan) : List Byte :=
  item 1 (byte1 r.state.code) ++ optItem 2 (r.handle.map InvRef.bytes) ++ item 3 (flagByte r.assumed) ++
  item 4 (byte2 r.ratedDraw) ++ item 5 (byte2 r.maxSpeed) ++ item 6 (byte1 r.pulses) ++ item 7 (byte1 r.band) ++
  item 8 (byte1 r.reservedBand) ++ item 9 (byte2 r.target) ++ item 10 (byte2Saturating r.measured) ++
  item 11 (byte1 r.lockCount) ++ optItem 12 (r.search.map Search.bytes) ++ optItem 13 (r.pinnedBand.map byte1) ++
  item 14 (byte1 r.weakCount)

/-- Table 54 field 17, in the order listed. -/
def ChannelCounters.bytes (n : ChannelCounters) : List Byte :=
  countBytes n.framesUp ++ countBytes n.framesDown ++ countBytes n.noCell ++ countBytes n.heldDrops ++
    countBytes n.barredDrops ++ countBytes n.oversize ++ countBytes n.flushed

/-- Fields 1 to 17 of Table 54 (R150). -/
def channelFields (h : Fin 32) (ch : Channel) : List Byte :=
  item 1 (byte1 h.val) ++ item 2 (byte1 ch.slot.val) ++ item 3 (byte2 ch.base) ++ item 4 (byte2 ch.limit) ++
  item 5 (byte1 ch.preferred.val) ++ item 6 (firstByte ch.fallback) ++ item 7 (flagByte ch.autoPass) ++
  item 8 (byte2 ch.maxFrame) ++ item 9 (byte2 ch.firstCell) ++ item 10 (byte1 ch.cellCount) ++
  item 11 (byte1 ch.state.code) ++ optItem 12 (ch.holdCause.map fun x => byte1 x.code) ++ item 13 (flagByte ch.granted) ++
  item 14 (byte1 ch.active.val) ++ item 15 (flagByte ch.busy) ++ item 16 (byte1 ch.cellsInUse) ++
  item 17 (ChannelCounters.bytes ch.counters)

/-- The five fields of Table 60 (R167). -/
def uplinkFields (r : Uplink) : List Byte :=
  let n := r.counters
  item 1 (firstByte r.link) ++ item 2 (firstByte r.admin) ++
  item 3 (byte2 r.egress.length ++ byte2 (cellsOf (r.egress.map Prod.snd))) ++ item 4 (flagByte r.receiving) ++
  item 5 (countBytes n.framesIn ++ countBytes n.framesOut ++ countBytes n.unmatched ++ countBytes n.checkErrors ++
    countBytes n.flushed)

/-- The two fields of Table 61 (R167). -/
def laneFields (r : Lane) : List Byte :=
  let n := r.counters
  item 1 (countBytes n.framesIn ++ countBytes n.stray ++ countBytes n.idleDrops ++ countBytes n.checkErrors) ++
  optItem 2 (r.pointer.map fun h => byte1 h.val)

/-- Fields 1 to 16 of Table 68 (R185). -/
def settingsFields (t : Settings) : List Byte :=
  item 1 (firstByte t.autoAdmission) ++ item 2 (byte1 t.policy.code) ++ item 3 (byte2 t.baseDraw) ++
  item 4 (byte2 t.slotCeiling) ++ item 5 (firstByte t.floorAdmission) ++
  item 6 ((keys 16).flatMap fun k => byte1 (t.zoneMap.read k).val) ++ item 7 (byte2 t.powerUpDelay) ++
  item 8 (byte2 t.resetHold) ++ item 9 (byte1 t.drainTimeout) ++ item 10 (byte1 t.shedDrainTimeout) ++
  item 11 (byte2 t.pollInterval) ++ item 12 (byte1 t.criticalMargin) ++ item 13 (byte1 t.emergencyGrace) ++
  item 14 (byte2 t.defaultFanDraw) ++ item 15 (byte2 t.defaultFanSpeed) ++ item 16 (byte1 t.defaultFanPulses)

/-- R192: a cause set in two bytes. -/
def causeBytes (m : CauseSet) : List Byte := byte2 m.toNat

/-- R188: the whole index, head first. -/
def indexBytes (l : List AlertEntry) : List Byte :=
  byte1 l.length ++ l.flatMap fun e => objectBytes e.object ++ causeBytes e.causes

/-! ## Answers to FETCH -/

/-- OK to FETCH. -/
def okFields (bytes : List Byte) : Answer := { status := .ok, result := bytes }

/-- R57: a record of the inventory, or the chassis epoch. -/
def Chip.inventoryAnswer (c : Chip) (key : InvKey) : Answer :=
  if key = .epoch then okFields (countBytes c.inventory.epoch)
  else
    match c.resolve key with
    | .found h r => okFields (inventoryFields h (c.invHandle h).generation r)
    | x => x.refusal

/-- R150. -/
def Chip.channelAnswer (c : Chip) (h : Fin 32) : Answer :=
  match c.channel h with
  | some ch => okFields (channelFields h ch)
  | none => Status.alone .noRecord

/-- R188. -/
def Chip.alertAnswer (c : Chip) (key : AlertKey) : Answer :=
  match key with
  | .index => okFields (indexBytes c.port.alerts)
  | .object o => okFields (causeBytes (causesOf o c.port.alerts))

/-- An owner that answers from its records and changes nothing. -/
def reading (answer : Chip → Answer) (c : Chip) : Chip × Answer := (c, answer c)

/-! ## The meanings -/

/-- What the owner of a table answers to a verb it does not accept: the refusal of a key that names no record by then
(R56, log 29), else STATE (R64, section 10.2). -/
def Chip.verbRefusal (c : Chip) (table : TableId) (key : Key) : Answer :=
  (c.keyRefusal (BitVec.ofNat 8 (tableCode table)) key).getD (Status.alone .state)

/-- UNACCEPTED_VERB (R181). -/
def execUnacceptedVerb (verb : Verb) (table : TableId) (key : Key) (s : State) : Result :=
  taken (takeRequest (.unacceptedVerb verb table key) (reading fun c => c.verbRefusal table key)) s

/-- FETCH_SLOT (R2). -/
def execFetchSlot (k : Fin 16) (s : State) : Result :=
  taken (takeRequest (.fetchSlot k) (reading fun c => okFields (c.slotFields k))) s

/-- FETCH_INVENTORY (R56, R57). -/
def execFetchInventory (key : InvKey) (s : State) : Result :=
  taken (takeRequest (.fetchInventory key) (reading fun c => c.inventoryAnswer key)) s

/-- FETCH_SUPPLY (R74). -/
def execFetchSupply (b : Fin 6) (s : State) : Result :=
  taken (takeRequest (.fetchSupply b) (reading fun c => okFields (supplyFields (c.supply b)))) s

/-- FETCH_POWER (R91). -/
def execFetchPower (s : State) : Result :=
  taken (takeRequest .fetchPower (reading fun c => okFields c.powerFields)) s

/-- FETCH_ZONE (R116). -/
def execFetchZone (z : Fin 4) (s : State) : Result :=
  taken (takeRequest (.fetchZone z) (reading fun c => okFields (zoneFields (c.zone z)))) s

/-- FETCH_FAN (R122). -/
def execFetchFan (f : Fin 8) (s : State) : Result :=
  taken (takeRequest (.fetchFan f) (reading fun c => okFields (fanFields (c.fan f)))) s

/-- FETCH_CHANNEL (R150). -/
def execFetchChannel (h : Fin 32) (s : State) : Result :=
  taken (takeRequest (.fetchChannel h) (reading fun c => c.channelAnswer h)) s

/-- FETCH_UPLINK (R167). -/
def execFetchUplink (u : Fin 2) (s : State) : Result :=
  taken (takeRequest (.fetchUplink u) (reading fun c => okFields (uplinkFields (c.uplink u)))) s

/-- FETCH_LANE (R167). -/
def execFetchLane (k : Fin 16) (s : State) : Result :=
  taken (takeRequest (.fetchLane k) (reading fun c => okFields (laneFields (c.lane k)))) s

/-- FETCH_SETTINGS (R185). -/
def execFetchSettings (s : State) : Result :=
  taken (takeRequest .fetchSettings (reading fun c => okFields (settingsFields c.settings))) s

/-- FETCH_ALERT (R188). -/
def execFetchAlert (key : AlertKey) (s : State) : Result :=
  taken (takeRequest (.fetchAlert key) (reading fun c => c.alertAnswer key)) s

end Sys2Proof.Machine
end

