-- ==== Sys2Proof/Machine/Changes.lean ====
section
/-!
DEFINITION. AMEND, DEFINE, RETIRE and ACK: what each owner does with the operands, and the meanings.
-/

namespace Sys2Proof.Machine

/-- An owner's answer that carries its status alone. -/
def statusOnly (r : Chip × Status) : Chip × Answer := (r.1, Status.alone r.2)

/-- A refusal: the status, and nothing changed. -/
def refuse (x : Status) (c : Chip) : Chip × Answer := (c, Status.alone x)

/-- Items that decoding would not have let through are answered as decoding answers them (R181). -/
def onItems (good : Bool) (owner : Chip → Chip × Answer) (c : Chip) : Chip × Answer :=
  if good then owner c else refuse .badForm c

/-! ## AMEND of a slot, an inventory record and a zone -/

/-- R2. -/
def amendSlotOwner (k : Fin 16) (items : List Item) (c : Chip) : Chip × Answer :=
  if items.any fun i => decide (i.field ≠ 10) then refuse .state c
  else
    match numberOf items 10 with
    | none => (writeOverride k none c, Status.alone .ok)
    | some p => if p ≤ 7 then (writeOverride k (some p) c, Status.alone .ok) else refuse .range c

/-- R64: an asset tag that may be written. -/
def tagAccepted (tag : Option (List Byte)) : Bool :=
  match tag with
  | none => true
  | some chars => decide (chars.length ≤ 32) && chars.all printable

/-- R56, R64. -/
def amendInventoryOwner (key : InvKey) (items : List Item) (c : Chip) : Chip × Answer :=
  if key = .epoch then refuse .state c
  else
    match c.resolve key with
    | .found h r =>
      if items.any fun i => decide (i.field ≠ 14) then refuse .state c
      else if tagAccepted (valueOf items 14) then
        (writeRecord h { r with assetTag := valueOf items 14 } c, Status.alone .ok)
      else refuse .range c
    | x => (c, x.refusal)

/-- R192: a curve from its 18 bytes. -/
def readCurve (v : List Byte) : Curve :=
  .gen fun i => { margin := numberAt v (3 * i.val) 1, speed := numberAt v (3 * i.val + 1) 2 }

/-- R116: margins 0 to 127 and speeds 0 to 30000. -/
def Curve.inRange (q : Curve) : Bool :=
  (keys 6).all fun i => decide ((q.read i).margin ≤ 127 ∧ (q.read i).speed ≤ 30000)

/-- R116. -/
def amendZoneOwner (z : Fin 4) (items : List Item) (c : Chip) : Chip × Answer :=
  if items.any fun i => decide (i.field ≠ 2) then refuse .state c
  else
    let q := readCurve ((valueOf items 2).getD [])
    if Curve.inRange q then (modZone z (fun r => { r with staged := q }) c, Status.alone .ok) else refuse .range c

/-! ## Channels (R150, R153 to R155) -/

/-- R150: an item list that names a field of a channel the host cannot write. -/
def namesHubField (items : List Item) : Bool := items.any fun i => decide (i.field = 1 ∨ 11 ≤ i.field)

/-- A definition with the fields an item list names replaced; a named value outside its list is out of range (log 19). -/
def Definition.with (d : Definition) (items : List Item) : Option Definition :=
  let new (field old : Nat) : Nat := (numberOf items field).getD old
  let preferred := new 5 d.preferred.val
  let fallback := new 6 (if d.fallback then 0 else 1)
  let autoPass := new 7 (if d.autoPass then 1 else 0)
  if h : preferred < 2 then
    (if fallback < 2 ∧ autoPass < 2 then
      some {
        slot := new 2 d.slot, base := new 3 d.base, limit := new 4 d.limit, preferred := ⟨preferred, h⟩,
        fallback := fallback = 0, autoPass := autoPass = 1, maxFrame := new 8 d.maxFrame, firstCell := new 9 d.firstCell,
        cellCount := new 10 d.cellCount }
    else none)
  else none

/-- The definition that DEFINE's items replace whole. -/
def Definition.blank : Definition :=
  { slot := 0, base := 0, limit := 0, preferred := 0, fallback := false, autoPass := false, maxFrame := 0, firstCell := 0,
    cellCount := 0 }

/-- R153. -/
def defineOwner (items : List Item) (c : Chip) : Chip × Answer :=
  if namesHubField items then refuse .state c
  else
    match Definition.blank.with items with
    | some d => defineRecord d c
    | none => refuse .range c

/-- R150, R154. -/
def amendChannelOwner (h : Fin 32) (items : List Item) (c : Chip) : Chip × Answer :=
  match c.channel h with
  | none => refuse .noRecord c
  | some ch =>
    if namesHubField items then refuse .state c
    else
      match ch.amendBar (namesField items 2) with
      | .ok =>
        match ch.definition.with items with
        | some d => statusOnly (checkedAmend h ch d (namesField items 5) c)
        | none => refuse .range c
      | x => refuse x c

/-- R63. -/
def retireInventoryOwner (key : InvKey) (c : Chip) : Chip × Answer :=
  if key = .epoch then refuse .state c
  else
    match c.resolve key with
    | .found h r => if r.present then refuse .state c else (retireHandle h c, Status.alone .ok)
    | x => (c, x.refusal)

/-! ## Settings (R185, R186) -/

/-- A number in a range, at a step. -/
def stepped (low high step n : Nat) : Bool := decide (low ≤ n ∧ n ≤ high ∧ n % step = 0)

/-- Table 68: whether a named setting's value lies in its range. A value of another form is not judged here (R192). -/
def settingInRange (i : Item) : Bool :=
  match i.value with
  | none => false
  | some v =>
    match i.field with
    | 1 | 5 => stepped 0 1 1 (number v)
    | 2 => stepped 0 2 1 (number v)
    | 3 => stepped 0 2000 1 (number v)
    | 4 => stepped 100 2000 5 (number v)
    | 6 => (readPairs v.tail).all fun p => decide (p.1 < 16 ∧ p.2 < 4)
    | 7 | 8 => stepped 10 2550 10 (number v)
    | 9 | 10 => stepped 1 255 1 (number v)
    | 11 => stepped 250 10000 250 (number v)
    | 12 => stepped 0 30 1 (number v)
    | 13 => stepped 5 255 1 (number v)
    | 14 => stepped 1 500 1 (number v)
    | 15 => stepped 1000 30000 1 (number v)
    | 16 => stepped 1 4 1 (number v)
    | _ => false

/-- The policy of a code (Table 68 field 2). -/
def policyOf : Nat → Policy
  | 0 => .none | 1 => .nPlus1 | _ => .nPlusN

/-- A zone map with pairs of slot and zone written into it. -/
def writePairs (m : Bank 16 (Fin 4)) (pairs : List (Nat × Nat)) : Bank 16 (Fin 4) :=
  .gen fun k =>
    match pairs.find? fun p => decide (p.1 = k.val) with
    | some p => if h : p.2 < 4 then ⟨p.2, h⟩ else m.read k
    | none => m.read k

/-- R185: the settings with every named value written. -/
def writeSettings (items : List Item) (t : Settings) : Settings :=
  let new (field old : Nat) : Nat := (numberOf items field).getD old
  { autoAdmission := new 1 (if t.autoAdmission then 0 else 1) = 0,
    policy := ((numberOf items 2).map policyOf).getD t.policy,
    baseDraw := new 3 t.baseDraw, slotCeiling := new 4 t.slotCeiling,
    floorAdmission := new 5 (if t.floorAdmission then 0 else 1) = 0,
    zoneMap := writePairs t.zoneMap (readPairs ((valueOf items 6).getD []).tail),
    powerUpDelay := new 7 t.powerUpDelay, resetHold := new 8 t.resetHold, drainTimeout := new 9 t.drainTimeout,
    shedDrainTimeout := new 10 t.shedDrainTimeout, pollInterval := new 11 t.pollInterval,
    criticalMargin := new 12 t.criticalMargin, emergencyGrace := new 13 t.emergencyGrace,
    defaultFanDraw := new 14 t.defaultFanDraw, defaultFanSpeed := new 15 t.defaultFanSpeed,
    defaultFanPulses := new 16 t.defaultFanPulses }

/-- R186: the written settings are handed on to the power unit and then to the fan controller (log 48). -/
def applySettings (items : List Item) (c : Chip) : Chip :=
  let write := setSettings (writeSettings items c.settings)
  let c' := if namesField items 2 || namesField items 3 then powerEvent false write c else write c
  fanSettings c (namesField items 12) c'

/-- R185. -/
def amendSettingsOwner (items : List Item) (c : Chip) : Chip × Answer :=
  if items.all settingInRange then (applySettings items c, Status.alone .ok) else refuse .range c

/-! ## ACK (R189) -/

/-- R189. -/
def ackOwner (o : AlertObject) (causes : CauseSet) (c : Chip) : Chip × Answer :=
  if causesBelong o causes then
    let c := setAlerts (ackIn o causes c.port.alerts) c
    (c, { status := .ok, result := causeBytes (causesOf o c.port.alerts) })
  else refuse .badForm c

/-! ## The meanings -/

/-- AMEND_SLOT (R2, R96). -/
def execAmendSlot (k : Fin 16) (items : List Item) (s : State) : Result :=
  taken (takeRequest (.amendSlot k items) (onItems (amendWellFormed .slot items) (amendSlotOwner k items))) s

/-- AMEND_INVENTORY (R64). -/
def execAmendInventory (key : InvKey) (items : List Item) (s : State) : Result :=
  taken (takeRequest (.amendInventory key items)
    (onItems (amendWellFormed .inventory items) (amendInventoryOwner key items))) s

/-- AMEND_ZONE (R116). -/
def execAmendZone (z : Fin 4) (items : List Item) (s : State) : Result :=
  taken (takeRequest (.amendZone z items) (onItems (amendWellFormed .zone items) (amendZoneOwner z items))) s

/-- AMEND_CHANNEL (R154). -/
def execAmendChannel (h : Fin 32) (items : List Item) (s : State) : Result :=
  taken (takeRequest (.amendChannel h items) (onItems (amendWellFormed .channel items) (amendChannelOwner h items))) s

/-- AMEND_SETTINGS (R185, R186). -/
def execAmendSettings (items : List Item) (s : State) : Result :=
  taken (takeRequest (.amendSettings items) (onItems (amendWellFormed .settings items) (amendSettingsOwner items))) s

/-- DEFINE_CHANNEL (R153). -/
def execDefineChannel (items : List Item) (s : State) : Result :=
  taken (takeRequest (.defineChannel items) (onItems (defineWellFormed items) (defineOwner items))) s

/-- RETIRE_INVENTORY (R63). -/
def execRetireInventory (key : InvKey) (s : State) : Result :=
  taken (takeRequest (.retireInventory key) (retireInventoryOwner key)) s

/-- RETIRE_CHANNEL (R155). -/
def execRetireChannel (h : Fin 32) (s : State) : Result :=
  taken (takeRequest (.retireChannel h) (fun c => statusOnly (retireRecord h c))) s

/-- ACK (R189). -/
def execAck (o : AlertObject) (causes : CauseSet) (s : State) : Result := taken (takeRequest (.ack o causes) (ackOwner o causes)) s

end Sys2Proof.Machine
end

