-- ==== Sys2Proof/Machine/Orders.lean ====
section
/-!
DEFINITION. The meanings of the ORDER commands.
-/

namespace Sys2Proof.Machine

/-- An order on a record: its owner answers a status alone. -/
def takenOrder (i : Instr) (owner : Chip → Chip × Status) (s : State) : Result :=
  taken (takeRequest i fun c => statusOnly (owner c)) s

/-- ORDER_ADMIT (R11). -/
def execOrderAdmit (k : Fin 16) (s : State) : Result := takenOrder (.orderAdmit k) (admitSlot k) s

/-- ORDER_READMIT (R20). -/
def execOrderReadmit (k : Fin 16) (s : State) : Result := takenOrder (.orderReadmit k) (readmitSlot k) s

/-- ORDER_EVICT (R25). -/
def execOrderEvict (k : Fin 16) (s : State) : Result := takenOrder (.orderEvict k) (evictSlot k) s

/-- ORDER_FORCE_OFF (R26). -/
def execOrderForceOff (k : Fin 16) (s : State) : Result := takenOrder (.orderForceOff k) (forceOffSlot k) s

/-- ORDER_RENEGOTIATE (R53). -/
def execOrderRenegotiate (k : Fin 16) (s : State) : Result := takenOrder (.orderRenegotiate k) (renegotiateSlot k) s

/-- R101, R102: HOST is added to a slot that can be capped; one that holds it already is left as it is and answered OK. -/
def capSlot (k : Fin 16) (c : Chip) : Chip × Status :=
  if (c.slot k).state = .running ∧ c.floorDraw k ≠ 0 ∧ ((c.grant k).grant ≠ 0 ∨ (c.grant k).capSet.host) then
    (addReason .host k c, .ok)
  else (c, .state)

/-- ORDER_CAP (R102). -/
def execOrderCap (k : Fin 16) (s : State) : Result := takenOrder (.orderCap k) (capSlot k) s

/-- R102. -/
def uncapSlot (k : Fin 16) (c : Chip) : Chip × Status :=
  if (c.grant k).capSet.host then (removeReason .host k c, .ok) else (c, .state)

/-- ORDER_UNCAP (R102). -/
def execOrderUncap (k : Fin 16) (s : State) : Result := takenOrder (.orderUncap k) (uncapSlot k) s

/-- ORDER_RETRY_SUPPLY (R81). -/
def execOrderRetrySupply (b : Fin 6) (s : State) : Result := takenOrder (.orderRetrySupply b) (retrySupply b) s

/-- ORDER_COMMIT_CURVE (R117). -/
def execOrderCommitCurve (z : Fin 4) (s : State) : Result := takenOrder (.orderCommitCurve z) (commitCurve z) s

/-- ORDER_PIN (R133). -/
def execOrderPin (f : Fin 8) (band : Nat) (s : State) : Result := takenOrder (.orderPin f band) (pinFan f band) s

/-- ORDER_UNPIN (R134). -/
def execOrderUnpin (f : Fin 8) (s : State) : Result := takenOrder (.orderUnpin f) (unpinFan f) s

/-- ORDER_RETRY_FAN (R134). -/
def execOrderRetryFan (f : Fin 8) (s : State) : Result := takenOrder (.orderRetryFan f) (retryFan f) s

/-- ORDER_PASS (R157). -/
def execOrderPass (h : Fin 32) (s : State) : Result := takenOrder (.orderPass h) (passChannel h) s

/-- ORDER_HOLD (R157). -/
def execOrderHold (h : Fin 32) (s : State) : Result := takenOrder (.orderHold h) (holdChannel h) s

/-- ORDER_BAR (R158). -/
def execOrderBar (h : Fin 32) (s : State) : Result := takenOrder (.orderBar h) (barChannel h) s

/-- ORDER_FLUSH (R159). -/
def execOrderFlush (h : Fin 32) (s : State) : Result := takenOrder (.orderFlush h) (flushChannel h) s

/-- R168: ENABLE and DISABLE write the admin field, with the loss or return it makes. -/
def adminOrder (u : Fin 2) (admin : Bool) (c : Chip) : Chip × Status :=
  (changeUplink u (fun r => { r with admin := admin }) c, .ok)

/-- ORDER_ENABLE (R168). -/
def execOrderEnable (u : Fin 2) (s : State) : Result := takenOrder (.orderEnable u) (adminOrder u true) s

/-- ORDER_DISABLE (R168). -/
def execOrderDisable (u : Fin 2) (s : State) : Result := takenOrder (.orderDisable u) (adminOrder u false) s

/-- R184: answered OK; the warm restart waits for the answer to be read. -/
def restartOrder (c : Chip) : Chip × Status := (modPort (fun p => { p with restartWaiting := true }) c, .ok)

/-- ORDER_RESTART (R184). -/
def execOrderRestart (s : State) : Result := takenOrder .orderRestart restartOrder s

end Sys2Proof.Machine
end

