-- ==== Sys2Proof/Machine/Reports.lean ====
section
/-!
DEFINITION. The meanings of the commands that carry a report or request from one block to another. Each leaves the messages in flight as it is taken (log 1).
-/

namespace Sys2Proof.Machine

/-- A message row is taken by the block it is sent to. -/
def takenMessage (m : Instr) (event : Chip → Chip) (s : State) : Result := taken (fun c => event (deliver m c)) s

/-- CLOSE_ORDER (R12). -/
def execCloseOrder (k : Fin 16) (s : State) : Result := takenMessage (.closeOrder k) (takeCloseOrder k) s

/-- SHED_OFF_ACTION (R16, R110). -/
def execShedOffAction (k : Fin 16) (s : State) : Result := takenMessage (.shedOffAction k) (shedOff k) s

/-- THERMAL_DRAIN_REQUEST (R16, R145). -/
def execThermalDrainRequest (k : Fin 16) (s : State) : Result := takenMessage (.thermalDrainRequest k) (thermalDrain k) s

/-- CAP_REQUEST (R34, R48). -/
def execCapRequest (k : Fin 16) (limit : Nat) (s : State) : Result :=
  takenMessage (.capRequest k limit) (requestCap k limit) s

/-- UNCAP_REQUEST (R34, R48). -/
def execUncapRequest (k : Fin 16) (limit : Nat) (s : State) : Result :=
  takenMessage (.uncapRequest k limit) (requestUncap k limit) s

/-- GRANT_REQUEST (R45). -/
def execGrantRequest (k : Fin 16) (grant : Nat) (level : Level) (s : State) : Result :=
  takenMessage (.grantRequest k grant level) (requestGrant k grant level) s

/-- MATCH_HANDOFF (R160). -/
def execMatchHandoff (k : Fin 16) (handles : List (Fin 32)) (s : State) : Result :=
  takenMessage (.matchHandoff k handles) (takeMatch k handles) s

/-- R99, settled: the close is ordered, or the slot goes back to the queue while the chassis is over-committed. -/
def settled (k : Fin 16) (c : Chip) : Chip :=
  if c.overCommitted then requeueAdmission k c
  else c |> modGrant k (fun g => { g with stage := .closing }) |> post (.closeOrder k)

/-- R12, R99, failed: the grant is set back and the slot is held. -/
def settlementFailed (k : Fin 16) (c : Chip) : Chip :=
  let c := failAdmission k c
  if (c.slot k).state = .awaitingGrant then toHeld k .noAnswer c else c

/-- R99; a report for a slot whose stage is not SETTLING is ignored (R93), an abandoned one changes nothing (log 13). -/
def takeSettlement (k : Fin 16) (outcome : SettleOutcome) (c : Chip) : Chip :=
  if (c.grant k).stage = .settling then
    match outcome with
    | .settled => settled k c
    | .failed => settlementFailed k c
    | .abandoned => c
  else c

/-- SETTLEMENT_REPORT (R99). -/
def execSettlementReport (k : Fin 16) (outcome : SettleOutcome) (s : State) : Result :=
  takenMessage (.settlementReport k outcome) (takeSettlement k outcome) s

/-- CAP_OUTCOME (R103). -/
def execCapOutcome (k : Fin 16) (outcome : LimitOutcome) (s : State) : Result :=
  takenMessage (.capOutcome k outcome) (takeCapOutcome k outcome) s

/-- UNCAP_OUTCOME (R100). -/
def execUncapOutcome (k : Fin 16) (outcome : LimitOutcome) (s : State) : Result :=
  takenMessage (.uncapOutcome k outcome) (takeUncapOutcome k outcome) s

end Sys2Proof.Machine
end

