-- ==== Sys2Proof/Machine/Thermal.lean ====
section
/-!
DEFINITION. The meanings of the fan and zone commands.
-/

namespace Sys2Proof.Machine

/-- R126: the settle period ends and the count window of the decision starts. -/
def settleEnded (f : Fin 8) : Chip → Chip := modFan f fun r =>
  if r.window = .settle then { r with window := .count, windowBand := r.band } else r

/-- SETTLE_PERIOD_END (R126). -/
def execSettlePeriodEnd (f : Fin 8) (s : State) : Result := taken (settleEnded f) s

/-- R124: the end of a running count window. -/
def windowEnded (f : Fin 8) (pulses : Nat) (c : Chip) : Chip :=
  if (c.fan f).window = .count then takeSample f pulses c else c

/-- COUNT_WINDOW_END (R124). -/
def execCountWindowEnd (f : Fin 8) (pulses : Nat) (s : State) : Result := taken (windowEnded f pulses) s

/-- R130: the expiry of a running release timer. -/
def releaseExpired (f : Fin 8) (c : Chip) : Chip :=
  if (c.fan f).state = .locked ∧ (c.fan f).releaseTimer then releaseLocked f c else c

/-- RELEASE_TIMER_EXPIRY (R130). -/
def execReleaseTimerExpiry (f : Fin 8) (s : State) : Result := taken (releaseExpired f) s

/-- R144: grace remaining is rewritten at a whole second; the last one is the expiry (log 4). -/
def graceTicked (z : Fin 4) : Chip → Chip := modZone z fun r =>
  match r.grace with
  | some (n + 2) => if r.graceTimer then { r with grace := some (n + 1) } else r
  | _ => r

/-- GRACE_SECOND_TICK (R144). -/
def execGraceSecondTick (z : Fin 4) (s : State) : Result := taken (graceTicked z) s

/-- R145: the expiry of a running grace timer. -/
def graceExpired (z : Fin 4) (c : Chip) : Chip :=
  if (c.zone z).graceTimer then
    c |> modZone z (fun r => { r with grace := some 0, graceTimer := false }) |> sendDrains z
  else c

/-- GRACE_TIMER_EXPIRY (R145). -/
def execGraceTimerExpiry (z : Fin 4) (s : State) : Result := taken (graceExpired z) s

end Sys2Proof.Machine
end

