-- ==== Sys2Proof/Machine/Traffic.lean ====
section
/-!
DEFINITION. The meanings of the frame and uplink commands.
-/

namespace Sys2Proof.Machine

/-- UPLINK_FRAME_START (R169). -/
def execUplinkFrameStart (u : Fin 2) (s : State) : Result := taken (uplinkStart u) s

/-- UPLINK_FRAME_COMPLETION (R170). -/
def execUplinkFrameCompletion (u : Fin 2) (frame : Frame) (s : State) : Result := taken (uplinkCompletion u frame) s

/-- LANE_FRAME_COMPLETION (R171). -/
def execLaneFrameCompletion (k : Fin 16) (frame : Frame) (s : State) : Result := taken (laneCompletion k frame) s

/-- UPLINK_TRANSMIT_COMPLETION (R172). -/
def execUplinkTransmitCompletion (u : Fin 2) (s : State) : Result := taken (uplinkTransmitted u) s

/-- LANE_TRANSMIT_COMPLETION (R173). -/
def execLaneTransmitCompletion (k : Fin 16) (s : State) : Result := taken (laneTransmitted k) s

/-- UPL_LINK_CHANGE (R168). -/
def execUplLinkChange (u : Fin 2) (level : Bool) (s : State) : Result := taken (linkChanged u level) s

end Sys2Proof.Machine
end

