-- ==== Sys2Proof/Machine/Transfers.lean ====
section
/-!
DEFINITION. The meanings of the four transfers of the request port, and which command byte spells which.
-/

namespace Sys2Proof.Machine

/-- READ_STATUS (R179). -/
def execReadStatus (s : State) : Result := taken (returning []) s

/-- PUT_REQUEST (R180, R181). -/
def execPutRequest (message : List Byte) (s : State) : Result := taken (putMessage message) s

/-- GET_RESPONSE (R182, R184). -/
def execGetResponse (clocked : Nat) (s : State) : Result := taken (getMessage clocked) s

/-- Table 65, R193: the command of a transfer, by its port command byte and the bytes the host sends behind it. -/
def transferOf (command : Byte) (rest : List Byte) : Instr :=
  match command.toNat with
  | 1 => .readStatus
  | 2 => .putRequest rest
  | 3 => .getResponse rest.length
  | _ => .unknownPortCommand command

/-- Table 65: what a transfer does at its end. -/
def portTransfer (command : Byte) (rest : List Byte) (c : Chip) : Chip :=
  match transferOf command rest with
  | .putRequest message => putMessage message c
  | .getResponse clocked => getMessage clocked c
  | _ => returning [] c

/-- UNKNOWN_PORT_COMMAND (R179): a transfer of the command byte alone. A byte that R193 gives no command returns the status
byte and has no effect. -/
def execUnknownPortCommand (command : Byte) (s : State) : Result := taken (portTransfer command []) s

end Sys2Proof.Machine
end

