-- ==== Sys2Proof/Machine/Dispatch.lean ====
section
/-!
DEFINITION. The dispatch of every command to its meaning.
-/

namespace Sys2Proof.Machine

def exec (i : Instr) (s : State) : Host.Outcome State Fault Refusal :=
  match i with
  | .coldReset => Sys2Proof.Machine.execColdReset s
  | .slotInputEdge k input level => Sys2Proof.Machine.execSlotInputEdge k input level s
  | .contactDebounceExpiry k contact => Sys2Proof.Machine.execContactDebounceExpiry k contact s
  | .latchDebounceExpiry k => Sys2Proof.Machine.execLatchDebounceExpiry k s
  | .pwrGoodChange k level => Sys2Proof.Machine.execPwrGoodChange k level s
  | .powerUpDelayExpiry k => Sys2Proof.Machine.execPowerUpDelayExpiry k s
  | .resetHoldExpiry k => Sys2Proof.Machine.execResetHoldExpiry k s
  | .pollTimerExpiry k => Sys2Proof.Machine.execPollTimerExpiry k s
  | .drainTimerExpiry k => Sys2Proof.Machine.execDrainTimerExpiry k s
  | .powerDownTimerExpiry k => Sys2Proof.Machine.execPowerDownTimerExpiry k s
  | .closeOrder k => Sys2Proof.Machine.execCloseOrder k s
  | .shedOffAction k => Sys2Proof.Machine.execShedOffAction k s
  | .thermalDrainRequest k => Sys2Proof.Machine.execThermalDrainRequest k s
  | .slotPageReceived k page => Sys2Proof.Machine.execSlotPageReceived k page s
  | .slotResponseTimeout k => Sys2Proof.Machine.execSlotResponseTimeout k s
  | .slotQuietEnd k => Sys2Proof.Machine.execSlotQuietEnd k s
  | .capRequest k limit => Sys2Proof.Machine.execCapRequest k limit s
  | .uncapRequest k limit => Sys2Proof.Machine.execUncapRequest k limit s
  | .grantRequest k grant level => Sys2Proof.Machine.execGrantRequest k grant level s
  | .matchHandoff k handles => Sys2Proof.Machine.execMatchHandoff k handles s
  | .settlementReport k outcome => Sys2Proof.Machine.execSettlementReport k outcome s
  | .capOutcome k outcome => Sys2Proof.Machine.execCapOutcome k outcome s
  | .uncapOutcome k outcome => Sys2Proof.Machine.execUncapOutcome k outcome s
  | .modulePresenceEdge bay level => Sys2Proof.Machine.execModulePresenceEdge bay level s
  | .modulePresenceDebounceExpiry bay => Sys2Proof.Machine.execModulePresenceDebounceExpiry bay s
  | .moduleResponse message => Sys2Proof.Machine.execModuleResponse message s
  | .moduleResponseTimeout => Sys2Proof.Machine.execModuleResponseTimeout s
  | .moduleQuietEnd => Sys2Proof.Machine.execModuleQuietEnd s
  | .psuPgChange b level => Sys2Proof.Machine.execPsuPgChange b level s
  | .supplyStartDelayExpiry b => Sys2Proof.Machine.execSupplyStartDelayExpiry b s
  | .settlePeriodEnd f => Sys2Proof.Machine.execSettlePeriodEnd f s
  | .countWindowEnd f pulses => Sys2Proof.Machine.execCountWindowEnd f pulses s
  | .releaseTimerExpiry f => Sys2Proof.Machine.execReleaseTimerExpiry f s
  | .graceSecondTick z => Sys2Proof.Machine.execGraceSecondTick z s
  | .graceTimerExpiry z => Sys2Proof.Machine.execGraceTimerExpiry z s
  | .uplinkFrameStart u => Sys2Proof.Machine.execUplinkFrameStart u s
  | .uplinkFrameCompletion u frame => Sys2Proof.Machine.execUplinkFrameCompletion u frame s
  | .laneFrameCompletion k frame => Sys2Proof.Machine.execLaneFrameCompletion k frame s
  | .uplinkTransmitCompletion u => Sys2Proof.Machine.execUplinkTransmitCompletion u s
  | .laneTransmitCompletion k => Sys2Proof.Machine.execLaneTransmitCompletion k s
  | .uplLinkChange u level => Sys2Proof.Machine.execUplLinkChange u level s
  | .readStatus => Sys2Proof.Machine.execReadStatus s
  | .putRequest message => Sys2Proof.Machine.execPutRequest message s
  | .getResponse clocked => Sys2Proof.Machine.execGetResponse clocked s
  | .unknownPortCommand command => Sys2Proof.Machine.execUnknownPortCommand command s
  | .unacceptedVerb verb table key => Sys2Proof.Machine.execUnacceptedVerb verb table key s
  | .fetchSlot k => Sys2Proof.Machine.execFetchSlot k s
  | .fetchInventory key => Sys2Proof.Machine.execFetchInventory key s
  | .fetchSupply b => Sys2Proof.Machine.execFetchSupply b s
  | .fetchPower => Sys2Proof.Machine.execFetchPower s
  | .fetchZone z => Sys2Proof.Machine.execFetchZone z s
  | .fetchFan f => Sys2Proof.Machine.execFetchFan f s
  | .fetchChannel h => Sys2Proof.Machine.execFetchChannel h s
  | .fetchUplink u => Sys2Proof.Machine.execFetchUplink u s
  | .fetchLane k => Sys2Proof.Machine.execFetchLane k s
  | .fetchSettings => Sys2Proof.Machine.execFetchSettings s
  | .fetchAlert key => Sys2Proof.Machine.execFetchAlert key s
  | .amendSlot k items => Sys2Proof.Machine.execAmendSlot k items s
  | .amendInventory key items => Sys2Proof.Machine.execAmendInventory key items s
  | .amendZone z items => Sys2Proof.Machine.execAmendZone z items s
  | .amendChannel h items => Sys2Proof.Machine.execAmendChannel h items s
  | .amendSettings items => Sys2Proof.Machine.execAmendSettings items s
  | .defineChannel items => Sys2Proof.Machine.execDefineChannel items s
  | .retireInventory key => Sys2Proof.Machine.execRetireInventory key s
  | .retireChannel h => Sys2Proof.Machine.execRetireChannel h s
  | .ack o causes => Sys2Proof.Machine.execAck o causes s
  | .orderAdmit k => Sys2Proof.Machine.execOrderAdmit k s
  | .orderReadmit k => Sys2Proof.Machine.execOrderReadmit k s
  | .orderEvict k => Sys2Proof.Machine.execOrderEvict k s
  | .orderForceOff k => Sys2Proof.Machine.execOrderForceOff k s
  | .orderRenegotiate k => Sys2Proof.Machine.execOrderRenegotiate k s
  | .orderCap k => Sys2Proof.Machine.execOrderCap k s
  | .orderUncap k => Sys2Proof.Machine.execOrderUncap k s
  | .orderRetrySupply b => Sys2Proof.Machine.execOrderRetrySupply b s
  | .orderCommitCurve z => Sys2Proof.Machine.execOrderCommitCurve z s
  | .orderPin f band => Sys2Proof.Machine.execOrderPin f band s
  | .orderUnpin f => Sys2Proof.Machine.execOrderUnpin f s
  | .orderRetryFan f => Sys2Proof.Machine.execOrderRetryFan f s
  | .orderPass h => Sys2Proof.Machine.execOrderPass h s
  | .orderHold h => Sys2Proof.Machine.execOrderHold h s
  | .orderBar h => Sys2Proof.Machine.execOrderBar h s
  | .orderFlush h => Sys2Proof.Machine.execOrderFlush h s
  | .orderEnable u => Sys2Proof.Machine.execOrderEnable u s
  | .orderDisable u => Sys2Proof.Machine.execOrderDisable u s
  | .orderRestart => Sys2Proof.Machine.execOrderRestart s

end Sys2Proof.Machine
end

