-- ==== Sys2Proof/Machine/Step.lean ====
section
/-!
DEFINITION. One step of the part: the command at the front of the queue, and what happens when none waits.
-/

namespace Sys2Proof.Machine

/-- The part takes one command. With no command waiting it takes the oldest message in flight between its blocks, else the
request PENDING in its port, else it idles (log 2). -/
def step (s : State) : Host.Outcome State Fault Refusal :=
  match s.pending with
  | i :: rest => exec i { s with pending := rest }
  | [] =>
    match s.chip.messages with
    | m :: _ => exec m s
    | [] =>
      match s.chip.port.request with
      | some i => exec i s
      | none => .next s

/-- The command a word spells, put at the front of the queue. The table gives no row bits, so no word spells one. -/
def State.withFetchWord (s : State) (nbits w : Nat) : State :=
  match decodeTableWord nbits w with
  | some i => { s with pending := i :: s.pending }
  | none => s

end Sys2Proof.Machine
end

