-- ==== Sys2Proof/WellFormed.lean ====
section
/-!
DEFINITION. Well-formed commands: operands that lie in the ranges the spec gives them and could not be of another command.
The meanings are total and do not ask for it; statements and tests do.
-/

namespace Sys2Proof

open Sys2Proof.Machine

/-- The verbs each table accepts (Table 66). -/
def TableId.accepts (t : TableId) : Verb → Bool
  | .fetch => true
  | .amend => decide (t = .slot ∨ t = .inventory ∨ t = .zone ∨ t = .channel ∨ t = .settings)
  | .define => decide (t = .channel)
  | .retire => decide (t = .inventory ∨ t = .channel)
  | .order => decide (orderCount t ≠ 0)
  | .ack => decide (t = .alert)

/-- R181: a verb that is not accepted reaches the owner of a table only where decoding lets its operands through: an ORDER
needs an order of the table, and an AMEND a field of it. -/
def Verb.reaches (verb : Verb) (t : TableId) : Bool := decide (verb ≠ .order ∧ ¬(verb = .amend ∧ t = .alert))

/-- R55, R193: characters of a serial key; the key of a request carries their number in one byte. -/
def InvKey.wellFormed : InvKey → Bool
  | .serial _ chars => decide (chars.length ≤ 255)
  | .handle _ _ | .location _ | .epoch => true

/-- R181, R193: whether a key is one its table and verb take, its numbers in range. DEFINE carries no key, but for the epoch key
of the inventory table (R64, log 47). -/
def Key.fits (verb : Verb) (table : TableId) : Key → Bool
  | .record n => decide (verb ≠ .define ∧ table ≠ .inventory ∧ table ≠ .alert ∧ n < tableSize table)
  | .inv k => decide (table = .inventory ∧ (verb = .define → k = .epoch)) && k.wellFormed
  | .alert _ => decide (verb ≠ .define ∧ table = .alert)
  | .noKey => decide (verb = .define)

/-- R192: an item of a request as bytes carry it: a field number of one byte and at most 254 value bytes. -/
def Item.encodable (i : Item) : Bool :=
  decide (i.field ≤ 255) && (match i.value with | some v => decide (v.length ≤ 254) | none => true)

/-- Whether a list of handles of a match names at most two channels, each once (R43: a blade asks for at most two). -/
def matchWellFormed (handles : List (Fin 32)) : Bool :=
  decide (handles.length ≤ 2) && allDistinct (handles.map Fin.val)

/-- The check of a command. -/
def Instr.wellFormed : Instr → Bool
  | .capRequest _ limit | .uncapRequest _ limit => decide (limit ≤ 2000)
  | .grantRequest _ grant level => decide (0 < grant ∧ grant ≤ 2000) && decide (level ≠ .none)
  | .matchHandoff _ handles => matchWellFormed handles
  | .uplinkFrameCompletion _ frame | .laneFrameCompletion _ frame => decide (frame.tag ≤ 4095)
  | .unknownPortCommand command => decide (command.toNat = 0 ∨ 3 < command.toNat)
  | .unacceptedVerb verb table key => !table.accepts verb && verb.reaches table && key.fits verb table
  | .fetchInventory key | .retireInventory key => key.wellFormed
  | .amendSlot _ items => amendWellFormed .slot items && items.all Item.encodable
  | .amendInventory key items => key.wellFormed && amendWellFormed .inventory items && items.all Item.encodable
  | .amendZone _ items => amendWellFormed .zone items && items.all Item.encodable
  | .amendChannel _ items => amendWellFormed .channel items && items.all Item.encodable
  | .amendSettings items => amendWellFormed .settings items && items.all Item.encodable
  | .defineChannel items => defineWellFormed items && items.all Item.encodable
  | .ack o causes => causesBelong o causes
  | .orderPin _ band => decide (band ≤ 255)
  | .coldReset | .slotInputEdge _ _ _ | .contactDebounceExpiry _ _ | .latchDebounceExpiry _ | .pwrGoodChange _ _
  | .powerUpDelayExpiry _ | .resetHoldExpiry _ | .pollTimerExpiry _ | .drainTimerExpiry _ | .powerDownTimerExpiry _
  | .closeOrder _ | .shedOffAction _ | .thermalDrainRequest _ | .slotPageReceived _ _ | .slotResponseTimeout _
  | .slotQuietEnd _ | .settlementReport _ _ | .capOutcome _ _ | .uncapOutcome _ _ | .modulePresenceEdge _ _
  | .modulePresenceDebounceExpiry _ | .moduleResponse _ | .moduleResponseTimeout | .moduleQuietEnd | .psuPgChange _ _
  | .supplyStartDelayExpiry _ | .settlePeriodEnd _ | .countWindowEnd _ _ | .releaseTimerExpiry _ | .graceSecondTick _
  | .graceTimerExpiry _ | .uplinkFrameStart _ | .uplinkTransmitCompletion _ | .laneTransmitCompletion _
  | .uplLinkChange _ _ | .readStatus | .putRequest _ | .getResponse _ | .fetchSlot _ | .fetchSupply _ | .fetchPower
  | .fetchZone _ | .fetchFan _ | .fetchChannel _ | .fetchUplink _ | .fetchLane _ | .fetchSettings | .fetchAlert _
  | .retireChannel _ | .orderAdmit _ | .orderReadmit _ | .orderEvict _ | .orderForceOff _ | .orderRenegotiate _
  | .orderCap _ | .orderUncap _ | .orderRetrySupply _ | .orderCommitCurve _ | .orderUnpin _ | .orderRetryFan _
  | .orderPass _ | .orderHold _ | .orderBar _ | .orderFlush _ | .orderEnable _ | .orderDisable _ | .orderRestart => true

end Sys2Proof
end

