-- ==== Sys2Proof/Safety.lean ====
section
/-!
DEFINITION. What every step keeps: the invariants of the records, block by block, and the conditions under which commands are
taken. The statements are made of these.
-/

namespace Sys2Proof.Machine

/-! ## Slots (R3, R6, R7, R17, R18) -/

/-- A slot record whose fields agree with its state: the switch is CLOSED exactly in the powered states (R7), the reset is
RELEASED exactly in RUNNING, DRAINING and ADOPTING (R6), a hold reason is present exactly in HELD, a drain cause only in
DRAINING, where there always is one, and POWERING_DOWN (R3), and an outcome is kept exactly in POWERING_DOWN (R18). -/
abbrev Slot.coherent (s : Slot) : Prop :=
  s.switchClosed = s.state.powered ∧ s.resetReleased = s.state.released ∧
  (s.holdReason.isSome ↔ s.state = .held) ∧
  (s.state = .draining → s.drainCause.isSome) ∧
  (s.drainCause.isSome → s.state = .draining ∨ s.state = .poweringDown) ∧
  (s.outcome.isSome ↔ s.state = .poweringDown)

/-- Every slot record agrees with its state. -/
abbrev Chip.slotsCoherent (c : Chip) : Prop := ∀ k, (c.slot k).coherent

/-! ## Request port (R180 to R182) -/

/-- The request slot is PENDING or the response slot READY, never both. -/
abbrev Chip.portExclusive (c : Chip) : Prop := c.port.request = none ∨ c.port.response = none

/-! ## Alert index (R187, R189) -/

/-- An index that holds each object once, each with a cause set that is not empty. -/
abbrev alertsWellFormed (l : List AlertEntry) : Prop := (l.map AlertEntry.object).Nodup ∧ ∀ e ∈ l, e.causes ≠ 0

/-! ## Fans (R123, R126) -/

/-- A search under way: its trial is its partial result with the bit of its decision, and no later trial exceeds 63. -/
abbrev Search.bounded (s : Search) : Prop :=
  s.index ≤ 5 ∧ s.trial = s.partialResult + 2 ^ (5 - s.index) ∧ s.partialResult + 2 ^ (6 - s.index) ≤ 64

/-- A fan that drives no band above its reserved band (R123), with what keeps it so: bands are at most 63, a fan in
CALIBRATING or BOOST has the whole of its draw reserved (R126, R135), and its search stays below 64. -/
abbrev Fan.banded (r : Fan) : Prop :=
  r.band ≤ r.reservedBand ∧ r.reservedBand ≤ 63 ∧
  (r.state = .calibrating ∨ r.state = .boost → r.reservedBand = 63) ∧
  (∀ s, r.search = some s → s.bounded) ∧ (∀ b, r.pinnedBand = some b → b ≤ 63)

/-- Every fan drives a band it has reserved. -/
abbrev Chip.fansBanded (c : Chip) : Prop := ∀ f, (c.fan f).banded

/-! ## Channels (R151, R164) -/

/-- A channel whose frames lie in its cell range. -/
abbrev Channel.fits (ch : Channel) : Prop := ch.cellsInUse ≤ ch.cellCount

/-- Every channel's frames lie in its cell range. -/
abbrev Chip.channelsFit (c : Chip) : Prop := ∀ h ch, c.channel h = some ch → ch.fits

/-! ## Between events (R97) -/

/-- The end of an event: no queue service is owed, and no queue entry is marked as of the event. -/
abbrev Power.settled (p : Power) : Prop := p.serviceDue = false ∧ ∀ e ∈ p.queue, e.fresh = false

/-- The part between two commands. -/
abbrev Chip.quiescent (c : Chip) : Prop := c.power.settled

/-- The part with another chip and the same queue. -/
def State.onChip (s : State) (c : Chip) : State := { s with chip := c }

/-! ## When a request is taken (R180, R181) -/

/-- The request of a row is PENDING in the port, or both slots are EMPTY, and the row is put and taken at once (log 3). -/
abbrev Chip.takes (c : Chip) (i : Instr) : Prop := c.port.request = some i ∨ (c.port.request = none ∧ c.port.response = none)

/-- Table 67 step 4: the key names a record of its table. The epoch key and the keys of the alert table always do. -/
def Chip.keyNames (c : Chip) (table : TableId) : Key → Bool
  | .record n => decide (table ≠ .channel) || (keys 32).any fun h => decide (h.val = n) && (c.channel h).isSome
  | .inv .epoch => true
  | .inv k => match c.resolve k with
    | .found _ _ => true
    | .stale _ _ | .noRecord => false
  | .alert _ | .noKey => true

/-- The part after the answer to a request of a row: the request slot EMPTY, the response slot READY with the answer, and
overrun cleared if the row was put with its taking. -/
def Chip.answered (c : Chip) (i : Instr) (a : Answer) : Chip :=
  { c with port := { c.port with
      request := none, response := some (answerMessage i a),
      overrun := if c.port.request = some i then c.port.overrun else false } }

/-! ## What the events of one slot leave alone -/

/-- Every other slot's record and engine, the settings, the module link, and the request and response slots are as before. -/
abbrev Chip.onlySlot (k : Fin 16) (c c' : Chip) : Prop :=
  (∀ j, j ≠ k → c'.slot j = c.slot j ∧ c'.engine j = c.engine j) ∧ c'.settings = c.settings ∧ c'.modules = c.modules ∧
  c'.port.request = c.port.request ∧ c'.port.response = c.port.response

/-- As `onlySlot`, for the events that reach no unit's record: the inventory is as before too. -/
abbrev Chip.onlySlotRecord (k : Fin 16) (c c' : Chip) : Prop := c.onlySlot k c' ∧ c'.inventory = c.inventory

/-- R62: the unit at a location has left. The record bound there, if any, is DEPARTED with the next epoch and its other fields
kept; no other handle changes. -/
abbrev Chip.departs (l : Location) (c c' : Chip) : Prop :=
  (c.boundAt l = none → c'.inventory = c.inventory) ∧
  ∀ h r, c.boundAt l = some h → (c.invHandle h).record = some r →
    c'.inventory.epoch = c.inventory.epoch + 1 ∧
    c'.invHandle h = { generation := (c.invHandle h).generation,
                       record := some { r with present := false, changeEpoch := c.inventory.epoch + 1 } } ∧
    ∀ j, j ≠ h → c'.invHandle j = c.invHandle j

/-- R141, R142, R148: whether an evaluation leaves a zone's emergency ACTIVE, with the demand it finds and the critical
margin in force. -/
def Chip.emergencyAfter (c : Chip) (z : Fin 4) (demand : Option Nat) (critical : Nat) : Bool :=
  c.fanCondition z || demand.any fun d => decide (d < if (c.zone z).emergency then critical + 5 else critical + 1)

/-- R94: a slot's grant is given back: grant 0, level NONE, cap set empty, bookkeeping cleared, and no entry of the slot in the
grant queue or the shed list. -/
abbrev Chip.released (c : Chip) (k : Fin 16) : Prop :=
  c.grant k = { grant := 0, level := .none, capSet := .empty, stage := .none, capRequest := none, uncapRequest := false } ∧
  c.queueEntry k = none ∧ ∀ e ∈ c.power.shed, e.slot ≠ k

/-! ## What a lane sends next (R173) -/

/-- A channel of the slot has a frame on its down queue. -/
abbrev Chip.readyDown (c : Chip) (k : Fin 16) (h : Fin 32) : Prop :=
  ((c.channel h).any fun ch => decide (ch.slot = k ∧ ch.down ≠ [])) = true

/-- R173 step 1: the lane takes this handle. It is ready, and among the ready handles it is the lowest above the transmit
pointer, or, when none stands above it, the lowest of all. -/
abbrev Chip.takesDown (c : Chip) (k : Fin 16) (pointer : Option (Fin 32)) (h : Fin 32) : Prop :=
  let above (j : Fin 32) : Bool := pointer.all fun p => decide (p < j)
  c.readyDown k h ∧ ∀ j, c.readyDown k j → if above h then above j → h ≤ j else above j = false ∧ h ≤ j

/-- R173: what becomes of an idle lane: with no channel ready it stays idle; else it sends the head of the channel it takes,
and points at it. -/
abbrev Chip.laneSends (c : Chip) (k : Fin 16) (old new : Lane) : Prop :=
  ((∀ h, ¬ c.readyDown k h) → new = { old with sending := none }) ∧
  ∀ h, c.takesDown k old.pointer h → new = { old with pointer := some h, sending := some (.stored h) }

/-! ## Definitions of channels (R153) -/

/-- R153 step 1: the cases in which a definition is out of range. -/
abbrev Definition.breaksRange (d : Definition) : Prop :=
  15 < d.slot ∨ d.base = 0 ∨ 4094 < d.base ∨ d.limit = 0 ∨ 4094 < d.limit ∨ d.limit < d.base ∨ 256 < d.limit - d.base + 1 ∨
  d.maxFrame < 64 ∨ 1536 < d.maxFrame ∨ d.firstCell < 24 ∨ 512 < d.firstCell + d.cellCount ∨ 128 < d.cellCount ∨
  d.cellCount < 2 * ((d.maxFrame + 127) / 128)

/-- R153 step 3: a record other than the one left out shares a tag or a cell with a definition. -/
abbrev Definition.sharesWith (d : Definition) (c : Chip) (except : Option (Fin 32)) : Prop :=
  ∃ h, some h ≠ except ∧ ((c.channel h).any fun ch => decide ((d.base ≤ ch.limit ∧ ch.base ≤ d.limit) ∨
    (d.firstCell < ch.firstCell + ch.cellCount ∧ ch.firstCell < d.firstCell + d.cellCount))) = true

/-- R154: the definition as it would stand after the named fields are replaced, each named list value being one of its list. -/
abbrev Channel.amendedTo (ch : Channel) (items : List Item) (d : Definition) : Prop :=
  let new (field old : Nat) : Nat := (numberOf items field).getD old
  let fallback := new 6 (if ch.fallback then 0 else 1)
  let autoPass := new 7 (if ch.autoPass then 1 else 0)
  d.slot = new 2 ch.slot.val ∧ d.base = new 3 ch.base ∧ d.limit = new 4 ch.limit ∧ d.preferred.val = new 5 ch.preferred.val ∧
  fallback < 2 ∧ d.fallback = decide (fallback = 0) ∧ autoPass < 2 ∧ d.autoPass = decide (autoPass = 1) ∧
  d.maxFrame = new 8 ch.maxFrame ∧ d.firstCell = new 9 ch.firstCell ∧ d.cellCount = new 10 ch.cellCount

/-! ## Alerts and links -/

/-- A cause stands on an object in the alert index. -/
abbrev Chip.alerted (c : Chip) (o : AlertObject) (x : Cause) : Prop := causesOf o c.port.alerts &&& x.mask ≠ 0

/-- The link of a slot is free: no exchange in flight, no quiet period, no phase, no settlement, no renegotiation asked for,
and an empty list. -/
abbrev Engine.free (e : Engine) : Prop :=
  e.inFlight = none ∧ e.quiet = false ∧ e.phase = .idle ∧ e.settlement = none ∧ e.renegRequest = false ∧ e.list = .empty

/-- A page sent as attempt 1. -/
def sentPage (request : PageRequest) (toggle : Bool) : Option Exchange :=
  some { request := request, toggle := toggle, second := false }

end Sys2Proof.Machine
end

