-- ==== Sys2Proof/Certificates/Slice0/Obligations.lean ====
section
/-!
DEFINITION. The statements for the provers, chapter by chapter of the spec. A command's statement says that it answers a next
state, and what that state holds.
-/

open Sys2Proof Sys2Proof.Machine

/-! ## The queue, the step and cold reset -/

/-- The step takes the command at the front of the queue and runs it on the part with the rest of the queue. -/
def Obligations.StepTakesFrontCommand : Prop :=
  ∀ (i : Instr) (s : State), step { s with pending := i :: s.pending } = exec i s

/-- With no command waiting, the step takes the oldest message in flight, else the request PENDING in the port, else it
idles. The model's choice (log 2). -/
def Obligations.StepWithEmptyQueue : Prop :=
  ∀ s : State, s.pending = [] →
    (∀ m rest, s.chip.messages = m :: rest → step s = exec m s) ∧
    (∀ i, s.chip.messages = [] → s.chip.port.request = some i → step s = exec i s) ∧
    (s.chip.messages = [] → s.chip.port.request = none → step s = .next s)

/-- Every command, on every state, answers a next state with the queue as it was. -/
def Obligations.EveryCommandAnswersNext : Prop :=
  ∀ (i : Instr) (s : State), ∃ c, exec i s = .next (s.onChip c)

/-- COLD_RESET: the named fields of every slot record, engine, inventory handle, supply, grant, fan, zone, uplink and lane are
at their reset values, no channel exists, the module link, the grant queue, the shed list and the port are empty, and every
setting is at its reset value; power good, the supply power good and the link fields are at the levels of their pins, and the
debounce timers of the slot inputs and of the presence inputs of the bays run, their fields OPEN and ABSENT. A fan's fields
are those R122 gives a value; its search target is left open. -/
def Obligations.ColdResetWritesResetValues : Prop :=
  (∀ s : State, ∃ t, exec .coldReset s = .next t ∧ ∀ k,
    let r := t.chip.slot k
    let e := t.chip.engine k
    r.state = .empty ∧ r.holdReason = none ∧ r.drainCause = none ∧
    r.early = { pin := (s.chip.slot k).early.pin, field := false, timer := true } ∧
    r.late = { pin := (s.chip.slot k).late.pin, field := false, timer := true } ∧
    r.latch = { pin := (s.chip.slot k).latch.pin, field := false, timer := true } ∧
    r.handle = none ∧ r.terms = none ∧ r.priorityOverride = none ∧ r.switchClosed = false ∧
    r.powerGood = (s.chip.slot k).powerGood ∧ r.resetReleased = false ∧ r.lastStatus = none ∧ r.silence = 0 ∧
    r.silent = false ∧ r.overdraw = 0 ∧
    r.powerUpDelay = none ∧ r.resetHold = none ∧ r.pollTimer = none ∧ r.drainTimer = none ∧ r.powerDownTimer = none ∧
    e.free ∧ e.toggle = false ∧ e.responses = 0 ∧ e.draft = none) ∧
  (∀ s : State, ∃ t, exec .coldReset s = .next t ∧ t.pending = s.pending ∧ t.chip.messages = [] ∧
    (∀ h, t.chip.invHandle h = { generation := 0, record := none }) ∧ t.chip.inventory.epoch = 0 ∧
    t.chip.modules.queue = [] ∧ t.chip.modules.reading = none ∧ t.chip.modules.quiet = false ∧
    (∀ bay, t.chip.modules.bay bay = { pin := (s.chip.modules.bay bay).pin, field := false, timer := true }) ∧
    (∀ b, t.chip.supply b =
      { state := .absent, failReason := none, handle := none, capacity := 0, enable := false,
        powerGood := (s.chip.supply b).powerGood, startDelay := false }) ∧
    (∀ k, t.chip.grant k =
      { grant := 0, level := .none, capSet := .empty, stage := .none, capRequest := none, uncapRequest := false }) ∧
    t.chip.power.queue = [] ∧ t.chip.power.shed = [] ∧ t.chip.fanReservations = 0 ∧
    (∀ z,
      (let q : Curve := #v[⟨40, 3000⟩, ⟨30, 4500⟩, ⟨20, 6500⟩, ⟨15, 9000⟩, ⟨10, 12000⟩, ⟨5, 16000⟩]
       t.chip.zone z = { active := q, staged := q, demand := none, target := 3000, emergency := false, cause := none,
                         grace := none, graceTimer := false })) ∧
    (∀ f,
      (let r := t.chip.fan f
       r.state = .absent ∧ r.handle = none ∧ r.assumed = false ∧ r.ratedDraw = 0 ∧ r.maxSpeed = 0 ∧ r.pulses = 0 ∧
       r.band = 0 ∧ r.reservedBand = 0 ∧ r.target = 0 ∧ r.measured = 0 ∧ r.lockCount = 0 ∧ r.search = none ∧
       r.pinnedBand = none ∧ r.weakCount = 0 ∧ r.window = .none ∧ r.stallCount = 0 ∧ r.unlockCount = 0 ∧
       r.releaseTimer = false)) ∧
    (∀ h, t.chip.channel h = none) ∧
    (∀ u, (t.chip.uplink u).link = (s.chip.uplink u).link ∧ (t.chip.uplink u).admin = true ∧
      (t.chip.uplink u).egress = [] ∧ (t.chip.uplink u).receiving = false ∧
      (t.chip.uplink u).counters = { framesIn := 0, framesOut := 0, unmatched := 0, checkErrors := 0, flushed := 0 }) ∧
    (∀ k, (t.chip.lane k).pointer = none ∧
      (t.chip.lane k).counters = { framesIn := 0, stray := 0, idleDrops := 0, checkErrors := 0 }) ∧
    t.chip.port.request = none ∧ t.chip.port.response = none ∧ t.chip.port.overrun = false ∧
    t.chip.port.restartWaiting = false ∧ t.chip.port.alerts = [] ∧
    t.chip.settings =
      { autoAdmission := false, policy := .nPlus1, baseDraw := 150, slotCeiling := 900, floorAdmission := true,
        zoneMap := #v[0, 0, 0, 0, 1, 1, 1, 1, 2, 2, 2, 2, 3, 3, 3, 3], powerUpDelay := 200, resetHold := 100,
        drainTimeout := 30, shedDrainTimeout := 10, pollInterval := 1000, criticalMargin := 3, emergencyGrace := 30,
        defaultFanDraw := 60, defaultFanSpeed := 16000, defaultFanPulses := 2 })

/-! ## Inputs and slot timers (chapter 1, section 3.7) -/

/-- SLOT_INPUT_EDGE and MODULE_PRESENCE_EDGE: the pin has the new level and its debounce timer runs; the field and everything
else is as before. -/
def Obligations.InputEdgesStartDebounce : Prop :=
  (∀ (s : State) (k : Fin 16) (level : Bool), s.chip.quiescent →
    exec (.slotInputEdge k .early level) s = .next (s.onChip (setSlot k { s.chip.slot k with
      early := { pin := level, field := (s.chip.slot k).early.field, timer := true } } s.chip)) ∧
    exec (.slotInputEdge k .late level) s = .next (s.onChip (setSlot k { s.chip.slot k with
      late := { pin := level, field := (s.chip.slot k).late.field, timer := true } } s.chip)) ∧
    exec (.slotInputEdge k .latch level) s = .next (s.onChip (setSlot k { s.chip.slot k with
      latch := { pin := level, field := (s.chip.slot k).latch.field, timer := true } } s.chip))) ∧
  (∀ (s : State) (bay : Bay) (level : Bool), s.chip.quiescent →
    exec (.modulePresenceEdge bay level) s = .next (s.onChip (setModules (s.chip.modules.putBay bay
      { pin := level, field := (s.chip.modules.bay bay).field, timer := true }) s.chip)))

/-- CONTACT_DEBOUNCE_EXPIRY and LATCH_DEBOUNCE_EXPIRY: with the timer running, the field becomes the level of the pin and
the timer stops, and only the slot is touched; a level that agrees with the field changes nothing further. -/
def Obligations.DebounceExpiryWritesField : Prop :=
  ∀ (s : State) (k : Fin 16), s.chip.quiescent →
    ((s.chip.slot k).early.timer = true → ∃ t, exec (.contactDebounceExpiry k .early) s = .next t ∧
      (t.chip.slot k).early = (s.chip.slot k).early.expire ∧ s.chip.onlySlot k t.chip ∧
      ((s.chip.slot k).early.pin = (s.chip.slot k).early.field →
        t.chip = setSlot k { s.chip.slot k with early := (s.chip.slot k).early.expire } s.chip)) ∧
    ((s.chip.slot k).late.timer = true → ∃ t, exec (.contactDebounceExpiry k .late) s = .next t ∧
      (t.chip.slot k).late = (s.chip.slot k).late.expire ∧ s.chip.onlySlot k t.chip ∧
      ((s.chip.slot k).late.pin = (s.chip.slot k).late.field →
        t.chip = setSlot k { s.chip.slot k with late := (s.chip.slot k).late.expire } s.chip)) ∧
    ((s.chip.slot k).latch.timer = true → ∃ t, exec (.latchDebounceExpiry k) s = .next t ∧
      (t.chip.slot k).latch = (s.chip.slot k).latch.expire ∧ s.chip.onlySlot k t.chip ∧
      ((s.chip.slot k).latch.pin = (s.chip.slot k).latch.field →
        t.chip = setSlot k { s.chip.slot k with latch := (s.chip.slot k).latch.expire } s.chip))

/-- A contact of a slot in EMPTY debounced to PRESENT, the other being PRESENT: the slot enters SEATED, or INTERROGATING with
its interrogation started when its latch is CLOSED, and the first INTERROGATE sent when its link is free. -/
def Obligations.ContactsMadeBeginAdmission : Prop :=
  ∀ (s : State) (k : Fin 16) (x : Contact),
    (let r := s.chip.slot k
     let moved := match x with | .early => r.early | .late => r.late
     let other := match x with | .early => r.late | .late => r.early
     r.state = .empty → moved.timer = true → moved.pin = true → moved.field = false → other.field = true →
     ∃ t, exec (.contactDebounceExpiry k x) s = .next t ∧
       (r.latch.field = false → (t.chip.slot k).state = .seated) ∧
       (r.latch.field = true → (t.chip.slot k).state = .interrogating ∧ (t.chip.engine k).phase = .interrogation ∧
         ((s.chip.engine k).inFlight = none → (s.chip.engine k).quiet = false →
           (t.chip.engine k).inFlight = sentPage .interrogate false)) ∧
       s.chip.onlySlotRecord k t.chip)

/-- A contact debounced to ABSENT in any state but EMPTY: the slot is EMPTY with every field R3 removes removed, its switch
OPEN, its reset ASSERTED, its timers stopped and its engine emptied; from a powered state SURPRISE_REMOVAL is raised and
every channel of the slot is held for SLOT with its queues empty. From a state that holds, awaits or still has to release a
grant, the grant is given back (R94); a slot that holds a handle is vacated, and the record bound there departs (R62). -/
def Obligations.ContactLossEmptiesSlot : Prop :=
  ∀ (s : State) (k : Fin 16) (x : Contact),
    (let moved := match x with | .early => (s.chip.slot k).early | .late => (s.chip.slot k).late
     (s.chip.slot k).state ≠ .empty → moved.timer = true → moved.pin = false → moved.field = true →
     ∃ t, exec (.contactDebounceExpiry k x) s = .next t ∧
      (let r := t.chip.slot k
       r.state = .empty ∧ r.switchClosed = false ∧ r.resetReleased = false ∧ r.holdReason = none ∧ r.drainCause = none ∧
       r.handle = none ∧ r.terms = none ∧ r.priorityOverride = none ∧ r.lastStatus = none ∧ r.silence = 0 ∧
       r.silent = false ∧ r.overdraw = 0 ∧ r.powerUpDelay = none ∧ r.resetHold = none ∧ r.pollTimer = none ∧
       r.drainTimer = none ∧ r.powerDownTimer = none) ∧
      (let e := t.chip.engine k
       e.inFlight = none ∧ e.phase = .idle ∧ e.settlement = none ∧ e.renegRequest = false ∧ e.list = .empty ∧
       e.draft = none ∧ e.quiet = ((s.chip.engine k).quiet || (s.chip.engine k).inFlight.isSome)) ∧
      ((s.chip.slot k).state.powered = true → t.chip.alerted (.slot k) .surpriseRemoval ∧
        ∀ h ch, t.chip.channel h = some ch → ch.slot = k →
          ch.state = .hold ∧ ch.holdCause = some .slot ∧ ch.down = [] ∧ ch.up = []) ∧
      ((s.chip.slot k).state.holdsGrant = true → t.chip.released k) ∧
      ((s.chip.slot k).handle.isSome = true → s.chip.departs (.slot k) t.chip) ∧
      ((s.chip.slot k).handle = none → t.chip.inventory = s.chip.inventory) ∧
      s.chip.onlySlot k t.chip)

/-- The latch debounced to OPEN, by the state of the slot (Table 9, R20, R21), and debounced to CLOSED: a slot in SEATED enters
INTERROGATING; in every other state the change is recorded. -/
def Obligations.LatchChangeByState : Prop :=
  (∀ (s : State) (k : Fin 16),
    (s.chip.slot k).latch.timer = true → (s.chip.slot k).latch.pin = false → (s.chip.slot k).latch.field = true →
    ∃ t, exec (.latchDebounceExpiry k) s = .next t ∧ (t.chip.slot k).latch.field = false ∧
      (let r := t.chip.slot k
       match (s.chip.slot k).state with
       | .interrogating | .negotiating | .awaitingAdmit | .awaitingGrant | .held =>
         r.state = .seated ∧ r.terms = none ∧ r.holdReason = none ∧ r.handle = (s.chip.slot k).handle
       | .powering | .starting =>
         if (s.chip.slot k).powerGood then
           r.state = .poweringDown ∧ r.drainCause = some .latch ∧ r.switchClosed = false ∧ r.resetReleased = false ∧
             r.powerDownTimer = some 500
         else r.state = .seated ∧ r.switchClosed = false
       | .running =>
         r.state = .draining ∧ r.drainCause = some .latch ∧ r.drainTimer = some s.chip.settings.drainTimeout ∧
           r.switchClosed = true ∧ r.resetReleased = true
       | .adopting =>
         r.state = .draining ∧ r.drainCause = some ((s.chip.slot k).adoptCause.getD .latch) ∧ r.drainTimer.isSome ∧
           r.pollTimer.isSome
       | .empty | .seated | .draining | .poweringDown =>
         r = { s.chip.slot k with latch := (s.chip.slot k).latch.expire }) ∧
      s.chip.onlySlotRecord k t.chip) ∧
  (∀ (s : State) (k : Fin 16),
    (s.chip.slot k).latch.timer = true → (s.chip.slot k).latch.pin = true → (s.chip.slot k).latch.field = false →
    ∃ t, exec (.latchDebounceExpiry k) s = .next t ∧ (t.chip.slot k).latch.field = true ∧
      ((s.chip.slot k).state = .seated →
        (t.chip.slot k).state = .interrogating ∧ (t.chip.engine k).phase = .interrogation) ∧
      ((s.chip.slot k).state ≠ .seated →
        t.chip.slot k = { s.chip.slot k with latch := (s.chip.slot k).latch.expire } ∧
          t.chip.engine k = s.chip.engine k) ∧
      s.chip.onlySlotRecord k t.chip)

/-- PWR_GOOD_CHANGE, by the state of the slot and the new level (Table 8): the field follows the line; an assertion starts a
slot in POWERING, a deassertion is a power fault in the four states with blade power proven and completes a power-down. A
power fault and the completion give the grant back (R94). -/
def Obligations.PowerGoodByState : Prop :=
  ∀ (s : State) (k : Fin 16) (level : Bool), (s.chip.slot k).powerGood = !level →
    ∃ t, exec (.pwrGoodChange k level) s = .next t ∧ (t.chip.slot k).powerGood = level ∧
      (let r := t.chip.slot k
       match (s.chip.slot k).state, level with
       | .powering, true =>
         r.state = .starting ∧ r.powerUpDelay = none ∧ r.resetHold = some s.chip.settings.resetHold ∧
           r.switchClosed = true ∧ r.resetReleased = false
       | .starting, false | .running, false | .draining, false | .adopting, false =>
         r.state = .held ∧ r.holdReason = some .powerFault ∧ r.drainCause = none ∧ r.switchClosed = false ∧
           r.resetReleased = false ∧ r.pollTimer = none ∧ r.drainTimer = none ∧ r.handle = (s.chip.slot k).handle ∧
           r.terms = (s.chip.slot k).terms ∧ t.chip.alerted (.slot k) .powerFault ∧ t.chip.alerted (.slot k) .held ∧
           t.chip.released k
       | .poweringDown, false =>
         r.switchClosed = false ∧ r.powerDownTimer = none ∧ t.chip.released k ∧
           (if (s.chip.slot k).latch.field then
             (match (s.chip.slot k).outcome.getD .interrogating with
              | .interrogating => r.state = .interrogating
              | .heldEvicted => r.state = .held ∧ r.holdReason = some .evicted
              | .heldShed => r.state = .held ∧ r.holdReason = some .shed ∧ t.chip.alerted (.slot k) .shedOff
              | .heldThermal => r.state = .held ∧ r.holdReason = some .thermal ∧ t.chip.alerted (.slot k) .thermalDrain
              | .heldAdoptMismatch => r.state = .held ∧ r.holdReason = some .adoptMismatch
              | .heldForced => r.state = .held ∧ r.holdReason = some .forced
              | .heldPowerFault => r.state = .held ∧ r.holdReason = some .powerFault)
           else r.state = .seated)
       | _, _ => r = { s.chip.slot k with powerGood := level }) ∧
      s.chip.onlySlotRecord k t.chip

/-- The four slot timers. POWER_UP_DELAY_EXPIRY in POWERING raises POWER_FAULT and powers down, which with power good
deasserted ends at once in HELD or SEATED by the latch, the grant given back. When PWR_GOOD arrives together with it the slot
waits in POWERING_DOWN with power good ASSERTED; that the two arrive together when PWR_GOOD_CHANGE is the command next in the
queue is the model's choice (DESIGN CHOICE, log 40). RESET_HOLD_EXPIRY in STARTING
enters RUNNING, the reset RELEASED and the poll timer started; auto pass takes the granted channels of the slot in HOLD that ask
for it to PASS, on the other uplink where they may fall back, or to HOLD for UPLINK with UPLINK_HOLD, and no other channel (R163);
a slot at level FLOOR with cap set {BUDGET}, in a zone without emergency, waits for its uplift, or is served it at once when
nothing waits before it (R95, R100); DRAIN_TIMER_EXPIRY in DRAINING enters POWERING_DOWN with the
outcome of Table 10; POWER_DOWN_TIMER_EXPIRY in POWERING_DOWN enters HELD with POWER_FAULT. -/
def Obligations.SlotTimersMoveSlot : Prop :=
  (∀ (s : State) (k : Fin 16), (s.chip.slot k).state = .powering → (s.chip.slot k).powerUpDelay.isSome = true →
    ∃ t, exec (.powerUpDelayExpiry k) s = .next t ∧ t.chip.alerted (.slot k) .powerFault ∧
      (t.chip.slot k).switchClosed = false ∧ (t.chip.slot k).drainCause = none ∧
      (let together := s.pending.head? = some (.pwrGoodChange k true)
       ((s.chip.slot k).powerGood = true ∨ together →
         (t.chip.slot k).state = .poweringDown ∧ (t.chip.slot k).powerDownTimer = some 500 ∧
           (t.chip.slot k).powerGood = true ∧ (t.chip.slot k).outcome = some .heldPowerFault) ∧
       ((s.chip.slot k).powerGood = false → ¬ together → t.chip.released k ∧
         ((s.chip.slot k).latch.field = true →
           (t.chip.slot k).state = .held ∧ (t.chip.slot k).holdReason = some .powerFault) ∧
         ((s.chip.slot k).latch.field = false → (t.chip.slot k).state = .seated))) ∧
      s.chip.onlySlotRecord k t.chip) ∧
  (∀ (s : State) (k : Fin 16), (s.chip.slot k).state = .starting → (s.chip.slot k).resetHold.isSome = true →
    ∃ t, exec (.resetHoldExpiry k) s = .next t ∧
      (t.chip.slot k).state = .running ∧ (t.chip.slot k).resetReleased = true ∧ (t.chip.slot k).switchClosed = true ∧
      (t.chip.slot k).resetHold = none ∧ (t.chip.slot k).pollTimer = some s.chip.settings.pollInterval ∧
      (t.chip.slot k).terms = (s.chip.slot k).terms ∧ (t.chip.slot k).handle = (s.chip.slot k).handle ∧
      (t.chip.slot k).lastStatus = (s.chip.slot k).lastStatus ∧ t.chip.engine k = s.chip.engine k ∧
      (∀ h ch, s.chip.channel h = some ch →
        (let usable (u : Fin 2) : Prop := (s.chip.uplink u).link = true ∧ (s.chip.uplink u).admin = true
         let taken : Prop := ch.slot = k ∧ ch.granted = true ∧ ch.autoPass = true ∧ ch.state = .hold
         (taken → usable ch.active → t.chip.channel h = some { ch with state := .pass, holdCause := none }) ∧
         (taken → ¬ usable ch.active → ch.fallback = true → usable (otherUplink ch.active) →
           t.chip.channel h = some { ch with state := .pass, holdCause := none, active := otherUplink ch.active }) ∧
         (taken → ¬ usable ch.active → ch.fallback = false ∨ ¬ usable (otherUplink ch.active) →
           t.chip.channel h = some { ch with holdCause := some .uplink } ∧ t.chip.alerted (.channel h) .uplinkHold) ∧
         (¬ taken → t.chip.channel h = some ch))) ∧
      ((s.chip.grant k).level = .floor → (s.chip.grant k).capSet = { CapSet.empty with budget := true } →
        s.chip.queueEntry k = none → (s.chip.zone (s.chip.slotZone k)).emergency = false →
        (t.chip.zone (s.chip.slotZone k)).emergency = false →
        (let need := s.chip.runDraw k - (s.chip.grant k).grant
         (s.chip.available < need → ∃ e ∈ t.chip.power.queue, e.slot = k ∧ e.kind = .uplift ∧ e.need = need) ∧
         (0 < s.chip.runDraw k → (need : Int) ≤ s.chip.available → s.chip.power.queue = [] → s.chip.power.shed = [] →
           t.chip.power.queue = [] ∧ (t.chip.grant k).grant = s.chip.runDraw k ∧ (t.chip.grant k).level = .full ∧
           (t.chip.grant k).uncapRequest = true ∧ Instr.uncapRequest k (s.chip.runDraw k) ∈ t.chip.messages))) ∧
      s.chip.onlySlotRecord k t.chip) ∧
  (∀ (s : State) (k : Fin 16) (x : DrainCause), (s.chip.slot k).state = .draining →
    (s.chip.slot k).drainTimer.isSome = true → (s.chip.slot k).drainCause = some x → (s.chip.slot k).powerGood = true →
    ∃ t, exec (.drainTimerExpiry k) s = .next t ∧
      (let r := t.chip.slot k
       r.state = .poweringDown ∧ r.drainCause = some x ∧ r.switchClosed = false ∧ r.resetReleased = false ∧
       r.pollTimer = none ∧ r.drainTimer = none ∧ r.powerDownTimer = some 500 ∧
       r.outcome = some (match x with
         | .latch => .interrogating | .evict => .heldEvicted | .shed => .heldShed | .thermal => .heldThermal
         | .adoptMismatch => .heldAdoptMismatch)) ∧
      s.chip.onlySlotRecord k t.chip) ∧
  (∀ (s : State) (k : Fin 16), (s.chip.slot k).state = .poweringDown → (s.chip.slot k).powerDownTimer.isSome = true →
    ∃ t, exec (.powerDownTimerExpiry k) s = .next t ∧
      (t.chip.slot k).state = .held ∧ (t.chip.slot k).holdReason = some .powerFault ∧
      (t.chip.slot k).drainCause = none ∧ (t.chip.slot k).powerDownTimer = none ∧ t.chip.released k ∧
      t.chip.alerted (.slot k) .powerFault ∧ t.chip.alerted (.slot k) .held ∧ s.chip.onlySlotRecord k t.chip)

/-- POLL_TIMER_EXPIRY in RUNNING and DRAINING: the timer starts again with the poll interval setting and a POLL is asked for:
sent at once on a free link, and waiting in the list behind an exchange in flight. Nothing else changes. -/
def Obligations.PollTimerExpiryAsksPoll : Prop :=
  ∀ (s : State) (k : Fin 16), s.chip.quiescent → (s.chip.slot k).state.isCounted = true →
    (s.chip.slot k).pollTimer.isSome = true →
    (let c := setSlot k { s.chip.slot k with pollTimer := some s.chip.settings.pollInterval } s.chip
     let e := s.chip.engine k
     (e.free → exec (.pollTimerExpiry k) s =
       .next (s.onChip (setEngine k { e with inFlight := sentPage .poll false } c))) ∧
     (e.inFlight.isSome = true → exec (.pollTimerExpiry k) s =
       .next (s.onChip (setEngine k { e with list := { e.list with poll := true } } c))))

/-- CLOSE_ORDER for a slot in AWAITING_GRANT whose close was ordered: the switch closes; the slot enters POWERING with the
power-up delay running, or STARTING with the reset hold running when power good is already ASSERTED. SHED_OFF_ACTION and
THERMAL_DRAIN_REQUEST, by the state of the slot (Table 9). -/
def Obligations.CloseOrdersAndDrainRequests : Prop :=
  (∀ (s : State) (k : Fin 16), (s.chip.slot k).state = .awaitingGrant → (s.chip.grant k).stage = .closing →
    ∃ t, exec (.closeOrder k) s = .next t ∧
      (t.chip.slot k).switchClosed = true ∧ (t.chip.slot k).resetReleased = false ∧
      (t.chip.slot k).lastStatus = none ∧ (t.chip.slot k).silence = 0 ∧ (t.chip.slot k).silent = false ∧
      (t.chip.slot k).overdraw = 0 ∧ (t.chip.slot k).terms = (s.chip.slot k).terms ∧
      ((s.chip.slot k).powerGood = false → (t.chip.slot k).state = .powering ∧
        (t.chip.slot k).powerUpDelay = some s.chip.settings.powerUpDelay) ∧
      ((s.chip.slot k).powerGood = true → (t.chip.slot k).state = .starting ∧ (t.chip.slot k).powerUpDelay = none ∧
        (t.chip.slot k).resetHold = some s.chip.settings.resetHold) ∧
      s.chip.onlySlotRecord k t.chip) ∧
  (∀ (s : State) (k : Fin 16),
    (∃ t, exec (.shedOffAction k) s = .next t ∧ s.chip.onlySlotRecord k t.chip ∧
      (let r := t.chip.slot k
       match (s.chip.slot k).state with
       | .running => r.state = .draining ∧ r.drainCause = some .shed ∧
           r.drainTimer = some s.chip.settings.shedDrainTimeout
       | .powering | .starting =>
         if (s.chip.slot k).powerGood then r.state = .poweringDown ∧ r.drainCause = some .shed ∧ r.outcome = some .heldShed
         else if (s.chip.slot k).latch.field then r.state = .held ∧ r.holdReason = some .shed
         else r.state = .seated
       | .adopting => r.state = .draining ∧ r.drainCause = some ((s.chip.slot k).adoptCause.getD .shed)
       | .empty | .seated | .interrogating | .negotiating | .awaitingAdmit | .awaitingGrant | .draining | .poweringDown
       | .held => r = s.chip.slot k)) ∧
    (∃ t, exec (.thermalDrainRequest k) s = .next t ∧ s.chip.onlySlotRecord k t.chip ∧
      (let r := t.chip.slot k
       match (s.chip.slot k).state with
       | .running => r.state = .draining ∧ r.drainCause = some .thermal ∧
           r.drainTimer = some s.chip.settings.drainTimeout
       | .adopting => r.state = .draining ∧ r.drainCause = some ((s.chip.slot k).adoptCause.getD .thermal)
       | .empty | .seated | .interrogating | .negotiating | .awaitingAdmit | .awaitingGrant | .powering | .starting
       | .draining | .poweringDown | .held => r = s.chip.slot k)))

/-- An expiry that arrives when its timer, period or window does not run, a response with no exchange or read in flight, and a
completion with no frame on the line, have no effect. Where the spec does not say so, it is the model's choice (log 39). -/
def Obligations.NothingRunningNothingTaken : Prop :=
  ∀ (s : State), s.chip.quiescent →
    (∀ k, ((s.chip.slot k).early.timer = false → exec (.contactDebounceExpiry k .early) s = .next s) ∧
      ((s.chip.slot k).late.timer = false → exec (.contactDebounceExpiry k .late) s = .next s) ∧
      ((s.chip.slot k).latch.timer = false → exec (.latchDebounceExpiry k) s = .next s) ∧
      ((s.chip.slot k).powerUpDelay = none → exec (.powerUpDelayExpiry k) s = .next s) ∧
      ((s.chip.slot k).resetHold = none → exec (.resetHoldExpiry k) s = .next s) ∧
      ((s.chip.slot k).pollTimer = none → exec (.pollTimerExpiry k) s = .next s) ∧
      ((s.chip.slot k).drainTimer = none → exec (.drainTimerExpiry k) s = .next s) ∧
      ((s.chip.slot k).powerDownTimer = none → exec (.powerDownTimerExpiry k) s = .next s)) ∧
    (∀ k page, ((s.chip.engine k).inFlight = none →
        exec (.slotPageReceived k page) s = .next s ∧ exec (.slotResponseTimeout k) s = .next s) ∧
      ((s.chip.engine k).quiet = false → exec (.slotQuietEnd k) s = .next s) ∧
      ((s.chip.lane k).sending = none → exec (.laneTransmitCompletion k) s = .next s)) ∧
    (∀ bay message, ((s.chip.modules.bay bay).timer = false → exec (.modulePresenceDebounceExpiry bay) s = .next s) ∧
      (s.chip.modules.reading = none →
        exec (.moduleResponse message) s = .next s ∧ exec .moduleResponseTimeout s = .next s) ∧
      (s.chip.modules.quiet = false → exec .moduleQuietEnd s = .next s)) ∧
    (∀ b, (s.chip.supply b).startDelay = false → exec (.supplyStartDelayExpiry b) s = .next s) ∧
    (∀ f pulses, ((s.chip.fan f).window ≠ .settle → exec (.settlePeriodEnd f) s = .next s) ∧
      ((s.chip.fan f).window ≠ .count → exec (.countWindowEnd f pulses) s = .next s) ∧
      ((s.chip.fan f).releaseTimer = false → exec (.releaseTimerExpiry f) s = .next s)) ∧
    (∀ z, (s.chip.zone z).graceTimer = false →
      exec (.graceSecondTick z) s = .next s ∧ exec (.graceTimerExpiry z) s = .next s) ∧
    (∀ u frame, ((s.chip.uplink u).receiving = false → exec (.uplinkFrameCompletion u frame) s = .next s) ∧
      ((s.chip.uplink u).sending = none → exec (.uplinkTransmitCompletion u) s = .next s))

/-! ## The slot link (chapter 2) -/

/-- CAP_REQUEST, UNCAP_REQUEST and GRANT_REQUEST. Behind an exchange in flight the request joins the list or takes the place of
a pending one of its kind; a CAP supersedes a pending UNCAP and an UNCAP a pending CAP, which is reported. On a free link it
is sent at once, GRANT with a settlement of the channels granted now. In EMPTY, SEATED, HELD and POWERING_DOWN it is refused
and reported abandoned. -/
def Obligations.ListRequestsAreTaken : Prop :=
  (∀ (s : State) (k : Fin 16) (w : Nat) (l : Level), s.chip.quiescent →
    (s.chip.slot k).state.keepsListEmpty = false → (s.chip.engine k).inFlight.isSome = true →
    (let e := s.chip.engine k
     let c (e' : Engine) (m : Instr) (posted : List Instr) : Chip :=
       setMessages (s.chip.messages.erase m ++ posted) (setEngine k e' s.chip)
     exec (.capRequest k w) s = .next (s.onChip
       (c { e with list := { e.list with cap := some w, uncap := none } } (.capRequest k w)
         (if e.list.uncap.isSome then [.uncapOutcome k .superseded] else []))) ∧
     exec (.uncapRequest k w) s = .next (s.onChip
       (c { e with list := { e.list with uncap := some w, cap := none } } (.uncapRequest k w)
         (if e.list.cap.isSome then [.capOutcome k .superseded] else []))) ∧
     exec (.grantRequest k w l) s = .next (s.onChip
       (c { e with list := { e.list with grant := some (w, l) } } (.grantRequest k w l) [])))) ∧
  (∀ (s : State) (k : Fin 16) (w : Nat) (l : Level), s.chip.quiescent →
    (s.chip.slot k).state.keepsListEmpty = false → (s.chip.engine k).free →
    (let e := s.chip.engine k
     let granted := (s.chip.hub.matchOrder.read k).filter fun h =>
       (s.chip.channel h).any fun ch => ch.granted && decide (ch.slot = k)
     let c (e' : Engine) (m : Instr) : Chip := setMessages (s.chip.messages.erase m) (setEngine k e' s.chip)
     exec (.capRequest k w) s = .next (s.onChip
       (c { e with inFlight := sentPage (.cap w) false } (.capRequest k w))) ∧
     exec (.uncapRequest k w) s = .next (s.onChip
       (c { e with inFlight := sentPage (.uncap w) false } (.uncapRequest k w))) ∧
     exec (.grantRequest k w l) s = .next (s.onChip
       (c { e with inFlight := sentPage (.grant w l) false, settlement := some { channels := granted, next := 0 } }
         (.grantRequest k w l))))) ∧
  (∀ (s : State) (k : Fin 16) (w : Nat) (l : Level), s.chip.quiescent →
    ((s.chip.slot k).state = .empty ∨ (s.chip.slot k).state = .seated ∨ (s.chip.slot k).state = .held ∨
      (s.chip.slot k).state = .poweringDown) →
    exec (.capRequest k w) s = .next (s.onChip
      (setMessages (s.chip.messages.erase (.capRequest k w) ++ [.capOutcome k .abandoned]) s.chip)) ∧
    exec (.uncapRequest k w) s = .next (s.onChip
      (setMessages (s.chip.messages.erase (.uncapRequest k w) ++ [.uncapOutcome k .abandoned]) s.chip)) ∧
    exec (.grantRequest k w l) s = .next (s.onChip
      (setMessages (s.chip.messages.erase (.grantRequest k w l) ++ [.settlementReport k .abandoned]) s.chip)))

/-- The first expiry of the response timer, and a page with a bad check byte at attempt 1, send the same page again as attempt
2. The second expiry fails the exchange and starts the quiet period: a CAP and an UNCAP are reported failed, a POLL raises
the silence count by one up to 3, with BLADE_SILENT and silent when it comes to 3, a SHUTDOWN has no further effect. A page of
an interrogation holds the slot in INTERROGATING with NO_ANSWER (R38, R9) and ends an adoption with the blade silent (Table 15);
a page of a negotiation holds the slot with NO_ANSWER (R41), one of a renegotiation raises DEGRADED and changes no terms (R54);
a GRANT or CHANNEL_GRANT fails the settlement, with DEGRADED in RUNNING (R45, R46). SLOT_QUIET_END: the quiet period ends; with
nothing waiting the link stays idle; else it sends, in this order (R35): the page of a running phase, NEGOTIATE of a
renegotiation asked for, and of the list SHUTDOWN, CAP, UNCAP, GRANT, POLL. -/
def Obligations.TimeoutsAndQuietPeriod : Prop :=
  (∀ (s : State) (k : Fin 16) (x : Exchange) (page : List Byte), s.chip.quiescent →
    (s.chip.engine k).inFlight = some x → x.second = false →
    (let resent : Chip := setEngine k { s.chip.engine k with inFlight := some { x with second := true } } s.chip
     exec (.slotResponseTimeout k) s = .next (s.onChip resent) ∧
     (byteSum page ≠ 0 → exec (.slotPageReceived k page) s = .next (s.onChip resent)))) ∧
  (∀ (s : State) (k : Fin 16) (x : Exchange), s.chip.quiescent → (s.chip.engine k).inFlight = some x → x.second = true →
    ∃ t, exec (.slotResponseTimeout k) s = .next t ∧
      (∀ w, x.request = .cap w → t.chip =
        setMessages (s.chip.messages ++ [.capOutcome k .failed])
          (setEngine k { s.chip.engine k with inFlight := none, quiet := true } s.chip)) ∧
      (∀ w, x.request = .uncap w → t.chip =
        setMessages (s.chip.messages ++ [.uncapOutcome k .failed])
          (setEngine k { s.chip.engine k with inFlight := none, quiet := true } s.chip)) ∧
      (x.request = .shutdown → t.chip =
        setEngine k { s.chip.engine k with inFlight := none, quiet := true } s.chip) ∧
      (x.request = .poll →
        (t.chip.engine k).inFlight = none ∧ (t.chip.engine k).quiet = true ∧
        (t.chip.slot k).silence = min 3 ((s.chip.slot k).silence + 1) ∧
        (t.chip.slot k).lastStatus = (s.chip.slot k).lastStatus ∧ (t.chip.slot k).state = (s.chip.slot k).state ∧
        (t.chip.slot k).overdraw = (s.chip.slot k).overdraw ∧
        ((s.chip.slot k).silence = 2 → (t.chip.slot k).silent = true ∧ t.chip.alerted (.slot k) .bladeSilent) ∧
        ((s.chip.slot k).silence ≠ 2 → (t.chip.slot k).silent = (s.chip.slot k).silent) ∧
        s.chip.onlySlotRecord k t.chip)) ∧
  (∀ (s : State) (k : Fin 16) (x : Exchange), s.chip.quiescent → (s.chip.engine k).inFlight = some x → x.second = true →
    (let e := s.chip.engine k
     let slot := s.chip.slot k
     let interrogates : Prop := x.request = .interrogate ∨ (x.request = .next ∧ e.phase = .interrogation)
     let negotiates : Prop := x.request = .negotiate ∨ (x.request = .next ∧ e.phase ≠ .interrogation)
     ∃ t, exec (.slotResponseTimeout k) s = .next t ∧ s.chip.onlySlotRecord k t.chip ∧ (t.chip.engine k).quiet = true ∧
       (t.chip.engine k).inFlight = none ∧
       (interrogates → slot.state = .interrogating →
         (t.chip.slot k).state = .held ∧ (t.chip.slot k).holdReason = some .noAnswer ∧ t.chip.alerted (.slot k) .held ∧
           (t.chip.slot k).handle = slot.handle ∧ (t.chip.engine k).phase = .idle) ∧
       (interrogates → slot.state = .adopting →
         (t.chip.slot k).silence = 3 ∧ (t.chip.slot k).silent = true ∧ t.chip.alerted (.slot k) .bladeSilent ∧
           (slot.adoptCause = none → (t.chip.slot k).state = .running ∧
             (t.chip.slot k).pollTimer = some s.chip.settings.pollInterval) ∧
           (∀ cause, slot.adoptCause = some cause → (t.chip.slot k).state = .draining ∧
             (t.chip.slot k).drainCause = some cause ∧ (t.chip.engine k).list.shutdown = true)) ∧
       (negotiates → e.phase = .negotiation → slot.state = .negotiating →
         (t.chip.slot k).state = .held ∧ (t.chip.slot k).holdReason = some .noAnswer ∧ t.chip.alerted (.slot k) .held ∧
           (t.chip.slot k).handle = slot.handle ∧ (t.chip.engine k).phase = .idle) ∧
       (negotiates → e.phase = .renegotiation → slot.state = .running →
         t.chip.slot k = slot ∧ t.chip.alerted (.slot k) .degraded ∧ (t.chip.engine k).phase = .idle ∧
           t.chip.grant k = s.chip.grant k) ∧
       ((∃ w l, x.request = .grant w l) ∨ (∃ b l, x.request = .channelGrant b l) →
         (t.chip.engine k).settlement = none ∧ Instr.settlementReport k .failed ∈ t.chip.messages ∧
           t.chip.slot k = slot ∧ (slot.state = .running → t.chip.alerted (.slot k) .degraded)))) ∧
  (∀ (s : State) (k : Fin 16), s.chip.quiescent → (s.chip.engine k).quiet = true → (s.chip.engine k).inFlight = none →
    (let e := s.chip.engine k
     let l := e.list
     let sends (e' : Engine) (p : PageRequest) (toggle : Bool) : Prop := exec (.slotQuietEnd k) s =
       .next (s.onChip (setEngine k { e' with quiet := false, inFlight := sentPage p toggle } s.chip))
     let granted := (s.chip.hub.matchOrder.read k).filter fun h =>
       (s.chip.channel h).any fun ch => ch.granted && decide (ch.slot = k)
     (e.phase ≠ .idle → sends e (if e.responses ≠ 0 then .next
       else if e.phase = .interrogation then .interrogate else .negotiate) e.toggle) ∧
     (e.phase = .idle → e.settlement = none → e.renegRequest = true → sends
       { e with renegRequest := false, phase := .renegotiation, toggle := false, responses := 0, draft := some .fresh }
       .negotiate false) ∧
     (e.phase = .idle → e.settlement = none → e.renegRequest = false →
       (l.shutdown = true → sends { e with list := { l with shutdown := false } } .shutdown false) ∧
       (∀ w, l.shutdown = false → l.cap = some w → sends { e with list := { l with cap := none } } (.cap w) false) ∧
       (∀ w, l.shutdown = false → l.cap = none → l.uncap = some w →
         sends { e with list := { l with uncap := none } } (.uncap w) false) ∧
       (∀ w g, l.shutdown = false → l.cap = none → l.uncap = none → l.grant = some (w, g) →
         sends { e with list := { l with grant := none }, settlement := some { channels := granted, next := 0 } }
           (.grant w g) false) ∧
       (l.shutdown = false → l.cap = none → l.uncap = none → l.grant = none → l.poll = true →
         sends { e with list := { l with poll := false } } .poll false)))) ∧
  (∀ (s : State) (k : Fin 16) (w : Nat), s.chip.quiescent → (s.chip.engine k).quiet = true →
    ({ s.chip.engine k with quiet := false } : Engine).free →
    exec (.slotQuietEnd k) s = .next (s.onChip (setEngine k { s.chip.engine k with quiet := false } s.chip)) ∧
    (let waiting : Engine := { s.chip.engine k with list := { PendingList.empty with cap := some w } }
     exec (.slotQuietEnd k) (s.onChip (setEngine k waiting s.chip)) =
       .next (s.onChip (setEngine k { waiting with
         list := .empty, quiet := false, inFlight := sentPage (.cap w) false } s.chip))))

/-- An ACK_PAGE that answers a CAP or an UNCAP: accepted when its ack flag is set and its fault is NONE or DEGRADED, refused
otherwise; the outcome is reported to the power unit, no quiet period starts, and DEGRADED is raised for fault DEGRADED. One
that answers a GRANT or CHANNEL_GRANT of a settlement (R45): accepted, CHANNEL_GRANT goes out for the next channel of the list
with its window, or with none left the settlement ends and is reported settled; refused, it ends and is reported failed, with
DEGRADED in RUNNING (R46). -/
def Obligations.AckPageIsJudged : Prop :=
  ∀ (s : State) (k : Fin 16) (x : Exchange) (page : List Byte) (w : Nat),
    (s.chip.engine k).inFlight = some x → byteSum page = 0 → (readPage page).kind = 19 → (readPage page).payload = [] →
    (let p := readPage page
     let accepted := p.ack && decide (p.fault = .none ∨ p.fault = .degraded)
     (x.request = .cap w → ∃ t, exec (.slotPageReceived k page) s = .next t ∧
       Instr.capOutcome k (if accepted then .accepted else .refused) ∈ t.chip.messages ∧
       (t.chip.engine k).quiet = (s.chip.engine k).quiet ∧ t.chip.slot k = s.chip.slot k ∧
       (p.fault = .degraded → t.chip.alerted (.slot k) .degraded) ∧ s.chip.onlySlotRecord k t.chip) ∧
     (x.request = .uncap w → ∃ t, exec (.slotPageReceived k page) s = .next t ∧
       Instr.uncapOutcome k (if accepted then .accepted else .refused) ∈ t.chip.messages ∧
       (t.chip.engine k).quiet = (s.chip.engine k).quiet ∧ t.chip.slot k = s.chip.slot k ∧
       (p.fault = .degraded → t.chip.alerted (.slot k) .degraded) ∧ s.chip.onlySlotRecord k t.chip) ∧
     (∀ (channels : List (Fin 32)) (next : Nat), (∃ g l, x.request = .grant g l) ∨ (∃ b l, x.request = .channelGrant b l) →
       (s.chip.engine k).settlement = some { channels := channels, next := next } → (s.chip.engine k).phase = .idle →
       (s.chip.engine k).quiet = false →
       ∃ t, exec (.slotPageReceived k page) s = .next t ∧ t.chip.slot k = s.chip.slot k ∧ s.chip.onlySlotRecord k t.chip ∧
         (t.chip.engine k).quiet = false ∧ (p.fault = .degraded → t.chip.alerted (.slot k) .degraded) ∧
         (∀ h rest ch, accepted = true → channels.drop next = h :: rest → s.chip.channel h = some ch →
           ch.granted = true → ch.slot = k → t.chip.engine k = { s.chip.engine k with
             settlement := some { channels := channels, next := next + 1 },
             inFlight := sentPage (.channelGrant ch.base ch.limit) false }) ∧
         (accepted = true → channels.drop next = [] → (s.chip.engine k).list = .empty →
           (s.chip.engine k).renegRequest = false →
           t.chip.engine k = { s.chip.engine k with settlement := none, inFlight := none } ∧
             Instr.settlementReport k .settled ∈ t.chip.messages) ∧
         (accepted = false → (s.chip.engine k).list = .empty → (s.chip.engine k).renegRequest = false →
           t.chip.engine k = { s.chip.engine k with settlement := none, inFlight := none } ∧
             Instr.settlementReport k .failed ∈ t.chip.messages ∧
             ((s.chip.slot k).state = .running → t.chip.alerted (.slot k) .degraded))))

/-- A STATUS page, its values in their ranges, that answers a POLL in RUNNING or DRAINING: last status takes the four values,
the silence count and silent are cleared, and the overdraw count is judged against the grant. One with halted = yes ends the
drain of a slot in DRAINING, which enters POWERING_DOWN with the outcome of Table 10 (R17). -/
def Obligations.StatusPageUpdatesSlot : Prop :=
  ∀ (s : State) (k : Fin 16) (x : Exchange) (flags margin d1 d0 check : Byte) (halted : Bool),
    (s.chip.engine k).inFlight = some x → x.request = .poll →
    margin.toNat ≤ 127 → d1.toNat * 256 + d0.toNat ≤ 4095 →
    (let page : List Byte := [20, flags, 4, margin, d1, d0, if halted then 1 else 0, check]
     let draw := d1.toNat * 256 + d0.toNat
     let old := (s.chip.slot k).overdraw
     let status : BladeStatus :=
       { margin := margin.toNat, measured := draw, fault := (readPage page).fault, halted := halted }
     byteSum page = 0 →
     ((s.chip.slot k).state = .running ∨ ((s.chip.slot k).state = .draining ∧ halted = false) →
       ∃ t, exec (.slotPageReceived k page) s = .next t ∧
         t.chip.slot k = { s.chip.slot k with
           lastStatus := some status, silence := 0, silent := false,
           overdraw := if draw ≤ (s.chip.grant k).grant then 0
             else if draw * 10 ≤ (s.chip.grant k).grant * 11 then old else min 3 (old + 1) } ∧
         s.chip.onlySlotRecord k t.chip) ∧
     (∀ cause, (s.chip.slot k).state = .draining → halted = true → (s.chip.slot k).drainCause = some cause →
       (s.chip.slot k).powerGood = true →
       ∃ t, exec (.slotPageReceived k page) s = .next t ∧
         (let r := t.chip.slot k
          r.state = .poweringDown ∧ r.drainCause = some cause ∧ r.switchClosed = false ∧ r.resetReleased = false ∧
          r.pollTimer = none ∧ r.drainTimer = none ∧ r.powerDownTimer = some 500 ∧ r.lastStatus = some status ∧
          r.outcome = some (match cause with
            | .latch => .interrogating | .evict => .heldEvicted | .shed => .heldShed | .thermal => .heldThermal
            | .adoptMismatch => .heldAdoptMismatch)) ∧
         s.chip.onlySlotRecord k t.chip))

/-- The overdraw count of R52: an answered POLL in RUNNING or DRAINING sets it to 0 within the grant, leaves it up to 10 % above,
and raises it by one up to 3 beyond that, with OVERDRAW raised at the change from 2 to 3 and at no other answer; a failed
POLL leaves it: one that expires or fails its check at attempt 2, and one answered by a page of another kind or length. -/
def Obligations.OverdrawIsCounted : Prop :=
  ∀ (s : State) (k : Fin 16) (x : Exchange), (s.chip.slot k).state.isCounted = true →
    (s.chip.engine k).inFlight = some x → x.request = .poll →
    (let old := (s.chip.slot k).overdraw
     let grant := (s.chip.grant k).grant
     let overdraw (c : Chip) : CauseSet := causesOf (.slot k) c.port.alerts &&& Cause.overdraw.mask
     (∀ flags margin d1 d0 halted check : Byte,
       (let page : List Byte := [20, flags, 4, margin, d1, d0, halted, check]
        let draw := d1.toNat * 256 + d0.toNat
        byteSum page = 0 → draw ≤ 4095 →
        ∃ t, exec (.slotPageReceived k page) s = .next t ∧
          (draw ≤ grant → (t.chip.slot k).overdraw = 0 ∧ overdraw t.chip = overdraw s.chip) ∧
          (grant < draw → draw * 10 ≤ grant * 11 →
            (t.chip.slot k).overdraw = old ∧ overdraw t.chip = overdraw s.chip) ∧
          (grant * 11 < draw * 10 →
            (t.chip.slot k).overdraw = min 3 (old + 1) ∧
            (old = 2 → overdraw t.chip = Cause.overdraw.mask) ∧ (old ≠ 2 → overdraw t.chip = overdraw s.chip)))) ∧
     (x.second = true → ∃ t, exec (.slotResponseTimeout k) s = .next t ∧ (t.chip.slot k).overdraw = old) ∧
     (∀ page, x.second = true → byteSum page ≠ 0 →
       ∃ t, exec (.slotPageReceived k page) s = .next t ∧ (t.chip.slot k).overdraw = old) ∧
     (∀ page, byteSum page = 0 → (readPage page).kind ≠ 20 ∨ (readPage page).payload.length ≠ 4 →
       ∃ t, exec (.slotPageReceived k page) s = .next t ∧ (t.chip.slot k).overdraw = old))

/-- A one-page IDENTITY that ends the interrogation of a slot in INTERROGATING, for a unit the inventory does not know, with
a handle free and nothing bound at the slot: the record is created at the lowest free handle with the next epoch, the slot
holds it and enters NEGOTIATING, and NEGOTIATE is sent. The other answers to the offer (R59 to R61): a unit bound at the slot
is bound and the table unchanged; one bound elsewhere holds the slot with DUPLICATE_IDENTITY; a DEPARTED one is revived at its
handle; a new one with no handle free holds the slot with INVENTORY_FULL, raised on the chassis too. A serial longer than twelve
characters (R37): NEXT is sent with the toggle flipped, and the second page's characters complete it. In ADOPTING the identity
is compared with the bound record and not offered (Table 15): a match ends in RUNNING, or DRAINING for the adopt cause, and any
other identity in DRAINING for ADOPT_MISMATCH. -/
def Obligations.IdentityCreatesRecordAndNegotiates : Prop :=
  (∀ (s : State) (k : Fin 16) (x : Exchange) (page : List Byte) (id : IdentityHead) (h : Fin 48),
    (s.chip.slot k).state = .interrogating → (s.chip.engine k).inFlight = some x → x.request = .interrogate →
    (s.chip.engine k).draft = some .fresh → (s.chip.engine k).quiet = false →
    byteSum page = 0 → (readPage page).identityFirst = some id → (readPage page).toggle = x.toggle →
    (readPage page).more = false → 1 ≤ id.serialLength → id.serialLength ≤ 12 → id.chars.all printable = true →
    s.chip.bySerial .blade id.chars = none → s.chip.freeHandle = some h → s.chip.boundAt (.slot k) = none →
    ∃ t, exec (.slotPageReceived k page) s = .next t ∧
      (t.chip.slot k).state = .negotiating ∧ (t.chip.slot k).terms = none ∧
      (t.chip.slot k).handle = some { handle := h, generation := (s.chip.invHandle h).generation } ∧
      t.chip.inventory.epoch = s.chip.inventory.epoch + 1 ∧
      t.chip.invHandle h = { generation := (s.chip.invHandle h).generation, record := some {
        location := .slot k, present := true,
        identity := { vendor := id.vendor, model := id.model, revision := id.revision, serial := id.chars,
                      capacity := none, fanDraw := none, fanSpeed := none, fanPulses := none },
        assetTag := none, arrivals := 1, changeEpoch := s.chip.inventory.epoch + 1 } } ∧
      (∀ j, j ≠ h → t.chip.invHandle j = s.chip.invHandle j) ∧
      (t.chip.engine k).phase = .negotiation ∧ (t.chip.engine k).inFlight = sentPage .negotiate false ∧
      s.chip.onlySlot k t.chip) ∧
  (∀ (s : State) (k : Fin 16) (x : Exchange) (page : List Byte) (id : IdentityHead),
    (s.chip.engine k).inFlight = some x → x.request = .interrogate → (s.chip.engine k).draft = some .fresh →
    byteSum page = 0 → (readPage page).identityFirst = some id → (readPage page).toggle = x.toggle →
    (readPage page).more = false → 1 ≤ id.serialLength → id.serialLength ≤ 12 → id.chars.all printable = true →
    (let old := s.chip.slot k
     let identity : Identity :=
       { vendor := id.vendor, model := id.model, revision := id.revision, serial := id.chars,
         capacity := none, fanDraw := none, fanSpeed := none, fanPulses := none }
     let held (t : State) (reason : HoldReason) : Prop :=
       (t.chip.slot k).state = .held ∧ (t.chip.slot k).holdReason = some reason ∧ (t.chip.slot k).handle = old.handle ∧
         t.chip.alerted (.slot k) .held ∧ t.chip.inventory = s.chip.inventory
     let negotiates (t : State) (h : Fin 48) : Prop :=
       (t.chip.slot k).state = .negotiating ∧
         (t.chip.slot k).handle = some { handle := h, generation := (s.chip.invHandle h).generation } ∧
         (t.chip.engine k).phase = .negotiation
     let draining (t : State) (cause : DrainCause) : Prop :=
       (t.chip.slot k).state = .draining ∧ (t.chip.slot k).drainCause = some cause ∧
         (t.chip.slot k).drainTimer = some (if cause = .shed then s.chip.settings.shedDrainTimeout
           else s.chip.settings.drainTimeout)
     ∃ t, exec (.slotPageReceived k page) s = .next t ∧ s.chip.onlySlot k t.chip ∧
       (old.state = .interrogating →
         (∀ h r, s.chip.bySerial .blade id.chars = some h → (s.chip.invHandle h).record = some r →
           (r.present = true → r.location = .slot k → negotiates t h ∧ t.chip.inventory = s.chip.inventory) ∧
           (r.present = true → r.location ≠ .slot k → held t .duplicateIdentity) ∧
           (r.present = false → s.chip.boundAt (.slot k) = none → negotiates t h ∧
             t.chip.inventory.epoch = s.chip.inventory.epoch + 1 ∧
             t.chip.invHandle h = { generation := (s.chip.invHandle h).generation, record := some { r with
               location := .slot k, present := true, identity := identity, arrivals := min 65535 (r.arrivals + 1),
               changeEpoch := s.chip.inventory.epoch + 1 } } ∧
             ∀ j, j ≠ h → t.chip.invHandle j = s.chip.invHandle j)) ∧
         (s.chip.bySerial .blade id.chars = none → s.chip.freeHandle = none →
           held t .inventoryFull ∧ t.chip.alerted .chassis .inventoryFull)) ∧
       (old.state = .adopting → t.chip.inventory = s.chip.inventory ∧
         (∀ ref r, old.handle = some ref → (s.chip.invHandle ref.handle).record = some r →
           (let same : Prop := r.identity.vendor = id.vendor ∧ r.identity.model = id.model ∧
              r.identity.revision = id.revision ∧ r.identity.serial = id.chars
            (same → old.adoptCause = none → (t.chip.slot k).state = .running ∧
              (t.chip.slot k).pollTimer = some s.chip.settings.pollInterval) ∧
            (∀ cause, same → old.adoptCause = some cause → draining t cause) ∧
            (¬ same → draining t .adoptMismatch)))))) ∧
  (∀ (s : State) (k : Fin 16) (x : Exchange) (page : List Byte) (id : IdentityHead), s.chip.quiescent →
    (s.chip.engine k).inFlight = some x → x.request = .interrogate → (s.chip.engine k).draft = some .fresh →
    (s.chip.engine k).phase = .interrogation → (s.chip.engine k).quiet = false → byteSum page = 0 →
    (readPage page).identityFirst = some id → (readPage page).toggle = x.toggle → (readPage page).more = true →
    (readPage page).fault ≠ .degraded → 13 ≤ id.serialLength → id.serialLength ≤ 24 → id.chars.all printable = true →
    exec (.slotPageReceived k page) s = .next (s.onChip (setEngine k { s.chip.engine k with
      inFlight := sentPage .next (!(s.chip.engine k).toggle), responses := (s.chip.engine k).responses + 1,
      toggle := !(s.chip.engine k).toggle,
      draft := some (.identity id.vendor id.model id.revision id.serialLength id.chars) } s.chip))) ∧
  (∀ (s : State) (k : Fin 16) (x : Exchange) (page : List Byte) (vendor model : BitVec 16) (revision : Byte) (length : Nat)
      (first last : List Byte) (h : Fin 48),
    (s.chip.slot k).state = .interrogating → (s.chip.engine k).inFlight = some x → x.request = .next →
    (s.chip.engine k).phase = .interrogation →
    (s.chip.engine k).draft = some (.identity vendor model revision length first) → byteSum page = 0 →
    (readPage page).kind = 16 → (readPage page).payload = last → last.length = length - 12 →
    (readPage page).toggle = x.toggle → (readPage page).more = false → last.all printable = true →
    s.chip.bySerial .blade (first ++ last) = none → s.chip.freeHandle = some h → s.chip.boundAt (.slot k) = none →
    ∃ t, exec (.slotPageReceived k page) s = .next t ∧ (t.chip.slot k).state = .negotiating ∧
      (t.chip.slot k).handle = some { handle := h, generation := (s.chip.invHandle h).generation } ∧
      t.chip.invHandle h = { generation := (s.chip.invHandle h).generation, record := some {
        location := .slot k, present := true,
        identity := { vendor := vendor, model := model, revision := revision, serial := first ++ last,
                      capacity := none, fanDraw := none, fanSpeed := none, fanPulses := none },
        assetTag := none, arrivals := 1, changeEpoch := s.chip.inventory.epoch + 1 } } ∧
      (∀ j, j ≠ h → t.chip.invHandle j = s.chip.invHandle j) ∧ s.chip.onlySlot k t.chip)

/-- A BASE page without channel requests that ends a negotiation: terms in range and within the slot power ceiling are
written and the slot goes on by the admission mode; a floor above the run draw, or a run draw above the ceiling, holds it. One
with more to come keeps the draft and sends NEXT with the toggle flipped (R40). The CHANNEL_REQ page that completes the draft
resolves it: each request, in page order, is matched to the channel of the slot with the lowest window base that is large
enough and not yet taken; a request with none is short, and CHANNEL_SHORT is raised (R43). A renegotiation in RUNNING (R54, R106):
failed, it raises DEGRADED and changes no terms and no grant; successful, it writes the terms, the grant falls at once to the
target, the floor for a slot capped by HOST or THERMAL and else the run draw, and a GRANT is asked for; below the target a grant
above 0 is kept at level FLOOR with BUDGET, and with no draw to serve it an uncapped slot waits for its uplift. That a grant
equal to the floor and the run draw alike is level FULL, where step 3 of R106 says FLOOR for a target of the floor draw, is the
model's choice, deduced from R92 (log 36). -/
def Obligations.BasePageResolves : Prop :=
  (∀ (s : State) (k : Fin 16) (x : Exchange) (page : List Byte) (run floor priority : Nat),
    (s.chip.slot k).state = .negotiating → (s.chip.engine k).phase = .negotiation → (s.chip.engine k).renegRequest = false →
    (s.chip.engine k).draft = some .fresh → (s.chip.engine k).inFlight = some x → x.request = .negotiate →
    byteSum page = 0 → (readPage page).base = some (run, floor, priority, 0) → (readPage page).toggle = x.toggle →
    (readPage page).more = false → (readPage page).fault = .none →
    5 ≤ run → run ≤ 2000 → run % 5 = 0 → (floor = 0 ∨ (5 ≤ floor ∧ floor ≤ 2000 ∧ floor % 5 = 0)) → priority ≤ 7 →
    ∃ t, exec (.slotPageReceived k page) s = .next t ∧
      (floor ≤ run → run ≤ s.chip.settings.slotCeiling →
        (t.chip.slot k).terms = some { runDraw := run, floorDraw := floor, priority := priority, requests := [], short := false } ∧
        (t.chip.slot k).state = (if s.chip.settings.autoAdmission then .awaitingGrant else .awaitingAdmit) ∧
        Instr.matchHandoff k [] ∈ t.chip.messages ∧ (t.chip.engine k).phase = .idle) ∧
      (run < floor → (t.chip.slot k).state = .held ∧ (t.chip.slot k).holdReason = some .negError) ∧
      (floor ≤ run → s.chip.settings.slotCeiling < run →
        (t.chip.slot k).state = .held ∧ (t.chip.slot k).holdReason = some .budgetMismatch) ∧
      s.chip.onlySlotRecord k t.chip) ∧
  (∀ (s : State) (k : Fin 16) (x : Exchange) (page : List Byte) (run floor priority count : Nat), s.chip.quiescent →
    (s.chip.engine k).phase = .negotiation ∨ (s.chip.engine k).phase = .renegotiation →
    (s.chip.engine k).draft = some .fresh → (s.chip.engine k).inFlight = some x → x.request = .negotiate →
    (s.chip.engine k).quiet = false → (s.chip.engine k).responses < 7 →
    byteSum page = 0 → (readPage page).base = some (run, floor, priority, count) → (readPage page).toggle = x.toggle →
    (readPage page).more = true → (readPage page).fault = .none →
    5 ≤ run → run ≤ 2000 → run % 5 = 0 → (floor = 0 ∨ (5 ≤ floor ∧ floor ≤ 2000 ∧ floor % 5 = 0)) → priority ≤ 7 →
    count ≤ 2 →
    exec (.slotPageReceived k page) s = .next (s.onChip (setEngine k { s.chip.engine k with
      inFlight := sentPage .next (!(s.chip.engine k).toggle), responses := (s.chip.engine k).responses + 1,
      toggle := !(s.chip.engine k).toggle, draft := some (.terms run floor priority count []) } s.chip))) ∧
  (∀ (s : State) (k : Fin 16) (x : Exchange) (page : List Byte) (run floor priority size : Nat) (requests : List Nat),
    (s.chip.slot k).state = .negotiating → (s.chip.engine k).phase = .negotiation →
    (s.chip.engine k).draft = some (.terms run floor priority (requests.length + 1) requests) →
    (s.chip.engine k).inFlight = some x → x.request = .next → byteSum page = 0 → (readPage page).channelReq = some size →
    (readPage page).toggle = x.toggle → (readPage page).more = false → (readPage page).fault = .none →
    1 ≤ size → size ≤ 256 → floor ≤ run → run ≤ s.chip.settings.slotCeiling →
    (let fits (taken : List (Fin 32)) (n : Nat) (h : Fin 32) : Prop :=
       ∃ ch, s.chip.channel h = some ch ∧ ch.slot = k ∧ n ≤ ch.limit - ch.base + 1 ∧ h ∉ taken
     let best (taken : List (Fin 32)) (n : Nat) (h : Fin 32) : Prop := fits taken n h ∧
       ∀ h' ch ch', h' ≠ h → fits taken n h' → s.chip.channel h = some ch → s.chip.channel h' = some ch' → ch.base < ch'.base
     let matched (t : State) (handles : List (Fin 32)) : Prop :=
       Instr.matchHandoff k handles ∈ t.chip.messages ∧ (t.chip.slot k).terms = some
         { runDraw := run, floorDraw := floor, priority := priority, requests := requests ++ [size],
           short := decide (handles.length < requests.length + 1) } ∧
         (handles.length < requests.length + 1 → t.chip.alerted (.slot k) .channelShort)
     ∃ t, exec (.slotPageReceived k page) s = .next t ∧
       (t.chip.slot k).state = (if s.chip.settings.autoAdmission then .awaitingGrant else .awaitingAdmit) ∧
       (requests = [] →
         (∀ h, best [] size h → matched t [h]) ∧ ((∀ h, ¬ fits [] size h) → matched t [])) ∧
       (∀ n, requests = [n] →
         (∀ h h', best [] n h → best [h] size h' → matched t [h, h']) ∧
         (∀ h, best [] n h → (∀ h', ¬ fits [h] size h') → matched t [h]) ∧
         (∀ h, (∀ h', ¬ fits [] n h') → best [] size h → matched t [h]) ∧
         ((∀ h', ¬ fits [] n h') → (∀ h', ¬ fits [] size h') → matched t [])) ∧
       s.chip.onlySlotRecord k t.chip)) ∧
  (∀ (s : State) (k : Fin 16) (x : Exchange) (page : List Byte) (run floor priority : Nat), s.chip.quiescent →
    (s.chip.slot k).state = .running → (s.chip.engine k).phase = .renegotiation →
    (s.chip.engine k).draft = some .fresh → (s.chip.engine k).inFlight = some x → x.request = .negotiate →
    byteSum page = 0 → (readPage page).base = some (run, floor, priority, 0) → (readPage page).toggle = x.toggle →
    (readPage page).more = false → (readPage page).fault = .none →
    5 ≤ run → run ≤ 2000 → run % 5 = 0 → (floor = 0 ∨ (5 ≤ floor ∧ floor ≤ 2000 ∧ floor % 5 = 0)) → priority ≤ 7 →
    (∀ e ∈ s.chip.power.queue, e.slot = k → e.kind = .uplift) →
    (let g := s.chip.grant k
     let capped : Prop := floor ≠ 0 ∧ (g.capSet.host = true ∨ g.capSet.thermal = true)
     ∃ t, exec (.slotPageReceived k page) s = .next t ∧ (t.chip.slot k).state = .running ∧
       (run < floor ∨ s.chip.settings.slotCeiling < run →
         t.chip.slot k = s.chip.slot k ∧ t.chip.grant k = g ∧ t.chip.alerted (.slot k) .degraded) ∧
       (floor ≤ run → run ≤ s.chip.settings.slotCeiling →
         (t.chip.slot k).terms = some
           { runDraw := run, floorDraw := floor, priority := priority, requests := [], short := false } ∧
         Instr.matchHandoff k [] ∈ t.chip.messages ∧
         (¬ capped → run ≤ g.grant → (t.chip.grant k).grant = run ∧ (t.chip.grant k).level = .full ∧
           Instr.grantRequest k run .full ∈ t.chip.messages) ∧
         (capped → floor ≤ g.grant → (t.chip.grant k).grant = floor ∧
           (t.chip.grant k).level = (if floor = run then .full else .floor) ∧
           Instr.grantRequest k floor (if floor = run then .full else .floor) ∈ t.chip.messages) ∧
         (¬ capped → 0 < g.grant → g.grant < run → s.chip.available < (run : Int) - g.grant →
           (∀ e ∈ s.chip.power.queue, e.slot = k) →
           (t.chip.grant k).grant = g.grant ∧ (t.chip.grant k).level = .floor ∧
           (t.chip.grant k).capSet = { CapSet.empty with budget := true } ∧
           Instr.grantRequest k g.grant .floor ∈ t.chip.messages ∧
           ∃ e ∈ t.chip.power.queue, e.slot = k ∧ e.kind = .uplift ∧ e.need = run - g.grant) ∧
         (capped → 0 < g.grant → g.grant < floor → (t.chip.grant k).grant = g.grant ∧ (t.chip.grant k).level = .floor ∧
           (t.chip.grant k).capSet = { g.capSet with budget := true } ∧
           Instr.grantRequest k g.grant .floor ∈ t.chip.messages)) ∧
       s.chip.onlySlotRecord k t.chip))

/-! ## Reports to the power unit and the hub (chapters 5 and 8) -/

/-- MATCH_HANDOFF: every channel of the slot is granted when its handle is in the match and not granted otherwise; a channel
in PASS that loses its grant is held for SLOT with its queues empty, every other one is unchanged but for the flag, channels
of other slots are unchanged, and the handles are kept in match order. That a handle retired and defined again for the slot since
the match was made is granted like any other is the model's choice (log 30), and so is that R160 holds against R54 for a channel
in HOLD or BAR that loses its grant (log 65). -/
def Obligations.MatchSetsGrants : Prop :=
  ∀ (s : State) (k : Fin 16) (handles : List (Fin 32)),
    ∃ t, exec (.matchHandoff k handles) s = .next t ∧ t.chip.hub.matchOrder.read k = handles ∧
      t.chip.slots = s.chip.slots ∧ t.chip.engines = s.chip.engines ∧
      ∀ h, match s.chip.channel h with
        | none => t.chip.channel h = none
        | some ch =>
          if ch.slot ≠ k then t.chip.channel h = some ch
          else if ch.granted ∧ ch.state = .pass ∧ h ∉ handles then
            ∃ ch', t.chip.channel h = some ch' ∧ ch'.granted = false ∧ ch'.state = .hold ∧ ch'.holdCause = some .slot ∧
              ch'.down = [] ∧ ch'.up = []
          else t.chip.channel h = some { ch with granted := handles.contains h }

/-- SETTLEMENT_REPORT for a slot whose admission stage is SETTLING: settled within the budget, the close is ordered; settled
while the chassis is over-committed and stays so, the grant is set back and the slot waits in the grant queue again; failed,
the slot is HELD with NO_ANSWER; with another stage it is ignored. CAP_OUTCOME against a cap request: accepted with HOST or
THERMAL in the set, the grant falls to a floor draw below it and the set is kept; refused or failed outside an over-commit, the reasons it carried leave the set, with DEGRADED for
HOST; superseded and abandoned remove the request alone; with no cap request it is ignored. The shed list (R109, R112): the
accepted CAP of its ACTING head makes the next entry the head, which acts, while the chassis is still over-committed, and a
refused or failed one that carries BUDGET turns the head into OFF. UNCAP_OUTCOME with uncap request yes: the request is
cleared, with DEGRADED when it was refused or failed; with uncap request no it is ignored. -/
def Obligations.PowerUnitReportsAreTaken : Prop :=
  (∀ (s : State) (k : Fin 16), s.chip.quiescent →
    ((s.chip.grant k).stage = .settling → s.chip.overCommitted = false →
      exec (.settlementReport k .settled) s = .next (s.onChip
        (setMessages (s.chip.messages.erase (.settlementReport k .settled) ++ [.closeOrder k])
          (setGrant k { s.chip.grant k with stage := .closing } s.chip)))) ∧
    ((s.chip.grant k).stage = .settling → (s.chip.slot k).state = .awaitingGrant →
      ∃ t, exec (.settlementReport k .failed) s = .next t ∧ (t.chip.slot k).state = .held ∧
        (t.chip.slot k).holdReason = some .noAnswer ∧ t.chip.alerted (.slot k) .held ∧ s.chip.onlySlotRecord k t.chip) ∧
    ((s.chip.grant k).stage = .settling → (s.chip.slot k).state = .awaitingGrant → (s.chip.slot k).switchClosed = false →
      s.chip.overCommitted = true →
      (let back : GrantRecord :=
         { grant := 0, level := .none, capSet := .empty, stage := .queued, capRequest := none, uncapRequest := false }
       (setGrant k back s.chip).overCommitted = true →
       ∃ t, exec (.settlementReport k .settled) s = .next t ∧ t.chip.grant k = back ∧
         (∃ e ∈ t.chip.power.queue, e.slot = k ∧ e.kind = .admission ∧ e.need = s.chip.runDraw k) ∧
         t.chip.slots = s.chip.slots ∧ t.chip.engines = s.chip.engines)) ∧
    (∀ o, (s.chip.grant k).stage ≠ .settling → exec (.settlementReport k o) s = .next (s.onChip
      (setMessages (s.chip.messages.erase (.settlementReport k o)) s.chip)))) ∧
  (∀ (s : State) (k : Fin 16) (q : CapSet), s.chip.quiescent → s.chip.queueEntry k = none →
    ((s.chip.grant k).capRequest = some q → (s.chip.grant k).capSet.host = true ∨ (s.chip.grant k).capSet.thermal = true →
      0 < s.chip.floorDraw k →
      s.chip.floorDraw k < (s.chip.grant k).grant → s.chip.floorDraw k < s.chip.runDraw k →
      ∃ t, exec (.capOutcome k .accepted) s = .next t ∧ (t.chip.grant k).grant = s.chip.floorDraw k ∧
        (t.chip.grant k).level = .floor ∧ (t.chip.grant k).capSet = (s.chip.grant k).capSet ∧
        (t.chip.grant k).capRequest = none ∧ t.chip.slots = s.chip.slots ∧
        t.chip.engines = s.chip.engines ∧ t.chip.hub = s.chip.hub) ∧
    (∀ o, (s.chip.grant k).capRequest = some q → o = .refused ∨ o = .failed → (s.chip.grant k).level ≠ .floor →
      s.chip.overCommitted = false → s.chip.power.shed = [] →
      (let g := s.chip.grant k
       let c := setMessages (s.chip.messages.erase (.capOutcome k o)) (setGrant k { g with
         capRequest := none,
         capSet := { budget := g.capSet.budget && !q.budget, thermal := g.capSet.thermal && !q.thermal,
                     host := g.capSet.host && !q.host } } s.chip)
       exec (.capOutcome k o) s = .next (s.onChip (if q.host then raise (.slot k) .degraded c else c)))) ∧
    (∀ o, (s.chip.grant k).capRequest = some q → o = .superseded ∨ o = .abandoned →
      exec (.capOutcome k o) s = .next (s.onChip
        (setMessages (s.chip.messages.erase (.capOutcome k o))
          (setGrant k { s.chip.grant k with capRequest := none } s.chip)))) ∧
    (∀ o, (s.chip.grant k).capRequest = none → exec (.capOutcome k o) s = .next (s.onChip
      (setMessages (s.chip.messages.erase (.capOutcome k o)) s.chip)))) ∧
  (∀ (s : State) (k : Fin 16) (q : CapSet), s.chip.quiescent → (s.chip.grant k).capRequest = some q →
    (s.chip.slot k).switchClosed = true →
    (∀ j, j ≠ k → (s.chip.slot j).switchClosed = true → (s.chip.slot j).state ≠ .draining →
      s.chip.power.shed =
        [{ slot := k, action := .cap, acting := true }, { slot := j, action := .off, acting := false }] →
      0 < s.chip.floorDraw k → s.chip.floorDraw k < (s.chip.grant k).grant →
      (setGrant k { s.chip.grant k with grant := s.chip.floorDraw k } s.chip).overCommitted = true →
      ∃ t, exec (.capOutcome k .accepted) s = .next t ∧ (t.chip.grant k).grant = s.chip.floorDraw k ∧
        t.chip.power.shed = [{ slot := j, action := .off, acting := true }] ∧
        Instr.shedOffAction j ∈ t.chip.messages ∧ t.chip.slots = s.chip.slots) ∧
    (∀ o, o = .refused ∨ o = .failed → q.budget = true → (s.chip.grant k).level = .full →
      s.chip.power.shed = [{ slot := k, action := .cap, acting := true }] →
      ∃ t, exec (.capOutcome k o) s = .next t ∧
        t.chip.power.shed = [{ slot := k, action := .off, acting := true }] ∧
        Instr.shedOffAction k ∈ t.chip.messages ∧ (t.chip.grant k).grant = (s.chip.grant k).grant ∧
        (t.chip.grant k).capSet.budget = false ∧ (t.chip.grant k).capRequest = none ∧ t.chip.slots = s.chip.slots)) ∧
  (∀ (s : State) (k : Fin 16) (o : LimitOutcome), s.chip.quiescent →
    ((s.chip.grant k).uncapRequest = true →
      (let c := setMessages (s.chip.messages.erase (.uncapOutcome k o))
         (setGrant k { s.chip.grant k with uncapRequest := false } s.chip)
       exec (.uncapOutcome k o) s = .next (s.onChip
         (match o with
         | .refused | .failed => raise (.slot k) .degraded c
         | .accepted | .superseded | .abandoned => c)))) ∧
    ((s.chip.grant k).uncapRequest = false → exec (.uncapOutcome k o) s = .next (s.onChip
      (setMessages (s.chip.messages.erase (.uncapOutcome k o)) s.chip))))

/-! ## The module link and the supplies (chapters 3 and 4) -/

/-- MODULE_PRESENCE_DEBOUNCE_EXPIRY at a supply bay: an arrival in ABSENT takes the supply to IDENTIFYING and reads the bay
at once on an idle link; a removal takes it to ABSENT with capacity 0, with SUPPLY_REMOVED when it was ONLINE. At a fan bay: an
arrival takes the fan to IDENTIFYING and reads the bay; a removal takes it to ABSENT with the fields of R122 and its
reservation to band 0. In both, the record bound at a bay whose unit is removed departs. -/
def Obligations.SupplyArrivalAndRemoval : Prop :=
  (∀ (s : State) (b : Fin 6), (s.chip.modules.supplies.read b).timer = true →
    ((s.chip.modules.supplies.read b).pin = true → (s.chip.modules.supplies.read b).field = false →
      (s.chip.supply b).state = .absent → s.chip.modules.queue = [] → s.chip.modules.reading = none →
      s.chip.modules.quiet = false →
      ∃ t, exec (.modulePresenceDebounceExpiry (.supply b)) s = .next t ∧
        (t.chip.modules.supplies.read b).field = true ∧ t.chip.modules.reading = some (.supply b, false) ∧
        (t.chip.supply b).state = .identifying ∧ (t.chip.supply b).enable = false ∧ (t.chip.supply b).capacity = 0 ∧
        (t.chip.supply b).failReason = none ∧ (t.chip.supply b).handle = none ∧ t.chip.slots = s.chip.slots ∧
        t.chip.engines = s.chip.engines ∧ t.chip.inventory = s.chip.inventory ∧ t.chip.fans = s.chip.fans ∧
        t.chip.hub = s.chip.hub) ∧
    ((s.chip.modules.supplies.read b).pin = false → (s.chip.modules.supplies.read b).field = true →
      (s.chip.supply b).state ≠ .absent →
      ∃ t, exec (.modulePresenceDebounceExpiry (.supply b)) s = .next t ∧
        (t.chip.modules.supplies.read b).field = false ∧ Bay.supply b ∉ t.chip.modules.queue ∧
        t.chip.modules.reading.map Prod.fst ≠ some (.supply b) ∧
        (t.chip.supply b).state = .absent ∧ (t.chip.supply b).enable = false ∧ (t.chip.supply b).capacity = 0 ∧
        (t.chip.supply b).failReason = none ∧ (t.chip.supply b).handle = none ∧
        (t.chip.supply b).powerGood = (s.chip.supply b).powerGood ∧
        ((s.chip.supply b).state = .online → t.chip.alerted (.supply b) .supplyRemoved) ∧
        s.chip.departs (.supply b) t.chip ∧
        t.chip.slots = s.chip.slots ∧ t.chip.engines = s.chip.engines ∧ t.chip.fans = s.chip.fans ∧
        t.chip.hub = s.chip.hub)) ∧
  (∀ (s : State) (f : Fin 8), (s.chip.modules.fans.read f).timer = true →
    ((s.chip.modules.fans.read f).pin = true → (s.chip.modules.fans.read f).field = false →
      (s.chip.fan f).state = .absent → s.chip.modules.queue = [] → s.chip.modules.reading = none →
      s.chip.modules.quiet = false →
      ∃ t, exec (.modulePresenceDebounceExpiry (.fan f)) s = .next t ∧
        (t.chip.modules.fans.read f).field = true ∧ t.chip.modules.reading = some (.fan f, false) ∧
        (t.chip.fan f).state = .identifying ∧ (t.chip.fan f).handle = none ∧ (t.chip.fan f).band = 0 ∧
        (t.chip.fan f).reservedBand = 0 ∧ (t.chip.fan f).window = .none ∧ t.chip.slots = s.chip.slots ∧
        t.chip.engines = s.chip.engines ∧ t.chip.inventory = s.chip.inventory ∧ t.chip.hub = s.chip.hub) ∧
    ((s.chip.modules.fans.read f).pin = false → (s.chip.modules.fans.read f).field = true →
      (s.chip.fan f).state ≠ .absent →
      ∃ t, exec (.modulePresenceDebounceExpiry (.fan f)) s = .next t ∧
        (t.chip.modules.fans.read f).field = false ∧ Bay.fan f ∉ t.chip.modules.queue ∧
        t.chip.modules.reading.map Prod.fst ≠ some (.fan f) ∧
        (let r := t.chip.fan f
         r.state = .absent ∧ r.handle = none ∧ r.assumed = false ∧ r.ratedDraw = 0 ∧ r.maxSpeed = 0 ∧ r.pulses = 0 ∧
         r.band = 0 ∧ r.reservedBand = 0 ∧ r.target = 0 ∧ r.measured = 0 ∧ r.lockCount = 0 ∧ r.search = none ∧
         r.pinnedBand = none ∧ r.weakCount = 0 ∧ r.window = .none ∧ r.stallCount = 0 ∧ r.releaseTimer = false) ∧
        (t.chip.reservation f).band = 0 ∧ s.chip.departs (.fan f) t.chip ∧ t.chip.slots = s.chip.slots ∧
        t.chip.engines = s.chip.engines ∧ t.chip.hub = s.chip.hub))

/-- MODULE_RESPONSE to the read of a supply bay in IDENTIFYING: a good identity of a unit already bound there gives the
supply its capacity and handle, asserts its enable and takes it to STARTING, or ONLINE when PSU_PG is asserted; with no bay
queued the link is then idle. To the read of a fan bay in IDENTIFYING: the fan takes its figures and handle, its target is the
zone's within its max speed, and it starts a search at band 32, or boosts at 63 in an emergency, with its whole draw reserved.
In both bays, for a unit the inventory does not know, with a handle free and nothing bound at the bay: the record is created
at the lowest free handle with the next epoch, and the owner holds that handle. The other answers (R59 to R61): a unit bound
elsewhere leaves the table unchanged, and one with no handle free raises INVENTORY_FULL, and in both the owner runs it with no
handle; a DEPARTED unit is revived at its handle. -/
def Obligations.SupplyIdentityStartsSupply : Prop :=
  (∀ (s : State) (b : Fin 6) (second : Bool) (m : List Byte) (h : Fin 48) (r : InvRecord),
    s.chip.modules.reading = some (.supply b, second) → s.chip.modules.quiet = false → s.chip.modules.queue = [] →
    (s.chip.supply b).state = .identifying → byteSum m = 0 → m.length = 34 →
    (readModule (.supply b) m).accepted (.supply b) (numberAt m 6 1) = true →
    s.chip.bySerial .supply (readModule (.supply b) m).identity.serial = some h →
    (s.chip.invHandle h).record = some r → r.present = true → r.location = .supply b →
    ∃ t, exec (.moduleResponse m) s = .next t ∧
      (t.chip.supply b).capacity = numberAt m 31 2 ∧
      (t.chip.supply b).handle = some { handle := h, generation := (s.chip.invHandle h).generation } ∧
      (t.chip.supply b).enable = true ∧ (t.chip.supply b).failReason = none ∧
      (t.chip.supply b).state = (if (s.chip.supply b).powerGood then .online else .starting) ∧
      (t.chip.supply b).startDelay = !(s.chip.supply b).powerGood ∧
      t.chip.modules.reading = none ∧ t.chip.modules.quiet = false ∧ t.chip.inventory = s.chip.inventory ∧
      t.chip.slots = s.chip.slots ∧ t.chip.engines = s.chip.engines ∧ t.chip.fans = s.chip.fans ∧
      t.chip.hub = s.chip.hub) ∧
  (∀ (s : State) (f : Fin 8) (second : Bool) (m : List Byte) (h : Fin 48) (r : InvRecord),
    s.chip.modules.reading = some (.fan f, second) → s.chip.modules.quiet = false → s.chip.modules.queue = [] →
    (s.chip.fan f).state = .identifying → byteSum m = 0 → m.length = 37 →
    (readModule (.fan f) m).accepted (.fan f) (numberAt m 6 1) = true →
    s.chip.bySerial .fan (readModule (.fan f) m).identity.serial = some h →
    (s.chip.invHandle h).record = some r → r.present = true → r.location = .fan f →
    ∃ t, exec (.moduleResponse m) s = .next t ∧
      (let x := t.chip.fan f
       x.handle = some { handle := h, generation := (s.chip.invHandle h).generation } ∧ x.assumed = false ∧
       x.ratedDraw = numberAt m 31 2 ∧ x.maxSpeed = numberAt m 33 2 ∧ x.pulses = numberAt m 35 1 ∧
       x.target = min (s.chip.zone (fanZone f)).target (numberAt m 33 2) ∧ x.reservedBand = 63 ∧
       (if (s.chip.zone (fanZone f)).emergency then x.state = .boost ∧ x.band = 63 ∧ x.window = .count
        else x.state = .calibrating ∧ x.band = 32 ∧ x.window = .settle ∧ x.searchTarget = x.target ∧
          x.search = some { index := 0, partialResult := 0, trial := 32 })) ∧
      t.chip.reservation f = { band := 63, ratedDraw := some (numberAt m 31 2) } ∧
      t.chip.modules.reading = none ∧ t.chip.modules.quiet = false ∧ t.chip.inventory = s.chip.inventory ∧
      (∀ f', f' ≠ f → t.chip.fan f' = s.chip.fan f') ∧ t.chip.slots = s.chip.slots ∧ t.chip.engines = s.chip.engines ∧
      t.chip.hub = s.chip.hub) ∧
  (∀ (s : State) (bay : Bay) (second : Bool) (m : List Byte) (h : Fin 48),
    s.chip.modules.reading = some (bay, second) → byteSum m = 0 → m.length = Bay.responseLength bay →
    (readModule bay m).accepted bay (numberAt m 6 1) = true →
    s.chip.bySerial (Location.kind (Bay.location bay)) (readModule bay m).identity.serial = none →
    s.chip.freeHandle = some h → s.chip.boundAt (Bay.location bay) = none →
    ∃ t, exec (.moduleResponse m) s = .next t ∧
      (let ref : InvRef := { handle := h, generation := (s.chip.invHandle h).generation }
       t.chip.inventory.epoch = s.chip.inventory.epoch + 1 ∧
       t.chip.invHandle h = { generation := (s.chip.invHandle h).generation, record := some {
         location := Bay.location bay, present := true, identity := (readModule bay m).identity, assetTag := none,
         arrivals := 1, changeEpoch := s.chip.inventory.epoch + 1 } } ∧
       (∀ j, j ≠ h → t.chip.invHandle j = s.chip.invHandle j) ∧
       (∀ b, bay = .supply b → (s.chip.supply b).state = .identifying →
         (t.chip.supply b).handle = some ref ∧ (t.chip.supply b).enable = true) ∧
       (∀ f, bay = .fan f → (s.chip.fan f).state = .identifying →
         (t.chip.fan f).handle = some ref ∧ (t.chip.fan f).assumed = false)) ∧
      t.chip.slots = s.chip.slots ∧ t.chip.engines = s.chip.engines ∧ t.chip.hub = s.chip.hub) ∧
  (∀ (s : State) (bay : Bay) (second : Bool) (m : List Byte),
    s.chip.modules.reading = some (bay, second) → byteSum m = 0 → m.length = Bay.responseLength bay →
    (readModule bay m).accepted bay (numberAt m 6 1) = true →
    (let known := s.chip.bySerial (Location.kind (Bay.location bay)) (readModule bay m).identity.serial
     ∃ t, exec (.moduleResponse m) s = .next t ∧
       (let owned (ref : Option InvRef) : Prop :=
          (∀ b, bay = .supply b → (s.chip.supply b).state = .identifying →
            (t.chip.supply b).handle = ref ∧ (t.chip.supply b).enable = true ∧
              (t.chip.supply b).capacity = numberAt m 31 2) ∧
          (∀ f, bay = .fan f → (s.chip.fan f).state = .identifying →
            (t.chip.fan f).handle = ref ∧ (t.chip.fan f).assumed = false ∧ (t.chip.fan f).ratedDraw = numberAt m 31 2)
        (∀ h r, known = some h → (s.chip.invHandle h).record = some r →
          (r.present = true → r.location ≠ Bay.location bay → t.chip.inventory = s.chip.inventory ∧ owned none) ∧
          (r.present = false → s.chip.boundAt (Bay.location bay) = none →
            t.chip.inventory.epoch = s.chip.inventory.epoch + 1 ∧
            t.chip.invHandle h = { generation := (s.chip.invHandle h).generation, record := some { r with
              location := Bay.location bay, present := true, identity := (readModule bay m).identity,
              arrivals := min 65535 (r.arrivals + 1), changeEpoch := s.chip.inventory.epoch + 1 } } ∧
            (∀ j, j ≠ h → t.chip.invHandle j = s.chip.invHandle j) ∧
            owned (some { handle := h, generation := (s.chip.invHandle h).generation }))) ∧
        (known = none → s.chip.freeHandle = none →
          t.chip.inventory = s.chip.inventory ∧ t.chip.alerted .chassis .inventoryFull ∧ owned none)) ∧
       t.chip.slots = s.chip.slots ∧ t.chip.engines = s.chip.engines ∧ t.chip.hub = s.chip.hub))

/-- MODULE_RESPONSE_TIMEOUT: the first expiry sends the read again as attempt 2; the second fails the read of a supply in
IDENTIFYING: FAILED with UNREAD, SUPPLY_FAILED raised, and the quiet period; and of a fan in IDENTIFYING, which runs on the
default figures of the settings, FAN_ASSUMED raised. MODULE_QUIET_END: the quiet period ends, and
the bay at the head of the queue is read. A read in flight has sent command byte 1 to address 64 + b of a supply bay or 72 + f
of a fan bay (section 11.4). -/
def Obligations.ModuleTimeoutsAndQuietEnd : Prop :=
  (∀ (s : State) (bay : Bay) (b : Fin 6), s.chip.quiescent →
    (s.chip.modules.reading = some (bay, false) → exec .moduleResponseTimeout s =
      .next (s.onChip (setModules { s.chip.modules with reading := some (bay, true) } s.chip))) ∧
    (s.chip.modules.reading = some (.supply b, true) → (s.chip.supply b).state = .identifying →
      ∃ t, exec .moduleResponseTimeout s = .next t ∧ t.chip.modules.reading = none ∧ t.chip.modules.quiet = true ∧
        (t.chip.supply b).state = .failed ∧ (t.chip.supply b).failReason = some .unread ∧
        (t.chip.supply b).enable = false ∧ (t.chip.supply b).capacity = (s.chip.supply b).capacity ∧
        t.chip.alerted (.supply b) .supplyFailed ∧ t.chip.inventory = s.chip.inventory ∧ t.chip.slots = s.chip.slots)) ∧
  (∀ (s : State) (f : Fin 8), s.chip.modules.reading = some (.fan f, true) → (s.chip.fan f).state = .identifying →
    ∃ t, exec .moduleResponseTimeout s = .next t ∧ t.chip.modules.reading = none ∧ t.chip.modules.quiet = true ∧
      (let x := t.chip.fan f
       x.handle = none ∧ x.assumed = true ∧ x.ratedDraw = s.chip.settings.defaultFanDraw ∧
       x.maxSpeed = s.chip.settings.defaultFanSpeed ∧ x.pulses = s.chip.settings.defaultFanPulses ∧
       x.target = min (s.chip.zone (fanZone f)).target s.chip.settings.defaultFanSpeed ∧ x.reservedBand = 63 ∧
       (if (s.chip.zone (fanZone f)).emergency then x.state = .boost ∧ x.band = 63
        else x.state = .calibrating ∧ x.band = 32)) ∧
      t.chip.alerted (.fan f) .fanAssumed ∧ (∀ f', f' ≠ f → t.chip.fan f' = s.chip.fan f') ∧
      t.chip.inventory = s.chip.inventory ∧ t.chip.slots = s.chip.slots ∧ t.chip.engines = s.chip.engines) ∧
  (∀ (s : State) (bay : Bay) (rest : List Bay), s.chip.quiescent → s.chip.modules.quiet = true →
    s.chip.modules.reading = none →
    (s.chip.modules.queue = [] → exec .moduleQuietEnd s =
      .next (s.onChip (setModules { s.chip.modules with quiet := false } s.chip))) ∧
    (s.chip.modules.queue = bay :: rest → exec .moduleQuietEnd s =
      .next (s.onChip (setModules
        { s.chip.modules with quiet := false, reading := some (bay, false), queue := rest } s.chip)))) ∧
  (∀ (m : ModuleLink) (second : Bool),
    (∀ b : Fin 6, m.reading = some (.supply b, second) → m.sentRequest = some (BitVec.ofNat 8 (64 + b.val), [1])) ∧
    (∀ f : Fin 8, m.reading = some (.fan f, second) → m.sentRequest = some (BitVec.ofNat 8 (72 + f.val), [1])) ∧
    (m.reading = none → m.sentRequest = none))

/-- PSU_PG_CHANGE, by the state of the supply and the new level (Table 30), and SUPPLY_START_DELAY_EXPIRY in STARTING: FAILED
with NO_OUTPUT, the enable deasserted and SUPPLY_FAILED raised. A supply that comes ONLINE and raises the budget, with nothing
being shed, serves the grant queue (R97 to R100): an ADMIT entry that fits is granted its run draw, else with floor admission
its floor draw, and GRANT is asked for; an UPLIFT that fits is granted the run draw, and UNCAP is asked for; a second entry is
served in the same event when both fit; a head that does not fit blocks the queue. A supply lost from ONLINE that over-commits
the chassis starts shedding (R109, R112): the head of the projection walk acts, and a walk that appends nothing while no grant
is held raises BUDGET_EXHAUSTED. The walk (R108): nothing within the budget; CAP and OFF entries, all waiting, of slots that
are candidates; and for two slots in shed order that are candidates of both kinds, each cap before any OFF, and the first
slot's OFF before the second's. Shed order: lowest effective priority first, at equal priority the higher slot first. -/
def Obligations.SupplySignalsByState : Prop :=
  (∀ (s : State) (b : Fin 6) (level : Bool), (s.chip.supply b).powerGood = !level →
    ∃ t, exec (.psuPgChange b level) s = .next t ∧ (t.chip.supply b).powerGood = level ∧
      (match (s.chip.supply b).state, level with
       | .starting, true => t.chip.supply b =
           { s.chip.supply b with powerGood := true, state := .online, startDelay := false }
       | .online, false => t.chip.supply b =
           { s.chip.supply b with
             powerGood := false, state := .failed, failReason := some .lost, enable := false, startDelay := false } ∧
           t.chip.alerted (.supply b) .supplyFailed
       | _, _ => t.chip.supply b = { s.chip.supply b with powerGood := level }) ∧
      (∀ b', b' ≠ b → t.chip.supply b' = s.chip.supply b') ∧
      t.chip.slots = s.chip.slots ∧ t.chip.engines = s.chip.engines ∧ t.chip.modules = s.chip.modules ∧
      t.chip.inventory = s.chip.inventory ∧ t.chip.fans = s.chip.fans ∧ t.chip.hub = s.chip.hub) ∧
  (∀ (s : State) (b : Fin 6), (s.chip.supply b).startDelay = true → (s.chip.supply b).state = .starting →
    ∃ t, exec (.supplyStartDelayExpiry b) s = .next t ∧
      t.chip.supply b = { s.chip.supply b with
        state := .failed, failReason := some .noOutput, enable := false, startDelay := false } ∧
      t.chip.alerted (.supply b) .supplyFailed ∧ (∀ b', b' ≠ b → t.chip.supply b' = s.chip.supply b') ∧
      t.chip.slots = s.chip.slots ∧ t.chip.engines = s.chip.engines ∧ t.chip.modules = s.chip.modules ∧
      t.chip.inventory = s.chip.inventory ∧ t.chip.fans = s.chip.fans ∧ t.chip.hub = s.chip.hub) ∧
  (∀ (s : State) (b : Fin 6) (e : QueueEntry) (rest : List QueueEntry), s.chip.quiescent →
    (s.chip.supply b).powerGood = false → (s.chip.supply b).state = .starting → s.chip.power.shed = [] →
    s.chip.power.queue = e :: rest →
    (let k := e.slot
     let g := s.chip.grant k
     let run := s.chip.runDraw k
     let floor := s.chip.floorDraw k
     let online := setSupply b
       { s.chip.supply b with powerGood := true, state := .online, startDelay := false } s.chip
     let served (m : Instr) (g' : GrantRecord) : Prop := exec (.psuPgChange b true) s = .next (s.onChip
       (setMessages (s.chip.messages ++ [m]) (setGrant k g' (setQueue [] online))))
     s.chip.budget < online.budget →
     (e.kind = .admission → (e.need : Int) ≤ online.available → rest = [] →
       (let level := if run = 0 then .none else .full
        served (.grantRequest k run level)
          { g with grant := run, level := level, capSet := .empty, stage := .settling })) ∧
     (e.kind = .admission → online.available < e.need → s.chip.settings.floorAdmission = true → 0 < floor →
       (floor : Int) ≤ online.available → rest = [] →
       (let level := if floor = run then .full else .floor
        served (.grantRequest k floor level)
          { g with grant := floor, level := level, capSet := .onlyBudget, stage := .settling })) ∧
     (e.kind = .uplift → (e.need : Int) ≤ online.available → rest = [] →
       served (.uncapRequest k run)
         { g with grant := run, level := if run = 0 then .none else .full, capSet := { g.capSet with budget := false },
                  uncapRequest := true }) ∧
     (∀ e2, rest = [e2] → e.kind = .admission → e2.kind = .admission → e2.slot ≠ k → e.need = run →
       (e.need : Int) + e2.need ≤ online.available →
       ∃ t, exec (.psuPgChange b true) s = .next t ∧ t.chip.power.queue = [] ∧ (t.chip.grant k).grant = run ∧
         (t.chip.grant e2.slot).grant = s.chip.runDraw e2.slot) ∧
     (0 ≤ online.available → online.available < e.need →
       e.kind = .uplift ∨ s.chip.settings.floorAdmission = false ∨ floor = 0 ∨ online.available < floor →
       exec (.psuPgChange b true) s = .next (s.onChip online)))) ∧
  (∀ (s : State) (b : Fin 6), s.chip.quiescent → (s.chip.supply b).powerGood = true →
    (s.chip.supply b).state = .online → s.chip.power.shed = [] → s.chip.overCommitted = false →
    (let lost := setSupply b { s.chip.supply b with
       powerGood := false, state := .failed, failReason := some .lost, enable := false, startDelay := false } s.chip
     lost.overCommitted = true →
     ∃ t, exec (.psuPgChange b false) s = .next t ∧
       (lost.projectionWalk none = [] → t.chip.power.shed = [] ∧
         (s.chip.totalGrants = 0 → t.chip.alerted .chassis .budgetExhausted)) ∧
       (∀ e rest, lost.projectionWalk none = e :: rest →
         t.chip.power.shed = { e with acting := true } :: rest ∧
         (e.action = .cap → (t.chip.grant e.slot).capSet.budget = true ∧
           ((s.chip.grant e.slot).capRequest = none →
             (t.chip.grant e.slot).capRequest = some .onlyBudget ∧
             Instr.capRequest e.slot (s.chip.floorDraw e.slot) ∈ t.chip.messages)) ∧
         (e.action = .off → Instr.shedOffAction e.slot ∈ t.chip.messages)))) ∧
  (∀ c : Chip,
    (let cap (k : Fin 16) : Prop :=
       (c.slot k).state = .running ∧ (c.grant k).level = .full ∧ c.floorDraw k ≠ 0
     let off (k : Fin 16) : Prop := (c.slot k).switchClosed = true ∧ ((c.slot k).state = .powering ∨
       (c.slot k).state = .starting ∨ (c.slot k).state = .running ∨ (c.slot k).state = .adopting)
     let entry (k : Fin 16) (x : ShedAction) : ShedEntry := { slot := k, action := x, acting := false }
     (c.shedOrder.Pairwise fun i j => ∃ p q, c.effectivePriority i = some p ∧ c.effectivePriority j = some q ∧
       (p < q ∨ (p = q ∧ j < i))) ∧
     (∀ k p, c.effectivePriority k = some p → p ≤ 7 → k ∈ c.shedOrder) ∧
     (∀ e ∈ c.projectionWalk none, e.acting = false ∧ (e.action = .cap → cap e.slot) ∧ (e.action = .off → off e.slot)) ∧
     ((∀ k, (c.slot k).state ≠ .draining ∧ (c.slot k).state ≠ .poweringDown) →
       (c.committed ≤ c.budget → c.projectionWalk none = []) ∧
       (∀ j k, c.shedOrder = [j, k] → j ≠ k → cap j → cap k → off j → off k → c.budget < c.committed →
         (let p1 := c.committed - ((c.grant j).grant - c.floorDraw j)
          let p2 := p1 - ((c.grant k).grant - c.floorDraw k)
          c.projectionWalk none =
            (if p1 ≤ c.budget then [entry j .cap]
             else if p2 ≤ c.budget then [entry j .cap, entry k .cap]
             else if p2 - c.floorDraw j ≤ c.budget then [entry j .off, entry k .cap]
             else [entry j .off, entry k .off]))))))

/-! ## Fans and zones (chapters 6 and 7) -/

/-- SETTLE_PERIOD_END starts the count window of a decision; COUNT_WINDOW_END of a PINNED fan writes measured and the stall
count, judged by the band driven through the window, and starts the next window (log 41); COUNT_WINDOW_END of a BOOST fan
counts it weak by that band too (R131); RELEASE_TIMER_EXPIRY in LOCKED brings the reserved band, and the reservation with it, down
to the step covering the band. -/
def Obligations.FanPeriodsAndRelease : Prop :=
  (∀ (s : State) (f : Fin 8) (pulses : Nat), s.chip.quiescent →
    ((s.chip.fan f).window = .settle →
      exec (.settlePeriodEnd f) s = .next (s.onChip (setFan f { s.chip.fan f with
        window := .count, windowBand := (s.chip.fan f).band } s.chip))) ∧
    ((s.chip.fan f).window = .count → (s.chip.fan f).state = .pinned →
      (let stalls := if pulses = 0 ∧ 8 ≤ (s.chip.fan f).windowBand then (s.chip.fan f).stallCount + 1 else 0
       stalls < 5 → exec (.countWindowEnd f pulses) s = .next (s.onChip (setFan f { s.chip.fan f with
         measured := pulses * 300 / (s.chip.fan f).pulses, stallCount := stalls,
         windowBand := (s.chip.fan f).band } s.chip)))) ∧
    ((s.chip.fan f).window = .count → (s.chip.fan f).state = .boost → 0 < pulses →
      (let r := s.chip.fan f
       let m := pulses * 300 / r.pulses
       let weak := r.windowBand = 63 ∧ m < r.target ∧ 6 * r.target < (r.target - m) * 100
       let boosted (count : Nat) : Chip := setFan f { r with
         measured := m, stallCount := 0, weakCount := count, windowBand := r.band } s.chip
       (weak → r.weakCount ≠ 9 →
         exec (.countWindowEnd f pulses) s = .next (s.onChip (boosted (min 10 (r.weakCount + 1))))) ∧
       (weak → r.weakCount = 9 → exec (.countWindowEnd f pulses) s =
         .next (s.onChip (raise (.fan f) .fanWeak (boosted 10)))) ∧
       (¬ weak → exec (.countWindowEnd f pulses) s = .next (s.onChip (boosted 0)))))) ∧
  (∀ (s : State) (f : Fin 8), (s.chip.fan f).state = .locked → (s.chip.fan f).releaseTimer = true →
    ∃ t, exec (.releaseTimerExpiry f) s = .next t ∧
      t.chip.fan f = { s.chip.fan f with releaseTimer := false, reservedBand := stepCovering (s.chip.fan f).band } ∧
      t.chip.reservation f =
        { band := stepCovering (s.chip.fan f).band, ratedDraw := some (s.chip.fan f).ratedDraw } ∧
      (∀ f', f' ≠ f → t.chip.fan f' = s.chip.fan f' ∧ t.chip.reservation f' = s.chip.reservation f') ∧
      t.chip.slots = s.chip.slots ∧ t.chip.engines = s.chip.engines ∧ t.chip.hub = s.chip.hub)

/-- A sample in TRACKING of a window driven at the fan's band, below 63: within 3 % it raises the lock count and locks the fan
at the fourth in a row; below it, it raises the band by one, past the reserved band with the next step reserved first (R123);
above it, it lowers the band by one (R129). A sample in LOCKED: within 6 % it clears the unlock count, beyond it it raises it,
and at the fourth in a row the fan is TRACKING again (R130); that the unlock count is then 0 is the model's choice (log 59). A decision of a calibration before the last keeps the trial when the
fan turned no faster than the search target, and tries the next bit (R126); the last ends the search in TRACKING at the result,
with the step covering it reserved (R127). A sample that raises the stall count to 5 fails the fan (R132), whatever band it was
brought to within the window (R137, log 41). -/
def Obligations.SamplesMoveBands : Prop :=
  (∀ (s : State) (f : Fin 8) (pulses : Nat), s.chip.quiescent → (s.chip.fan f).window = .count →
    (s.chip.fan f).state = .tracking → 0 < pulses → (s.chip.fan f).band < (s.chip.fan f).reservedBand →
    (s.chip.fan f).band < 63 → (s.chip.fan f).windowBand = (s.chip.fan f).band →
    (let r := s.chip.fan f
     let m := pulses * 300 / r.pulses
     let sampled : Fan := { r with measured := m, stallCount := 0, weakCount := 0, windowBand := r.band }
     let off := (m - r.target) + (r.target - m)
     (off * 100 ≤ 3 * r.target → r.lockCount < 3 → exec (.countWindowEnd f pulses) s =
       .next (s.onChip (setFan f { sampled with lockCount := r.lockCount + 1 } s.chip))) ∧
     (off * 100 ≤ 3 * r.target → r.lockCount = 3 → exec (.countWindowEnd f pulses) s =
       .next (s.onChip (setFan f { sampled with
         state := .locked, lockCount := 4, unlockCount := 0,
         releaseTimer := decide (r.band + 8 ≤ r.reservedBand) } s.chip))) ∧
     (3 * r.target < off * 100 → m < r.target → exec (.countWindowEnd f pulses) s =
       .next (s.onChip (setFan f { sampled with
         band := r.band + 1, windowBand := r.band + 1, lockCount := 0 } s.chip))) ∧
     (3 * r.target < off * 100 → r.target < m → 0 < r.band → exec (.countWindowEnd f pulses) s =
       .next (s.onChip (setFan f { sampled with
         band := r.band - 1, windowBand := r.band - 1, lockCount := 0 } s.chip))))) ∧
  (∀ (s : State) (f : Fin 8) (pulses : Nat) (x : Search), s.chip.quiescent → (s.chip.fan f).window = .count →
    (s.chip.fan f).state = .calibrating → 0 < pulses → (s.chip.fan f).search = some x → x.index < 5 →
    (let r := s.chip.fan f
     let m := pulses * 300 / r.pulses
     let result := if m ≤ r.searchTarget then x.trial else x.partialResult
     let trial := result + 2 ^ (4 - x.index)
     exec (.countWindowEnd f pulses) s = .next (s.onChip (setFan f { r with
       measured := m, stallCount := 0, band := trial, window := .settle,
       search := some { index := x.index + 1, partialResult := result, trial := trial } } s.chip)))) ∧
  (∀ (s : State) (f : Fin 8) (pulses : Nat), (s.chip.fan f).window = .count → 0 < pulses →
    (let r := s.chip.fan f
     let m := pulses * 300 / r.pulses
     let rest (t : State) : Prop := (∀ f', f' ≠ f → t.chip.fan f' = s.chip.fan f' ∧ t.chip.reservation f' = s.chip.reservation f') ∧
       t.chip.slots = s.chip.slots ∧ t.chip.engines = s.chip.engines ∧ t.chip.hub = s.chip.hub
     (r.state = .tracking → r.band = r.reservedBand → r.band < 63 → r.windowBand = r.band →
       3 * r.target < (r.target - m) * 100 →
       (let step := if r.reservedBand < 56 then r.reservedBand + 8 else 63
        ∃ t, exec (.countWindowEnd f pulses) s = .next t ∧
         t.chip.fan f = { r with
           measured := m, stallCount := 0, weakCount := 0, band := r.band + 1, windowBand := r.band + 1, reservedBand := step,
           lockCount := 0 } ∧
         t.chip.reservation f = { band := step, ratedDraw := some r.ratedDraw } ∧ rest t)) ∧
     (∀ x, r.state = .calibrating → r.search = some x → x.index = 5 →
       (let result := if m ≤ r.searchTarget then x.trial else x.partialResult
        ∃ t, exec (.countWindowEnd f pulses) s = .next t ∧
         t.chip.fan f = { r with
           measured := m, stallCount := 0, state := .tracking, band := result, windowBand := result, search := none,
           reservedBand := stepCovering result, lockCount := 0 } ∧
         t.chip.reservation f = { band := stepCovering result, ratedDraw := some r.ratedDraw } ∧ rest t)) ∧
     (s.chip.quiescent → r.state = .locked → r.windowBand < 63 →
       (let sampled : Fan := { r with measured := m, stallCount := 0, weakCount := 0, windowBand := r.band }
        let off := (m - r.target) + (r.target - m)
        let becomes (x : Fan) : Prop := exec (.countWindowEnd f pulses) s = .next (s.onChip (setFan f x s.chip))
        (off * 100 ≤ 6 * r.target → becomes { sampled with unlockCount := 0 }) ∧
        (6 * r.target < off * 100 → r.unlockCount < 3 → becomes { sampled with unlockCount := r.unlockCount + 1 }) ∧
        (6 * r.target < off * 100 → r.unlockCount = 3 → becomes { sampled with
          state := .tracking, lockCount := 0, unlockCount := 0, releaseTimer := false }))))) ∧
  (∀ (s : State) (f : Fin 8), (s.chip.fan f).window = .count → 8 ≤ (s.chip.fan f).windowBand →
    (s.chip.fan f).stallCount = 4 →
    ∃ t, exec (.countWindowEnd f 0) s = .next t ∧
      (let r := t.chip.fan f
       r.state = .failed ∧ r.band = 0 ∧ r.reservedBand = 0 ∧ r.search = none ∧ r.pinnedBand = none ∧ r.lockCount = 0 ∧
       r.weakCount = 0 ∧ r.stallCount = 0 ∧ r.window = .none ∧ r.releaseTimer = false ∧ r.measured = 0 ∧
       r.handle = (s.chip.fan f).handle) ∧
      t.chip.alerted (.fan f) .fanFailed ∧ t.chip.slots = s.chip.slots ∧ t.chip.engines = s.chip.engines ∧
      t.chip.hub = s.chip.hub)

/-- GRACE_SECOND_TICK while the grace timer runs with more than a second left: grace remaining falls by one. GRACE_TIMER_EXPIRY:
grace remaining is 0 and the timer stops; every slot of the zone that is RUNNING and selected by the cause, all of them for
FANS and those at or below the critical margin for MARGIN, and was not sent one since its entry to RUNNING, is sent one thermal
drain request, and no other slot is sent one. No slot changes state. The evaluation of a zone (R141, R142, R148): an emergency
begins when its demand is at or below the critical margin or neither fan works, with its cause, ZONE_EMERGENCY, its driven
fans in BOOST, its slots that can be capped THERMAL, and the grace timer running; it ends when a fan works and the demand is
absent or clear of the margin by five degrees, with THERMAL removed, and its BOOST fans pinned or calibrating; else the cause
is written again. The removal of a fan whose neighbour does not work begins one, and the arrival of a fan in a zone with no
demand ends one. That the requests are posted in rising slot number is the model's choice (log 54). -/
def Obligations.GraceRunsOut : Prop :=
  (∀ (s : State) (z : Fin 4) (n : Nat), s.chip.quiescent →
    (s.chip.zone z).grace = some (n + 2) → (s.chip.zone z).graceTimer = true → exec (.graceSecondTick z) s =
      .next (s.onChip (setZone z { s.chip.zone z with grace := some (n + 1) } s.chip))) ∧
  (∀ (s : State) (z : Fin 4), (s.chip.zone z).graceTimer = true →
    ∃ t, exec (.graceTimerExpiry z) s = .next t ∧
      t.chip.zone z = { s.chip.zone z with grace := some 0, graceTimer := false } ∧ t.chip.slots = s.chip.slots ∧
      ∀ k, (let chosen := s.chip.slotZone k = z ∧ (s.chip.slot k).state = .running ∧
              ((s.chip.zone z).cause = some .fans ∨ s.chip.countedMargin k ≤ s.chip.settings.criticalMargin)
            (chosen → t.chip.fans.drainSent.read k = true) ∧
            (¬ chosen → t.chip.fans.drainSent.read k = s.chip.fans.drainSent.read k)) ∧
          (s.chip.quiescent → t.chip.messages = s.chip.messages ++
            ((keys 16).filter fun k => decide (s.chip.slotZone k = z ∧ (s.chip.slot k).state = .running ∧
              ((s.chip.zone z).cause = some .fans ∨ s.chip.countedMargin k ≤ s.chip.settings.criticalMargin) ∧
              s.chip.fans.drainSent.read k = false)).map Instr.thermalDrainRequest)) ∧
  (∀ (c : Chip) (z : Fin 4),
    (let idle (f : Fin 8) : Bool := decide ((c.fan f).state = .failed ∨ (c.fan f).state = .absent)
     let noFan := idle (firstFan z) && idle (secondFan z)
     let critical := ∃ d, (c.zone z).demand = some d ∧ d ≤ c.settings.criticalMargin
     let clear := ∀ d, (c.zone z).demand = some d → c.settings.criticalMargin + 5 ≤ d
     let t := evaluateZone z c
     ((c.zone z).emergency = false → noFan = false → ¬ critical → t = c) ∧
     ((c.zone z).emergency = false → noFan = true ∨ critical →
       t.zone z = { c.zone z with
         emergency := true, cause := some (if noFan then .fans else .margin), grace := some c.settings.emergencyGrace,
         graceTimer := true } ∧
       t.alerted (.zone z) .zoneEmergency ∧
       (∀ f, fanZone f = z →
         (match (c.fan f).state with
          | .calibrating | .tracking | .locked | .pinned =>
            (t.fan f).state = .boost ∧ (t.fan f).band = 63 ∧ (t.fan f).reservedBand = 63 ∧ (t.fan f).search = none ∧
              (t.fan f).pinnedBand = (c.fan f).pinnedBand
          | .absent | .identifying | .boost | .failed => t.fan f = c.fan f)) ∧
       (∀ k, c.slotZone k = z → (c.slot k).state = .running → c.floorDraw k ≠ 0 → (c.grant k).grant ≠ 0 →
         (t.grant k).capSet.thermal = true)) ∧
     ((c.zone z).emergency = true → noFan = false → clear →
       t.zone z = { c.zone z with emergency := false, cause := none, grace := none, graceTimer := false } ∧
       (∀ f, fanZone f = z → (c.fan f).state = .boost →
         (match (c.fan f).pinnedBand with
          | some b => (t.fan f).state = .pinned ∧ (t.fan f).band = b ∧ (t.fan f).reservedBand = stepCovering b
          | none => (t.fan f).state = .calibrating ∧ (t.fan f).band = 32 ∧ (t.fan f).reservedBand = 63)) ∧
       (∀ k, c.slotZone k = z → (t.grant k).capSet.thermal = false)) ∧
     ((c.zone z).emergency = true → noFan = true ∨ ¬ clear →
       t.zone z = { c.zone z with cause := some (if noFan then .fans else .margin) } ∧ ∀ f, t.fan f = c.fan f))) ∧
  (∀ (s : State) (f g : Fin 8), fanZone g = fanZone f → g ≠ f → (s.chip.modules.fans.read f).timer = true →
    ((s.chip.modules.fans.read f).pin = false → (s.chip.modules.fans.read f).field = true →
      (s.chip.fan f).state ≠ .absent → (s.chip.fan g).state = .failed ∨ (s.chip.fan g).state = .absent →
      (s.chip.zone (fanZone f)).emergency = false →
      ∃ t, exec (.modulePresenceDebounceExpiry (.fan f)) s = .next t ∧
        t.chip.zone (fanZone f) = { s.chip.zone (fanZone f) with
          emergency := true, cause := some .fans, grace := some s.chip.settings.emergencyGrace, graceTimer := true } ∧
        t.chip.alerted (.zone (fanZone f)) .zoneEmergency) ∧
    ((s.chip.modules.fans.read f).pin = true → (s.chip.modules.fans.read f).field = false →
      (s.chip.fan f).state = .absent → (s.chip.zone (fanZone f)).emergency = true →
      (s.chip.zone (fanZone f)).demand = none →
      ∃ t, exec (.modulePresenceDebounceExpiry (.fan f)) s = .next t ∧
        t.chip.zone (fanZone f) = { s.chip.zone (fanZone f) with
          emergency := false, cause := none, grace := none, graceTimer := false }))

/-! ## Frames and uplinks (chapters 8 and 9) -/

/-- UPLINK_FRAME_START: a usable uplink receives, another does not. UPLINK_FRAME_COMPLETION of the frame being received at a
usable uplink: a bad frame is counted in drops CHECK; a good one is counted in frames in, and joins the down queue of the
channel in PASS active there whose window holds its tag when its cells are free, an idle lane then choosing what to send (R173),
and is dropped for want of cells otherwise; a channel in HOLD or BAR drops it; with no such channel it is unmatched. A frame longer than the max frame of
a channel in HOLD or PASS puts it in BAR with its queues empty, is counted in drops OVERSIZE, and raises OVERSIZE (R158). -/
def Obligations.UplinkFramesAreTaken : Prop :=
  (∀ (s : State) (u : Fin 2), s.chip.quiescent →
    ((s.chip.uplink u).link = true → (s.chip.uplink u).admin = true → exec (.uplinkFrameStart u) s =
      .next (s.onChip (setUplink u { s.chip.uplink u with receiving := true } s.chip))) ∧
    ((s.chip.uplink u).link = false ∨ (s.chip.uplink u).admin = false → exec (.uplinkFrameStart u) s = .next s)) ∧
  (∀ (s : State) (u : Fin 2) (x : Frame), s.chip.quiescent → (s.chip.uplink u).receiving = true →
    (s.chip.uplink u).link = true → (s.chip.uplink u).admin = true →
    (let r := s.chip.uplink u
     let n := r.counters
     let good : Uplink := { r with receiving := false, counters := { n with framesIn := n.framesIn + 1 } }
     (x.good = false ∨ 1536 < x.length → exec (.uplinkFrameCompletion u x) s = .next (s.onChip (setUplink u
        { r with receiving := false, counters := { n with checkErrors := n.checkErrors + 1 } } s.chip))) ∧
     (∀ h ch, x.good = true → x.length ≤ 1536 →
       s.chip.channelFor x.tag (fun ch => decide (ch.active = u)) = some (h, ch) →
       (ch.state = .pass → x.length ≤ ch.maxFrame → frameCells x.length + ch.cellsInUse ≤ ch.cellCount →
         (s.chip.lane ch.slot).sending.isSome = true →
         exec (.uplinkFrameCompletion u x) s = .next (s.onChip
           (setChannel h (some { ch with down := ch.down ++ [x.length] }) (setUplink u good s.chip)))) ∧
       (ch.state = .pass → x.length ≤ ch.maxFrame → frameCells x.length + ch.cellsInUse ≤ ch.cellCount →
         (s.chip.lane ch.slot).sending = none →
         (let c := setChannel h (some { ch with down := ch.down ++ [x.length] }) (setUplink u good s.chip)
          ∃ l', c.laneSends ch.slot (s.chip.lane ch.slot) l' ∧
            exec (.uplinkFrameCompletion u x) s = .next (s.onChip (setLane ch.slot l' c)))) ∧
       (ch.state = .hold → x.length ≤ ch.maxFrame → exec (.uplinkFrameCompletion u x) s = .next (s.onChip
           (setChannel h (some { ch with counters := { ch.counters with heldDrops := ch.counters.heldDrops + 1 } })
             (setUplink u good s.chip)))) ∧
       (ch.state = .pass → x.length ≤ ch.maxFrame → ch.cellCount < frameCells x.length + ch.cellsInUse →
         0 < frameCells x.length → exec (.uplinkFrameCompletion u x) s = .next (s.onChip
           (setChannel h (some { ch with counters := { ch.counters with noCell := ch.counters.noCell + 1 } })
             (setUplink u good s.chip)))) ∧
       (ch.state = .bar → exec (.uplinkFrameCompletion u x) s = .next (s.onChip
           (setChannel h (some { ch with counters := { ch.counters with barredDrops := ch.counters.barredDrops + 1 } })
             (setUplink u good s.chip)))) ∧
       (ch.state ≠ .bar → ch.maxFrame < x.length → ∃ t ch', exec (.uplinkFrameCompletion u x) s = .next t ∧
         t.chip.channel h = some ch' ∧ ch'.state = .bar ∧ ch'.holdCause = none ∧ ch'.down = [] ∧ ch'.up = [] ∧
         ch'.granted = ch.granted ∧ ch'.counters.oversize = ch.counters.oversize + 1 ∧
         t.chip.alerted (.channel h) .oversize ∧ (t.chip.uplink u).counters.framesIn = n.framesIn + 1 ∧
         (∀ h', h' ≠ h → t.chip.channel h' = s.chip.channel h') ∧ t.chip.slots = s.chip.slots)) ∧
     (x.good = true → x.length ≤ 1536 → s.chip.channelFor x.tag (fun ch => decide (ch.active = u)) = none →
       exec (.uplinkFrameCompletion u x) s = .next (s.onChip (setUplink u { r with
         receiving := false,
         counters := { n with framesIn := n.framesIn + 1, unmatched := n.unmatched + 1 } } s.chip)))))

/-- A frame on a lane: dropped as idle outside RUNNING and DRAINING; counted in check errors when its check is bad or it is longer
than 1536 bytes; a stray when no granted channel of the slot holds its
tag; else stored in the up queue and on the egress list of the active uplink, which sends the head of the list at once when it
is idle and usable (R172), or dropped for want of cells or because the channel is in HOLD or BAR. A frame longer than the max frame
of a channel in HOLD or PASS puts it in BAR with its queues empty, is counted in drops OVERSIZE, and raises OVERSIZE. -/
def Obligations.LaneFramesAreTaken : Prop :=
  (∀ (s : State) (k : Fin 16) (x : Frame), s.chip.quiescent →
    (let r := s.chip.lane k
     let n := r.counters
     let good : Lane := { r with counters := { n with framesIn := n.framesIn + 1 } }
     let found := s.chip.channelFor x.tag fun ch => decide (ch.slot = k) && ch.granted
     ((s.chip.slot k).state.isCounted = false → exec (.laneFrameCompletion k x) s = .next (s.onChip
       (setLane k { r with counters := { n with idleDrops := n.idleDrops + 1 } } s.chip))) ∧
     ((s.chip.slot k).state.isCounted = true → x.good = false ∨ 1536 < x.length →
       exec (.laneFrameCompletion k x) s = .next (s.onChip
         (setLane k { r with counters := { n with checkErrors := n.checkErrors + 1 } } s.chip))) ∧
     ((s.chip.slot k).state.isCounted = true → x.good = true → x.length ≤ 1536 →
       (∀ h ch, found = some (h, ch) → ch.state = .bar → exec (.laneFrameCompletion k x) s = .next (s.onChip
         (setChannel h (some { ch with counters := { ch.counters with barredDrops := ch.counters.barredDrops + 1 } })
           (setLane k good s.chip)))) ∧
       (found = none → exec (.laneFrameCompletion k x) s = .next (s.onChip
         (setLane k { r with counters := { n with framesIn := n.framesIn + 1, stray := n.stray + 1 } } s.chip))) ∧
       (∀ h ch, found = some (h, ch) → x.length ≤ ch.maxFrame →
         (ch.state = .hold → exec (.laneFrameCompletion k x) s = .next (s.onChip
           (setChannel h (some { ch with counters := { ch.counters with heldDrops := ch.counters.heldDrops + 1 } })
             (setLane k good s.chip)))) ∧
         (ch.state = .pass → ch.cellCount < frameCells x.length + ch.cellsInUse → 0 < frameCells x.length →
           exec (.laneFrameCompletion k x) s = .next (s.onChip
             (setChannel h (some { ch with counters := { ch.counters with noCell := ch.counters.noCell + 1 } })
               (setLane k good s.chip)))) ∧
         (ch.state = .pass → frameCells x.length + ch.cellsInUse ≤ ch.cellCount →
           (let up := s.chip.uplink ch.active
            let list := up.egress ++ [(h, x.length)]
            exec (.laneFrameCompletion k x) s = .next (s.onChip
             (setUplink ch.active { up with
                 egress := list,
                 sending := if up.sending = none ∧ up.link = true ∧ up.admin = true
                   then list.head?.map (fun e => .stored e.1) else up.sending }
               (setChannel h (some { ch with up := ch.up ++ [x.length] }) (setLane k good s.chip)))))))))) ∧
  (∀ (s : State) (k : Fin 16) (x : Frame) (h : Fin 32) (ch : Channel),
    (s.chip.slot k).state.isCounted = true → x.good = true → x.length ≤ 1536 → ch.maxFrame < x.length →
    ch.state ≠ .bar → s.chip.channelFor x.tag (fun ch => decide (ch.slot = k) && ch.granted) = some (h, ch) →
    ∃ t ch', exec (.laneFrameCompletion k x) s = .next t ∧ t.chip.channel h = some ch' ∧
      ch'.state = .bar ∧ ch'.holdCause = none ∧ ch'.down = [] ∧ ch'.up = [] ∧ ch'.granted = ch.granted ∧
      ch'.counters.oversize = ch.counters.oversize + 1 ∧ t.chip.alerted (.channel h) .oversize ∧
      (∀ h', h' ≠ h → t.chip.channel h' = s.chip.channel h') ∧ t.chip.slots = s.chip.slots)

/-- UPLINK_TRANSMIT_COMPLETION and LANE_TRANSMIT_COMPLETION. A stored frame leaves its queue, and the egress list of the
uplink, and is counted in the channel and the uplink; a detached frame is freed and counted in nothing. The uplink, when usable,
then sends the next frame on its egress list (R172). The lane then sends the head of the down queue of the channel of its slot
with the next handle after its transmit pointer, wrapping round, and points at it; with no down frame left it is idle (R173).
Nothing else is changed. A channel that has frames of the other direction stored, or stands on its
preferred uplink, stays on its uplink; one that stands away from it, and whose last frame this was, goes back to its preferred
uplink in the same event when that is usable (R176). -/
def Obligations.TransmitCompletions : Prop :=
  ∀ (s : State) (u : Fin 2) (k : Fin 16) (h : Fin 32) (ch : Channel), s.chip.quiescent → s.chip.channel h = some ch →
    (let r := s.chip.uplink u
     let l := s.chip.lane k
     let next (waiting : List (Fin 32 × Nat)) : Option Sending :=
       if r.link && r.admin then waiting.head?.map (fun e => .stored e.1) else none
     let laneDone (c : Chip) : Prop := ∃ l', c.laneSends k l l' ∧
       exec (.laneTransmitCompletion k) s = .next (s.onChip (setLane k l' c))
     (r.sending = some (.stored h) → 0 < cellsOf ch.down ∨ ch.active = ch.preferred →
       exec (.uplinkTransmitCompletion u) s = .next (s.onChip
         (setChannel h (some { ch with
             up := ch.up.tail, counters := { ch.counters with framesUp := ch.counters.framesUp + 1 } })
           (setUplink u { r with
             sending := next r.egress.tail, egress := r.egress.tail,
             counters := { r.counters with framesOut := r.counters.framesOut + 1 } } s.chip)))) ∧
     (r.sending = some (.detached h) → 0 < cellsOf ch.down ∨ ch.active = ch.preferred →
       exec (.uplinkTransmitCompletion u) s = .next (s.onChip
         (setChannel h (some { ch with detachedUp := none })
           (setUplink u { r with sending := next r.egress } s.chip)))) ∧
     (l.sending = some (.detached h) → 0 < cellsOf ch.up ∨ ch.active = ch.preferred →
       laneDone (setChannel h (some { ch with detachedDown := none }) s.chip)) ∧
     (l.sending = some (.stored h) → 0 < cellsOf ch.up ∨ ch.active = ch.preferred →
       laneDone (setChannel h (some { ch with
         down := ch.down.tail, counters := { ch.counters with framesDown := ch.counters.framesDown + 1 } }) s.chip)) ∧
     (∀ n, 0 < n → ch.active ≠ ch.preferred → ch.detachedDown = none → ch.detachedUp = none →
       (let back := if (s.chip.uplink ch.preferred).link && (s.chip.uplink ch.preferred).admin then ch.preferred else ch.active
        (r.sending = some (.stored h) → u = ch.active → ch.up = [n] → ch.down = [] →
          exec (.uplinkTransmitCompletion u) s = .next (s.onChip
            (setChannel h (some { ch with
                up := [], active := back, counters := { ch.counters with framesUp := ch.counters.framesUp + 1 } })
              (setUplink u { r with
                sending := next r.egress.tail, egress := r.egress.tail,
                counters := { r.counters with framesOut := r.counters.framesOut + 1 } } s.chip)))) ∧
        (l.sending = some (.stored h) → ch.up = [] → ch.down = [n] →
          laneDone (setChannel h (some { ch with
            down := [], active := back, counters := { ch.counters with framesDown := ch.counters.framesDown + 1 } }) s.chip)))))

/-- UPL_LINK_CHANGE that takes a usable uplink down: LINK_DOWN, its egress list empty, and every channel in PASS on it fails
over, with FAILOVER, when it may fall back and the other uplink is usable, and is held for UPLINK, with UPLINK_HOLD,
otherwise. One that brings an ENABLED uplink up: LINK_UP, and the channels held for UPLINK that may carry traffic on it pass
again; while the other uplink is not usable it takes over, with FAILOVER, the channels held for UPLINK there that may fall back
and carry traffic, and leaves those that may not fall back (R175); a channel in PASS on the other uplink that prefers this one comes back to it when it is idle, and stays while it is busy
(R176). A change of an uplink that is DISABLED writes the link, and a fall ends its reception, and changes nothing else. That a
channel stands right after a loss where the loss put it, with no revert in the same event, is the model's deduction from R174
and R176 (log 15). -/
def Obligations.LinkChangesMoveChannels : Prop :=
  (∀ (s : State) (u : Fin 2), (s.chip.uplink u).link = true → (s.chip.uplink u).admin = true →
    ∃ t, exec (.uplLinkChange u false) s = .next t ∧ t.chip.alerted (.uplink u) .linkDown ∧
      (t.chip.uplink u).link = false ∧ (t.chip.uplink u).receiving = false ∧ (t.chip.uplink u).egress = [] ∧
      (t.chip.uplink u).sending = none ∧ t.chip.slots = s.chip.slots ∧ t.chip.engines = s.chip.engines ∧
      ∀ h ch, s.chip.channel h = some ch → ch.active = u → ch.state = .pass →
        ∃ ch', t.chip.channel h = some ch' ∧
          (if ch.fallback ∧ s.chip.usable (otherUplink u) then
            ch'.state = .pass ∧ ch'.active = otherUplink u ∧ t.chip.alerted (.channel h) .failover
          else ch'.state = .hold ∧ ch'.holdCause = some .uplink ∧ ch'.active = u ∧
            t.chip.alerted (.channel h) .uplinkHold)) ∧
  (∀ (s : State) (u : Fin 2), (s.chip.uplink u).link = false →
    ((s.chip.uplink u).admin = true → ∃ t, exec (.uplLinkChange u true) s = .next t ∧
      t.chip.alerted (.uplink u) .linkUp ∧ (t.chip.uplink u).link = true ∧ t.chip.slots = s.chip.slots ∧
      ∀ h ch, s.chip.channel h = some ch → ch.active = u → ch.state = .hold →
        ch.holdCause = some .uplink → ch.granted = true → (s.chip.slot ch.slot).state.isCounted = true →
        t.chip.channel h = some { ch with state := .pass, holdCause := none }) ∧
    ((s.chip.uplink u).admin = true →
      (s.chip.uplink (otherUplink u)).link = false ∨ (s.chip.uplink (otherUplink u)).admin = false →
      ∃ t, exec (.uplLinkChange u true) s = .next t ∧ t.chip.alerted (.uplink u) .linkUp ∧
        ∀ h ch, s.chip.channel h = some ch → ch.active ≠ u → ch.state = .hold → ch.holdCause = some .uplink →
          (ch.fallback = true → ch.granted = true → (s.chip.slot ch.slot).state.isCounted = true →
            t.chip.channel h = some { ch with state := .pass, holdCause := none, active := u } ∧
              t.chip.alerted (.channel h) .failover) ∧
          (ch.fallback = false ∨ ch.granted = false ∨ (s.chip.slot ch.slot).state.isCounted = false →
            ch.preferred ≠ u → t.chip.channel h = some ch)) ∧
    ((s.chip.uplink u).admin = true → ∃ t, exec (.uplLinkChange u true) s = .next t ∧
      ∀ h ch, s.chip.channel h = some ch → ch.state = .pass → ch.active ≠ u → ch.preferred = u →
        t.chip.channel h = some (if ch.busy then ch else { ch with active := u })) ∧
    (s.chip.quiescent → (s.chip.uplink u).admin = false → exec (.uplLinkChange u true) s =
      .next (s.onChip (setUplink u { s.chip.uplink u with link := true } s.chip)))) ∧
  (∀ (s : State) (u : Fin 2), s.chip.quiescent → (s.chip.uplink u).link = true → (s.chip.uplink u).admin = false →
    exec (.uplLinkChange u false) s =
      .next (s.onChip (setUplink u { s.chip.uplink u with link := false, receiving := false } s.chip)))

/-! ## The request port (chapter 10) -/

/-- PUT_REQUEST: with a slot in use it is discarded and sets overrun; accepted, it clears overrun and is decoded in the order of
Table 67 (R181). A message of 5 bytes or more with a bad check byte is answered BAD_CHECK, one whose length disagrees or whose
verb or table is unknown BAD_FORM, both with key form 255; a FETCH of a record number out of range RANGE; a request whose key
names no record NO_RECORD, or STALE with the generation and whether the handle is in use (coded by log 18). The message of any
well-formed request row whose key names a record is PENDING in the request slot; of UNACCEPTED_VERB, RETIRE and a DEFINE with
no items, that of the inventory table with the epoch key among them, are said, whose messages carry no operands. -/
def Obligations.PutRequestIsTaken : Prop :=
  ∀ (s : State) (m : List Byte), s.chip.quiescent →
    (let bytes := s.chip.statusByte :: List.replicate m.length 0
     let p := { s.chip.port with returned := bytes }
     (s.chip.port.request.isSome = true ∨ s.chip.port.response.isSome = true → exec (.putRequest m) s =
       .next (s.onChip (setPort { p with overrun := true } s.chip))) ∧
     (s.chip.port.request = none → s.chip.port.response = none →
       (let answers (r : List Byte) : Prop := exec (.putRequest m) s = .next (s.onChip
          (setPort { p with overrun := false, response := some r } s.chip))
        (∀ v t rest, m.length ≤ 256 → m.drop 2 = v :: t :: rest → rest ≠ [] →
          (byteSum m ≠ 0 → answers (responseMessage .badCheck v t [255] [])) ∧
          (byteSum m = 0 →
            number (m.take 2) + 2 ≠ m.length ∨ v.toNat = 0 ∨ 6 < v.toNat ∨ t.toNat = 0 ∨ 11 < t.toNat →
            answers (responseMessage .badForm v t [255] []))) ∧
        (∀ (table : TableId) (n : Byte), table ≠ .inventory → table ≠ .alert → tableSize table ≤ n.toNat →
          (let t := BitVec.ofNat 8 (tableCode table)
           m = withCheck [0, 5, 1, t, 0, n] → answers (responseMessage .range 1 t [0, n] []))) ∧
        (∀ (i : Instr) (verb : Verb) (table : TableId) (key : Key), i.wellFormed = true →
          requestHeader i = some (verb, table, key) → (∀ v t k, i = .unacceptedVerb v t k → v = .retire ∨ v = .define) →
          (requestMessage i).length ≤ 256 → m = requestMessage i →
          (let refused (x : Status) (result : List Byte) : Prop := answers (responseMessage x
             (BitVec.ofNat 8 (verbCode verb)) (BitVec.ofNat 8 (tableCode table)) (keyBytes key) result)
           (s.chip.keyNames table key = true → exec (.putRequest m) s = .next (s.onChip
             (setPort { p with overrun := false, request := some i } s.chip))) ∧
           (∀ n, key = .record n → s.chip.keyNames table key = false → refused .noRecord []) ∧
           (∀ q, key = .inv q → q ≠ .epoch → s.chip.resolve q = .noRecord → refused .noRecord []) ∧
           (∀ q g inUse, key = .inv q → s.chip.resolve q = .stale g inUse →
             refused .stale [g, if inUse then 1 else 0]))))))

/-- READ_STATUS and any unknown port command return the status byte (Table 71) and have no other effect; command byte 1 spells
READ_STATUS, 2 PUT_REQUEST, 3 GET_RESPONSE, and any other byte is unknown (R193). GET_RESPONSE: a
transfer that clocks less than the whole message leaves it READY; one that clocks it all, with no restart waiting, empties
the response slot; with the slot EMPTY only the status byte is returned. -/
def Obligations.PortReadsReturnStatusAndResponse : Prop :=
  (∀ (s : State) (command : Byte), s.chip.quiescent →
    (let flags := (if s.chip.port.request.isSome then 1 else 0) + (if s.chip.port.response.isSome then 2 else 0) +
       (if s.chip.port.overrun then 4 else 0) + (if s.chip.port.alerts = [] then 0 else 8)
     let after := s.onChip (setPort { s.chip.port with returned := [BitVec.ofNat 8 flags] } s.chip)
     exec .readStatus s = .next after ∧
     (command.toNat = 0 ∨ 3 < command.toNat → exec (.unknownPortCommand command) s = .next after))) ∧
  (∀ rest : List Byte, transferOf 1 rest = .readStatus ∧ transferOf 2 rest = .putRequest rest ∧
    transferOf 3 rest = .getResponse rest.length ∧
    ∀ command : Byte, command.toNat = 0 ∨ 3 < command.toNat → transferOf command rest = .unknownPortCommand command) ∧
  (∀ (s : State) (n : Nat) (m : List Byte), s.chip.quiescent →
    (s.chip.port.response = some m → n < m.length → exec (.getResponse n) s = .next (s.onChip
      (setPort { s.chip.port with returned := s.chip.statusByte :: m.take n } s.chip))) ∧
    (s.chip.port.response = some m → m.length ≤ n → s.chip.port.restartWaiting = false →
      exec (.getResponse n) s = .next (s.onChip (setPort { s.chip.port with
        response := none, returned := s.chip.statusByte :: (m ++ List.replicate (n - m.length) 0) } s.chip))) ∧
    (s.chip.port.response = none → exec (.getResponse n) s = .next (s.onChip
      (setPort { s.chip.port with returned := s.chip.statusByte :: List.replicate n 0 } s.chip))))

/-- The GET_RESPONSE that reads the whole answer while a restart waits restarts the part. The slots are mapped by Table 14; the
port is emptied, the settings are kept, and the alert index begins with the chassis and RESTARTED. The engines are as after cold
reset but for the interrogations of the slots in INTERROGATING and ADOPTING (R30). A slot whose switch stays CLOSED keeps its grant
without THERMAL, {BUDGET} taking the place of an empty set at FLOOR, and every other grant record is cleared; the queue is empty;
the shed list holds OFF entries of ADOPTING slots only, and with no fan to raise its reservation it is the walk of R108 with its
head ACTING, or empty with BUDGET_EXHAUSTED when no grant is held (R115). A supply in STARTING starts its delay afresh (R84). Every
zone is without demand and emergency (R140), and every fan is as Table 49 gives, the zone's target being a change in its new
state (R138). Every channel is in HOLD (SLOT) on its preferred uplink, granted only where its slot is ADOPTING, with no frames (R165);
every line is idle, with link, admin and counters kept (R178). The module link reads the first present bay in IDENTIFYING, and the
rest wait (R72). The model's own choices: a slot in POWERING or STARTING with power good deasserted goes through POWERING_DOWN within
the mapping (log 23); the frames flushed from an up queue are counted in the channel and in its uplink (log 38); the stall count of
a fan that stays CALIBRATING is kept (log 42), and a PINNED fan's first window is driven at its band (log 41); a LOCKED
fan keeps its unlock count (log 59); a running module quiet period ends (log 46). -/
def Obligations.WarmRestartMapsSlots : Prop :=
  ∀ (s : State) (n : Nat) (m : List Byte), s.chip.port.response = some m → m.length ≤ n →
    s.chip.port.restartWaiting = true →
    (let c := s.chip
     let zoneTarget (z : Fin 4) : Nat := ((c.zone z).active.read 0).speed
     let searching (r : Fan) (old : Nat) : Fan := { r with
       state := .calibrating, searchTarget := old, search := some { index := 0, partialResult := 0, trial := 32 }, band := 32,
       window := .settle }
     let bays : List Bay :=
       ((keys 6).filter fun b => decide ((c.supply b).state = .identifying) && (c.modules.supplies.read b).field).map Bay.supply ++
       ((keys 8).filter fun f => decide ((c.fan f).state = .identifying) && (c.modules.fans.read f).field).map Bay.fan
     ∃ t, exec (.getResponse n) s = .next t ∧ t.chip.settings = c.settings ∧ t.chip.port.request = none ∧
      t.chip.port.response = none ∧ t.chip.port.overrun = false ∧ t.chip.port.restartWaiting = false ∧
      t.chip.inventory = c.inventory ∧ (∃ e rest, t.chip.port.alerts = e :: rest ∧ e.object = .chassis) ∧
      t.chip.alerted .chassis .restarted ∧
      (∀ k,
        (let old := c.slot k
         let r := t.chip.slot k
         match old.state with
         | .running => r.state = .adopting ∧ r.switchClosed = true ∧ r.resetReleased = true ∧ r.adoptCause = none
         | .draining => r.state = .adopting ∧ r.adoptCause = old.drainCause ∧ r.drainCause = none
         | .adopting => r.state = .adopting ∧ r.adoptCause = old.adoptCause
         | .powering | .starting =>
           r.switchClosed = false ∧
             (if old.powerGood then r.state = .poweringDown ∧ r.outcome = some .interrogating ∧ r.powerDownTimer = some 500
              else if old.latch.field then r.state = .interrogating else r.state = .seated)
         | .poweringDown => r.state = .poweringDown ∧ r.outcome = old.outcome ∧ r.drainCause = old.drainCause ∧
             r.powerDownTimer = some 500
         | .held => r.state = .held ∧ r.holdReason = old.holdReason
         | .empty | .seated | .interrogating | .negotiating | .awaitingAdmit | .awaitingGrant =>
           if old.early.field = false ∨ old.late.field = false then r.state = .empty
           else if old.latch.field then r.state = .interrogating else r.state = .seated)) ∧
      (∀ k,
        (let idle : Engine := { phase := .idle, inFlight := none, quiet := false, list := .empty, settlement := none,
                                renegRequest := false, toggle := false, responses := 0, draft := none }
         t.chip.engine k = if (t.chip.slot k).state = .interrogating ∨ (t.chip.slot k).state = .adopting
           then { idle with phase := .interrogation, inFlight := sentPage .interrogate false, draft := some .fresh } else idle)) ∧
      (∀ k,
        (let g := c.grant k
         let caps := { g.capSet with thermal := false }
         t.chip.grant k = if (t.chip.slot k).switchClosed
           then { grant := g.grant, level := g.level, stage := .none, capRequest := none, uncapRequest := false,
                  capSet := if caps = .empty ∧ g.level = .floor then { CapSet.empty with budget := true } else caps }
           else { grant := 0, level := .none, capSet := .empty, stage := .none, capRequest := none, uncapRequest := false })) ∧
      t.chip.power.queue = [] ∧
      (∀ e ∈ t.chip.power.shed, e.action = .off ∧ (t.chip.slot e.slot).state = .adopting) ∧
      ((∀ f, (c.fan f).state ≠ .tracking ∧ (c.fan f).state ≠ .locked ∧ (c.fan f).state ≠ .boost) →
        (t.chip.overCommitted = false → t.chip.power.shed = []) ∧
        (t.chip.overCommitted = true →
          (t.chip.projectionWalk none = [] → t.chip.power.shed = [] ∧
            (t.chip.totalGrants = 0 → t.chip.alerted .chassis .budgetExhausted)) ∧
          ∀ e rest, t.chip.projectionWalk none = e :: rest → t.chip.power.shed = { e with acting := true } :: rest ∧
            Instr.shedOffAction e.slot ∈ t.chip.messages)) ∧
      (∀ b, t.chip.supply b =
        if (c.supply b).state = .starting then { c.supply b with startDelay := true } else c.supply b) ∧
      (∀ z, t.chip.zone z = { c.zone z with
        demand := none, target := zoneTarget z, emergency := false, cause := none, grace := none, graceTimer := false }) ∧
      (∀ f,
        (let r := c.fan f
         let new := min (zoneTarget (fanZone f)) r.maxSpeed
         let changed := 6 * r.target < ((new - r.target) + (r.target - new)) * 100
         let calibrated : Prop :=
           t.chip.fan f = { searching r (if changed then new else r.target) with
             target := new, reservedBand := 63, pinnedBand := none, lockCount := 0, weakCount := 0, stallCount := 0,
             releaseTimer := false } ∧
           t.chip.reservation f = { band := 63, ratedDraw := some r.ratedDraw }
         match r.state with
         | .absent | .identifying => t.chip.fan f = r ∧ t.chip.reservation f = c.reservation f
         | .failed => t.chip.fan f = { r with target := new } ∧ t.chip.reservation f = c.reservation f
         | .calibrating => t.chip.fan f = { searching r new with target := new } ∧ t.chip.reservation f = c.reservation f
         | .tracking | .locked | .boost => calibrated
         | .pinned => t.chip.fan f = { r with target := new, stallCount := 0, window := .count, windowBand := r.band } ∧
             t.chip.reservation f = c.reservation f)) ∧
      (∀ h, (c.channel h = none → t.chip.channel h = none) ∧ ∀ ch, c.channel h = some ch → t.chip.channel h = some { ch with
        state := .hold, holdCause := some .slot, granted := ch.granted && decide ((t.chip.slot ch.slot).state = .adopting),
        active := ch.preferred, down := [], up := [], detachedDown := none, detachedUp := none,
        counters := { ch.counters with
          flushed := ch.counters.flushed + BitVec.ofNat 32 (ch.down.length + ch.up.length) } }) ∧
      (∀ u,
        (let waiting (h : Fin 32) : Nat :=
           ((c.channel h).map fun ch => if ch.active = u then ch.up.length else 0).getD 0
         let r := c.uplink u
         t.chip.uplink u = { r with
           egress := [], receiving := false, sending := none,
           counters := { r.counters with
             flushed := r.counters.flushed + BitVec.ofNat 32 ((keys 32).map waiting).sum } })) ∧
      (∀ k, t.chip.lane k = { c.lane k with pointer := none, sending := none }) ∧
      t.chip.modules = { c.modules with
        quiet := false, reading := bays.head?.map (fun bay => (bay, false)), queue := bays.tail })

/-- FETCH of every table: answered OK with the fields of the record, and nothing but the port's two slots is changed; a free
channel or inventory handle is NO_RECORD, and an inventory generation other than the handle's is STALE. An inventory record is
found by its handle, by the location it is bound at and by its kind and serial. The coding of the answers that chapter 11 leaves
open, the epoch's four bytes with no field number and the STALE answer's in use among them, is the model's choice (log 18), and
the widths of some numbers its deduction (log 36). -/
def Obligations.FetchAnswersRecords : Prop :=
  (∀ (s : State) (i : Instr), s.chip.quiescent → s.chip.takes i →
    (let answers (a : Answer) : Prop := exec i s = .next (s.onChip (s.chip.answered i a))
     (∀ k, i = .fetchSlot k → answers { status := .ok, result := s.chip.slotFields k }) ∧
     (∀ b, i = .fetchSupply b → answers { status := .ok, result := supplyFields (s.chip.supply b) }) ∧
     (i = .fetchPower → answers { status := .ok, result := s.chip.powerFields }) ∧
     (∀ z, i = .fetchZone z → answers { status := .ok, result := zoneFields (s.chip.zone z) }) ∧
     (∀ f, i = .fetchFan f → answers { status := .ok, result := fanFields (s.chip.fan f) }) ∧
     (∀ h ch, i = .fetchChannel h → s.chip.channel h = some ch →
       answers { status := .ok, result := channelFields h ch }) ∧
     (∀ h, i = .fetchChannel h → s.chip.channel h = none → answers { status := .noRecord, result := [] }) ∧
     (∀ u, i = .fetchUplink u → answers { status := .ok, result := uplinkFields (s.chip.uplink u) }) ∧
     (∀ k, i = .fetchLane k → answers { status := .ok, result := laneFields (s.chip.lane k) }) ∧
     (i = .fetchSettings → answers { status := .ok, result := settingsFields s.chip.settings }) ∧
     (i = .fetchAlert .index → answers { status := .ok, result := indexBytes s.chip.port.alerts }) ∧
     (∀ o, i = .fetchAlert (.object o) →
       answers { status := .ok, result := causeBytes (causesOf o s.chip.port.alerts) }))) ∧
  (∀ (s : State) (h : Fin 48) (g : Byte), s.chip.quiescent →
    (let answers (i : Instr) (a : Answer) : Prop := exec i s = .next (s.onChip (s.chip.answered i a))
     let i := Instr.fetchInventory (.handle h g)
     let e := s.chip.invHandle h
     (s.chip.takes (.fetchInventory .epoch) →
       answers (.fetchInventory .epoch) { status := .ok, result := countBytes s.chip.inventory.epoch }) ∧
     (s.chip.takes i →
       (∀ r, e.record = some r → g = e.generation → answers i { status := .ok, result := inventoryFields h g r }) ∧
       (g ≠ e.generation → answers i
         { status := .stale, result := [e.generation, if e.record.isSome then 1 else 0] }) ∧
       (e.record = none → g = e.generation → answers i { status := .noRecord, result := [] })) ∧
     (∀ l, s.chip.takes (.fetchInventory (.location l)) →
       (∀ h r, s.chip.boundAt l = some h → (s.chip.invHandle h).record = some r →
         answers (.fetchInventory (.location l))
           { status := .ok, result := inventoryFields h (s.chip.invHandle h).generation r }) ∧
       (s.chip.boundAt l = none →
         answers (.fetchInventory (.location l)) { status := .noRecord, result := [] })) ∧
     (∀ kind chars, s.chip.takes (.fetchInventory (.serial kind chars)) →
       (∀ h r, s.chip.bySerial kind chars = some h → (s.chip.invHandle h).record = some r →
         answers (.fetchInventory (.serial kind chars))
           { status := .ok, result := inventoryFields h (s.chip.invHandle h).generation r }) ∧
       (s.chip.bySerial kind chars = none →
         answers (.fetchInventory (.serial kind chars)) { status := .noRecord, result := [] }))))

/-- UNACCEPTED_VERB, well formed: a verb its table does not accept is answered by the owner of the table and changes nothing but
the port's two slots: STATE when the key names a record or is the epoch key, of a DEFINE too (R181, R64), and NO_RECORD or STALE when it names none (R56; that the
owner judges the key as it takes the request is log 29, and the coding of STALE log 18). A request row that finds another request
PENDING, or the response slot READY without it, is discarded: overrun is set and nothing else changes (the model's choice,
log 3). -/
def Obligations.RefusedAndDiscardedRequests : Prop :=
  (∀ (s : State) (verb : Verb) (table : TableId) (key : Key), s.chip.quiescent →
    (let i := Instr.unacceptedVerb verb table key
     let answers (x : Status) (result : List Byte) : Prop :=
       exec i s = .next (s.onChip (s.chip.answered i { status := x, result := result }))
     i.wellFormed = true → s.chip.takes i →
     (s.chip.keyNames table key = true → answers .state []) ∧
     (∀ n, key = .record n → s.chip.keyNames table key = false → answers .noRecord []) ∧
     (∀ q, key = .inv q → q ≠ .epoch → s.chip.resolve q = .noRecord → answers .noRecord []) ∧
     (∀ q g inUse, key = .inv q → s.chip.resolve q = .stale g inUse → answers .stale [g, if inUse then 1 else 0]))) ∧
  (∀ (s : State) (i : Instr), s.chip.quiescent → (requestHeader i).isSome = true → s.chip.port.request ≠ some i →
    (s.chip.port.request.isSome = true ∨ s.chip.port.response.isSome = true) →
    exec i s = .next (s.onChip (setPort { s.chip.port with overrun := true } s.chip)))

/-! ## Requests that change records (chapters 1 to 10) -/

/-- AMEND_SLOT of a slot writes or removes the priority override (R2); one with an entry in the grant queue has it placed again,
with its kind and need, behind every entry of its new effective priority (R96), the queue then being served only where a head
can be. AMEND_INVENTORY writes the
asset tag with the next epoch (R64), AMEND_ZONE writes the staged curve and leaves the active one (R116); an override or
a tag out of range is refused with RANGE and another field of the slot with STATE, and nothing changes. -/
def Obligations.AmendsOfSlotInventoryAndZone : Prop :=
  (∀ (s : State) (k : Fin 16) (v : Byte) (n : Nat) (w : Option (List Byte)), s.chip.quiescent → s.chip.queueEntry k = none →
    (let i := Instr.amendSlot k [{ field := 10, value := some [v] }]
     s.chip.takes i →
     (v.toNat ≤ 7 → exec i s = .next (s.onChip ((setSlot k
       { s.chip.slot k with priorityOverride := some v.toNat } s.chip).answered i { status := .ok, result := [] }))) ∧
     (7 < v.toNat → exec i s = .next (s.onChip (s.chip.answered i { status := .range, result := [] })))) ∧
    (let i := Instr.amendSlot k [{ field := 10, value := none }]
     s.chip.takes i → exec i s = .next (s.onChip ((setSlot k
       { s.chip.slot k with priorityOverride := none } s.chip).answered i { status := .ok, result := [] }))) ∧
    (let i := Instr.amendSlot k [{ field := n, value := w }]
     s.chip.takes i → n ≠ 10 → itemWellFormed .slot { field := n, value := w } = true →
     exec i s = .next (s.onChip (s.chip.answered i { status := .state, result := [] })))) ∧
  (∀ (s : State) (k : Fin 16) (e : QueueEntry) (v : Option Byte), s.chip.quiescent → s.chip.queueEntry k = some e →
    (∀ n, v = some n → n.toNat ≤ 7) → s.chip.power.queue.Pairwise (fun x y => y.priority ≤ x.priority) →
    s.chip.power.shed ≠ [] ∨ (∀ x ∈ s.chip.power.queue, s.chip.available < x.need ∧
      (x.kind = .admission → s.chip.settings.floorAdmission = false ∨ s.chip.floorDraw x.slot = 0 ∨
        s.chip.available < s.chip.floorDraw x.slot)) →
    (let i := Instr.amendSlot k [{ field := 10, value := v.map fun n => [n] }]
     let p : Nat := match v with
       | some n => n.toNat
       | none => ((s.chip.slot k).terms.map Terms.priority).getD 0
     s.chip.takes i → ∃ before after,
       before ++ after = s.chip.power.queue.filter (fun x => decide (x.slot ≠ k)) ∧
       (∀ x ∈ before, p ≤ x.priority) ∧ (∀ x ∈ after, x.priority < p) ∧
       exec i s = .next (s.onChip ((setQueue (before ++ { e with priority := p } :: after) (setSlot k
         { s.chip.slot k with priorityOverride := v.map fun n => n.toNat } s.chip)).answered i
         { status := .ok, result := [] })))) ∧
  (∀ (s : State) (h : Fin 48) (r : InvRecord) (tag : List Byte), s.chip.quiescent → (s.chip.invHandle h).record = some r →
    tag.length ≤ 254 →
    (let i := Instr.amendInventory (.handle h (s.chip.invHandle h).generation) [{ field := 14, value := some tag }]
     s.chip.takes i →
     (tag.length ≤ 32 → tag.all printable = true →
       exec i s = .next (s.onChip (Chip.answered (setEpoch (s.chip.inventory.epoch + 1) (setInvHandle h
         { generation := (s.chip.invHandle h).generation,
           record := some { r with assetTag := some tag, changeEpoch := s.chip.inventory.epoch + 1 } } s.chip))
         i { status := .ok, result := [] }))) ∧
     (32 < tag.length ∨ tag.all printable = false →
       exec i s = .next (s.onChip (s.chip.answered i { status := .range, result := [] }))))) ∧
  (∀ (s : State) (z : Fin 4) (v : List Byte), s.chip.quiescent → v.length = 18 →
    (∀ j : Fin 6, ((readCurve v).read j).margin ≤ 127 ∧ ((readCurve v).read j).speed ≤ 30000) →
    (let i := Instr.amendZone z [{ field := 2, value := some v }]
     s.chip.takes i → exec i s = .next (s.onChip ((setZone z
       { s.chip.zone z with staged := readCurve v } s.chip).answered i { status := .ok, result := [] }))))

/-- AMEND_CHANNEL of a channel in HOLD that is not busy writes every named field when the definition as it would stand is in
range, a new slot has fewer than four records, and it meets no other record; the first that fails answers RANGE, FULL or OVERLAP.
A preferred uplink named is the active one too. A channel in PASS or BAR, the slot of a granted one, and a field of the hub are
refused with STATE, a busy channel with BUSY (R150, R154). AMEND_SETTINGS of one setting writes a value in the range and step of
Table 68; any other value is refused with RANGE and writes nothing (R185). A setting read at a later use changes nothing else.
Policy and base draw act at once (R90, R186): not over-committed before or after, with nothing queued or shed, only the setting
changes; a rise in available draw serves an admission that now fits; a new over-commit builds the shed list of R108, its head
acts, and BUDGET_EXHAUSTED stands on the chassis when nothing is left to shed and no grant is held; the end of an over-commit
keeps an ACTING head alone and leaves the queue waiting, and empties a list without one (R114). The critical margin acts at once:
every zone's demand and emergency are those of R118, R139, R141 and R148 under the new value. A zone map that moves a slot acts at
once: the demand and the emergency of the zone left and of the zone joined follow, the other zones keep their records, and
THERMAL follows the slot (R143); one that moves no slot changes nothing. RANGE for a code that names no value, of the settings 1, 2
and 5 or of a channel's uplinks and auto pass, is the model's choice (log 19). So is THERMAL judged by the old zone before and the
new zone after the AMEND, a deduction (log 16), and asked for between two ACTIVE zones too (log 61). -/
def Obligations.AmendsOfChannelAndSettings : Prop :=
  (∀ (s : State) (h : Fin 32) (ch : Channel) (items : List Item), s.chip.quiescent → s.chip.channel h = some ch →
    amendWellFormed .channel items = true →
    (let i := Instr.amendChannel h items
     let refused (x : Status) : Prop := exec i s = .next (s.onChip (s.chip.answered i { status := x, result := [] }))
     s.chip.takes i →
     ((∃ x ∈ items, x.field = 1 ∨ 11 ≤ x.field) → refused .state) ∧
     ((∀ x ∈ items, x.field ≠ 1 ∧ x.field ≤ 10) →
       (ch.state ≠ .hold → refused .state) ∧
       (ch.state = .hold → ch.busy = true → refused .busy) ∧
       (ch.state = .hold → ch.busy = false → ch.granted = true → (∃ x ∈ items, x.field = 2) → refused .state) ∧
       (ch.state = .hold → ch.busy = false → ch.granted = false ∨ (∀ x ∈ items, x.field ≠ 2) →
         ((∃ f ∈ [5, 6, 7], ∃ n, numberOf items f = some n ∧ 2 ≤ n) → refused .range) ∧
         ∀ d, ch.amendedTo items d →
           (d.breaksRange → refused .range) ∧
           (¬ d.breaksRange → d.slot ≠ ch.slot.val → s.chip.slotFull d.slot = true → refused .full) ∧
           (¬ d.breaksRange → d.slot = ch.slot.val ∨ s.chip.slotFull d.slot = false →
             (d.sharesWith s.chip (some h) → refused .overlap) ∧
             (¬ d.sharesWith s.chip (some h) → ∀ slot : Fin 16, slot.val = d.slot →
               exec i s = .next (s.onChip ((setChannel h (some { ch with
                 slot := slot, base := d.base, limit := d.limit, preferred := d.preferred, fallback := d.fallback,
                 autoPass := d.autoPass, maxFrame := d.maxFrame, firstCell := d.firstCell, cellCount := d.cellCount,
                 active := if namesField items 5 then d.preferred else ch.active }) s.chip).answered i
                 { status := .ok, result := [] })))))))) ∧
  (∀ (s : State) (v : List Byte), s.chip.quiescent →
    ∀ x ∈ ([
      (1, 0, 1, 1, fun n t => { t with autoAdmission := decide (n = 0) }),
      (4, 100, 2000, 5, fun n t => { t with slotCeiling := n }),
      (5, 0, 1, 1, fun n t => { t with floorAdmission := decide (n = 0) }),
      (7, 10, 2550, 10, fun n t => { t with powerUpDelay := n }),
      (8, 10, 2550, 10, fun n t => { t with resetHold := n }),
      (9, 1, 255, 1, fun n t => { t with drainTimeout := n }),
      (10, 1, 255, 1, fun n t => { t with shedDrainTimeout := n }),
      (11, 250, 10000, 250, fun n t => { t with pollInterval := n }),
      (13, 5, 255, 1, fun n t => { t with emergencyGrace := n }),
      (14, 1, 500, 1, fun n t => { t with defaultFanDraw := n }),
      (15, 1000, 30000, 1, fun n t => { t with defaultFanSpeed := n }),
      (16, 1, 4, 1, fun n t => { t with defaultFanPulses := n })] :
        List (Nat × Nat × Nat × Nat × (Nat → Settings → Settings))),
      (let n := number v
       let i := Instr.amendSettings [{ field := x.1, value := some v }]
       itemWellFormed .settings { field := x.1, value := some v } = true → s.chip.takes i →
       (x.2.1 ≤ n → n ≤ x.2.2.1 → n % x.2.2.2.1 = 0 → exec i s = .next (s.onChip
         ((setSettings (x.2.2.2.2 n s.chip.settings) s.chip).answered i { status := .ok, result := [] }))) ∧
       (n < x.2.1 ∨ x.2.2.1 < n ∨ n % x.2.2.2.1 ≠ 0 →
         exec i s = .next (s.onChip (s.chip.answered i { status := .range, result := [] }))))) ∧
  (∀ (s : State) (v : List Byte), s.chip.quiescent →
    ∀ x ∈ ([
      (2, 2, fun n t => { t with policy := if n = 0 then .none else if n = 1 then .nPlus1 else .nPlusN }),
      (3, 2000, fun n t => { t with baseDraw := n })] : List (Nat × Nat × (Nat → Settings → Settings))),
      (let n := number v
       let i := Instr.amendSettings [{ field := x.1, value := some v }]
       let new := x.2.2 n s.chip.settings
       let c := setSettings new s.chip
       itemWellFormed .settings { field := x.1, value := some v } = true → s.chip.takes i →
       (x.2.1 < n → exec i s = .next (s.onChip (s.chip.answered i { status := .range, result := [] }))) ∧
       (n ≤ x.2.1 →
         (s.chip.overCommitted = false → c.overCommitted = false → s.chip.power.shed = [] → s.chip.power.queue = [] →
           exec i s = .next (s.onChip (c.answered i { status := .ok, result := [] }))) ∧
         (s.chip.overCommitted = false → c.overCommitted = false → s.chip.power.shed = [] →
           s.chip.available < c.available →
           ∀ e, s.chip.power.queue = [e] → e.kind = .admission → (e.need : Int) ≤ c.available →
           ∃ t, exec i s = .next t ∧ t.chip.settings = new ∧ t.chip.power.queue = [] ∧
             (t.chip.grant e.slot).grant = s.chip.runDraw e.slot ∧ (t.chip.grant e.slot).stage = .settling ∧
             t.chip.port.response = some (answerMessage i { status := .ok, result := [] })) ∧
         (s.chip.overCommitted = false → c.overCommitted = true → s.chip.power.shed = [] →
           ∃ t, exec i s = .next t ∧ t.chip.settings = new ∧ t.chip.slots = s.chip.slots ∧
             t.chip.port.response = some (answerMessage i { status := .ok, result := [] }) ∧
             (c.projectionWalk none = [] → t.chip.power = s.chip.power ∧
               (s.chip.totalGrants = 0 → t.chip.alerted .chassis .budgetExhausted)) ∧
             ∀ e rest, c.projectionWalk none = e :: rest → t.chip.power.shed = { e with acting := true } :: rest ∧
               (e.action = .off → Instr.shedOffAction e.slot ∈ t.chip.messages) ∧
               (e.action = .cap → (t.chip.grant e.slot).capSet.budget = true ∧
                 ((s.chip.grant e.slot).capRequest = none →
                   Instr.capRequest e.slot (s.chip.floorDraw e.slot) ∈ t.chip.messages))) ∧
         (s.chip.overCommitted = true → c.overCommitted = false → (∀ e ∈ s.chip.power.shed, e.acting = false) →
           ∃ t, exec i s = .next t ∧ t.chip.settings = new ∧ t.chip.power.shed = [] ∧
             t.chip.port.response = some (answerMessage i { status := .ok, result := [] })) ∧
         (s.chip.overCommitted = true → c.overCommitted = false →
           ∀ e rest, s.chip.power.shed = e :: rest → e.acting = true → (∀ x ∈ rest, x.acting = false) →
             (s.chip.slot e.slot).switchClosed = true →
             exec i s = .next (s.onChip ((setShed [e] c).answered i { status := .ok, result := [] })))))) ∧
  (∀ (s : State) (v : Byte), s.chip.quiescent →
    (let i := Instr.amendSettings [{ field := 12, value := some [v] }]
     let new := { s.chip.settings with criticalMargin := v.toNat }
     let c := setSettings new s.chip
     s.chip.takes i →
     (30 < v.toNat → exec i s = .next (s.onChip (s.chip.answered i { status := .range, result := [] }))) ∧
     (v.toNat ≤ 30 → ∃ t, exec i s = .next t ∧ t.chip.settings = new ∧ t.chip.slots = s.chip.slots ∧
       t.chip.port.response = some (answerMessage i { status := .ok, result := [] }) ∧
       ∀ z, (t.chip.zone z).demand = c.demandOf z ∧
         (t.chip.zone z).emergency = s.chip.emergencyAfter z (c.demandOf z) v.toNat ∧
         ((t.chip.zone z).emergency = true →
           (t.chip.zone z).cause = some (if s.chip.fanCondition z then .fans else .margin) ∧
           ((s.chip.zone z).emergency = false → (t.chip.zone z).grace = some s.chip.settings.emergencyGrace ∧
             (t.chip.zone z).graceTimer = true ∧ t.chip.alerted (.zone z) .zoneEmergency)) ∧
         ((s.chip.zone z).emergency = true → (t.chip.zone z).emergency = false →
           (t.chip.zone z).cause = none ∧ (t.chip.zone z).grace = none ∧ (t.chip.zone z).graceTimer = false)))) ∧
  (∀ (s : State) (k z : Byte), s.chip.quiescent → 16 ≤ k.toNat ∨ 4 ≤ z.toNat →
    (let i := Instr.amendSettings [{ field := 6, value := some [1, k, z] }]
     s.chip.takes i → exec i s = .next (s.onChip (s.chip.answered i { status := .range, result := [] })))) ∧
  (∀ (s : State) (k : Fin 16) (z : Fin 4), s.chip.quiescent →
    (let i := Instr.amendSettings [{ field := 6, value := some [1, BitVec.ofNat 8 k.val, BitVec.ofNat 8 z.val] }]
     let new := { s.chip.settings with zoneMap := s.chip.settings.zoneMap.put k z }
     let c := setSettings new s.chip
     let y := s.chip.slotZone k
     s.chip.takes i →
     (y = z → exec i s = .next (s.onChip (s.chip.answered i { status := .ok, result := [] }))) ∧
     (y ≠ z → ∃ t, exec i s = .next t ∧ t.chip.settings = new ∧ t.chip.slots = s.chip.slots ∧
       t.chip.port.response = some (answerMessage i { status := .ok, result := [] }) ∧
       (∀ x, x = y ∨ x = z → (t.chip.zone x).demand = c.demandOf x ∧
         (t.chip.zone x).emergency = s.chip.emergencyAfter x (c.demandOf x) s.chip.settings.criticalMargin) ∧
       (∀ x, x ≠ y → x ≠ z → t.chip.zone x = s.chip.zone x) ∧
       (s.chip.canCap k = true → s.chip.queueEntry k = none → (t.chip.zone z).emergency = true →
         (t.chip.grant k).capSet.thermal = true) ∧
       ((s.chip.zone y).emergency = true → (t.chip.zone z).emergency = false →
         (t.chip.grant k).capSet.thermal = false))))

/-- DEFINE_CHANNEL with a valid definition takes the lowest free handle for a record in HOLD for HOST, not granted, with no
frames and every count 0, and answers the handle; with no free handle, or four channels of the slot, FULL; else one whose window or cell range meets that of a record OVERLAP. One
out of range is RANGE, whatever else it breaks, and so is a code that names no uplink, fallback or auto pass, by the model's
choice (log 19). A refusal leaves the table as it is (R153). RETIRE_CHANNEL:
a channel in HOLD that is not busy is removed with its alert causes; a busy one answers BUSY, one in PASS or BAR STATE. -/
def Obligations.DefineAndRetireChannel : Prop :=
  (∀ (s : State) (items : List Item) (d : Definition) (slot : Fin 16), s.chip.quiescent → defineWellFormed items = true →
    (∀ x ∈ items, x.field ≠ 1 ∧ x.field ≤ 10) → Definition.blank.with items = some d → d.slot = slot.val →
    d.inRange = true → s.chip.takes (.defineChannel items) →
    (∀ h, s.chip.freeChannel = some h → s.chip.slotFull d.slot = false → s.chip.overlaps none d = false →
      exec (.defineChannel items) s = .next (s.onChip ((setChannel h (some
        { slot := slot, base := d.base, limit := d.limit, preferred := d.preferred, fallback := d.fallback,
          autoPass := d.autoPass, maxFrame := d.maxFrame, firstCell := d.firstCell, cellCount := d.cellCount,
          state := .hold, holdCause := some .host, granted := false, active := d.preferred,
          counters := { framesUp := 0, framesDown := 0, noCell := 0, heldDrops := 0, barredDrops := 0, oversize := 0,
                        flushed := 0 },
          down := [], up := [], detachedDown := none, detachedUp := none }) s.chip).answered (.defineChannel items)
        { status := .ok, result := [BitVec.ofNat 8 h.val] }))) ∧
    (s.chip.freeChannel = none ∨ s.chip.slotFull d.slot = true →
      exec (.defineChannel items) s = .next (s.onChip (s.chip.answered (.defineChannel items)
        { status := .full, result := [] }))) ∧
    (∀ h, s.chip.freeChannel = some h → s.chip.slotFull d.slot = false → d.sharesWith s.chip none →
      exec (.defineChannel items) s = .next (s.onChip (s.chip.answered (.defineChannel items)
        { status := .overlap, result := [] })))) ∧
  (∀ (s : State) (items : List Item), s.chip.quiescent → defineWellFormed items = true →
    (∀ x ∈ items, x.field ≠ 1 ∧ x.field ≤ 10) → s.chip.takes (.defineChannel items) →
    (∃ d, Definition.blank.with items = some d ∧ d.breaksRange) ∨
      (∃ f ∈ [5, 6, 7], ∃ n, numberOf items f = some n ∧ 2 ≤ n) →
    exec (.defineChannel items) s = .next (s.onChip (s.chip.answered (.defineChannel items)
      { status := .range, result := [] }))) ∧
  (∀ (s : State) (h : Fin 32) (ch : Channel), s.chip.quiescent → s.chip.channel h = some ch →
    (let i := Instr.retireChannel h
     s.chip.takes i →
     (ch.state = .hold → ch.busy = false → exec i s = .next (s.onChip (Chip.answered
       (setAlerts (s.chip.port.alerts.filter fun e => e.object ≠ .channel h) (setChannel h none s.chip)) i
       { status := .ok, result := [] }))) ∧
     (ch.state = .hold → ch.busy = true →
       exec i s = .next (s.onChip (s.chip.answered i { status := .busy, result := [] }))) ∧
     (ch.state = .pass ∨ ch.state = .bar →
       exec i s = .next (s.onChip (s.chip.answered i { status := .state, result := [] })))))

/-- RETIRE_INVENTORY by any key that names a record: a DEPARTED record is removed, its handle freed with the next generation
and the epoch raised by one, so that a key with the old generation is stale; a PRESENT record refuses with STATE (R63). -/
def Obligations.RetireInventoryByState : Prop :=
  ∀ (s : State) (key : InvKey) (h : Fin 48) (r : InvRecord), s.chip.quiescent → s.chip.resolve key = .found h r →
    (let i := Instr.retireInventory key
     s.chip.takes i →
     (r.present = false → exec i s = .next (s.onChip (Chip.answered (setEpoch (s.chip.inventory.epoch + 1) (setInvHandle h
       { generation := (s.chip.invHandle h).generation + 1, record := none } s.chip)) i { status := .ok, result := [] }))) ∧
     (r.present = false → ∀ t, exec i s = .next t →
       t.chip.resolve (.handle h (s.chip.invHandle h).generation) = .stale ((s.chip.invHandle h).generation + 1) false) ∧
     (r.present = true → exec i s = .next (s.onChip (s.chip.answered i { status := .state, result := [] }))))

/-- ACK of causes of the object's kind: the named causes leave the object's set, the answer carries what remains, an object
whose set empties leaves the index, and every other object keeps its causes and its order. -/
def Obligations.AckRemovesCauses : Prop :=
  ∀ (s : State) (o : AlertObject) (m : CauseSet), s.chip.quiescent → alertsWellFormed s.chip.port.alerts →
    causesBelong o m = true → s.chip.takes (.ack o m) →
    ∃ t, exec (.ack o m) s = .next t ∧
      t.chip.port.response = some (answerMessage (.ack o m)
        { status := .ok, result := causeBytes (causesOf o s.chip.port.alerts &&& ~~~m) }) ∧
      t.chip.port.request = none ∧
      causesOf o t.chip.port.alerts = causesOf o s.chip.port.alerts &&& ~~~m ∧
      (causesOf o s.chip.port.alerts &&& ~~~m = 0 → ∀ e ∈ t.chip.port.alerts, e.object ≠ o) ∧
      (t.chip.port.alerts.filter fun e => decide (e.object ≠ o)) =
        (s.chip.port.alerts.filter fun e => decide (e.object ≠ o)) ∧
      t.chip = { s.chip with port := t.chip.port } ∧ t.chip.settings = s.chip.settings

/-! ## Orders -/

/-- ORDER_ADMIT: a slot in AWAITING_ADMIT enters AWAITING_GRANT and the answer is OK; in any other state it is refused with
STATE. An AMEND of admission mode writes the setting and moves no slot (R11). -/
def Obligations.AdmitByState : Prop :=
  ∀ (s : State) (k : Fin 16), s.chip.quiescent →
    (s.chip.takes (.orderAdmit k) →
      ((s.chip.slot k).state = .awaitingAdmit → ∃ t, exec (.orderAdmit k) s = .next t ∧
        (t.chip.slot k).state = .awaitingGrant ∧ (t.chip.slot k).terms = (s.chip.slot k).terms ∧
        (t.chip.slot k).switchClosed = false ∧
        t.chip.port.response = some (answerMessage (.orderAdmit k) { status := .ok, result := [] }) ∧
        t.chip.port.request = none ∧ (∀ j, j ≠ k → t.chip.slot j = s.chip.slot j) ∧ t.chip.engines = s.chip.engines ∧
        t.chip.hub = s.chip.hub ∧ t.chip.inventory = s.chip.inventory) ∧
      ((s.chip.slot k).state ≠ .awaitingAdmit → exec (.orderAdmit k) s =
        .next (s.onChip (s.chip.answered (.orderAdmit k) { status := .state, result := [] })))) ∧
    (∀ v : Byte, v.toNat ≤ 1 →
      (let i := Instr.amendSettings [{ field := 1, value := some [v] }]
       s.chip.takes i → exec i s = .next (s.onChip ((setSettings
         { s.chip.settings with autoAdmission := decide (v.toNat = 0) } s.chip).answered i
         { status := .ok, result := [] }))))

/-- ORDER_READMIT: a HELD slot with its latch CLOSED leaves HELD for INTERROGATING or NEGOTIATING by its hold reason and its
handle; every other slot refuses with STATE (R20). ORDER_EVICT and ORDER_FORCE_OFF, by the state of the slot (Table 12); a FORCE_OFF
of a powered slot whose power good is deasserted completes at once, in HELD FORCED or SEATED by the latch, the grant given
back (R18, R19, R26). -/
def Obligations.ReadmitEvictAndForceOff : Prop :=
  (∀ (s : State) (k : Fin 16), s.chip.quiescent → s.chip.takes (.orderReadmit k) →
    ((s.chip.slot k).state = .held → (s.chip.slot k).latch.field = true → ∃ t, exec (.orderReadmit k) s = .next t ∧
      (t.chip.slot k).holdReason = none ∧ (t.chip.slot k).handle = (s.chip.slot k).handle ∧ (t.chip.slot k).terms = none ∧
      (t.chip.slot k).state =
        (if (s.chip.slot k).holdReason = some .duplicateIdentity ∨ (s.chip.slot k).holdReason = some .inventoryFull ∨
            (s.chip.slot k).holdReason = some .noAnswer ∨ (s.chip.slot k).holdReason = some .adoptMismatch ∨
            (s.chip.slot k).handle = none
         then .interrogating else .negotiating) ∧
      t.chip.port.response = some (answerMessage (.orderReadmit k) { status := .ok, result := [] }) ∧
      (∀ j, j ≠ k → t.chip.slot j = s.chip.slot j ∧ t.chip.engine j = s.chip.engine j)) ∧
    ((s.chip.slot k).state ≠ .held ∨ (s.chip.slot k).latch.field = false → exec (.orderReadmit k) s =
      .next (s.onChip (s.chip.answered (.orderReadmit k) { status := .state, result := [] })))) ∧
  (∀ (s : State) (k : Fin 16), s.chip.quiescent →
    (s.chip.takes (.orderEvict k) → ∃ t, exec (.orderEvict k) s = .next t ∧
      (let r := t.chip.slot k
       let ok := t.chip.port.response = some (answerMessage (.orderEvict k) { status := .ok, result := [] })
       match (s.chip.slot k).state with
       | .interrogating | .negotiating | .awaitingAdmit | .awaitingGrant =>
         ok ∧ r.state = .held ∧ r.holdReason = some .evicted ∧ t.chip.alerted (.slot k) .held
       | .powering | .starting =>
         ok ∧ (if (s.chip.slot k).powerGood then r.state = .poweringDown ∧ r.drainCause = some .evict
               else if (s.chip.slot k).latch.field then r.state = .held ∧ r.holdReason = some .evicted
               else r.state = .seated)
       | .running => ok ∧ r.state = .draining ∧ r.drainCause = some .evict
       | .empty | .seated | .held | .draining | .poweringDown | .adopting =>
         t = s.onChip (s.chip.answered (.orderEvict k) { status := .state, result := [] }))) ∧
    (s.chip.takes (.orderForceOff k) →
      ((s.chip.slot k).state.powered = true → (s.chip.slot k).powerGood = true →
        ∃ t, exec (.orderForceOff k) s = .next t ∧ (t.chip.slot k).state = .poweringDown ∧
          (t.chip.slot k).outcome = some .heldForced ∧ (t.chip.slot k).switchClosed = false ∧
          (t.chip.slot k).drainCause =
            (if (s.chip.slot k).state = .draining then (s.chip.slot k).drainCause else none) ∧
          t.chip.port.response = some (answerMessage (.orderForceOff k) { status := .ok, result := [] })) ∧
      ((s.chip.slot k).state.powered = true → (s.chip.slot k).powerGood = false →
        ∃ t, exec (.orderForceOff k) s = .next t ∧ (t.chip.slot k).switchClosed = false ∧
          (if (s.chip.slot k).latch.field then (t.chip.slot k).state = .held ∧ (t.chip.slot k).holdReason = some .forced ∧
             t.chip.alerted (.slot k) .held
           else (t.chip.slot k).state = .seated) ∧
          t.chip.released k ∧
          t.chip.port.response = some (answerMessage (.orderForceOff k) { status := .ok, result := [] })) ∧
      ((s.chip.slot k).state.powered = false → exec (.orderForceOff k) s =
        .next (s.onChip (s.chip.answered (.orderForceOff k) { status := .state, result := [] })))))

/-- ORDER_RENEGOTIATE of a RUNNING slot with no renegotiation asked for or running: with the link idle and no settlement in
progress the renegotiation starts and NEGOTIATE is sent; behind an exchange in flight or in the quiet period it is
remembered. Otherwise it is refused with STATE (R53). -/
def Obligations.RenegotiateStartsOrWaits : Prop :=
  ∀ (s : State) (k : Fin 16), s.chip.quiescent → s.chip.takes (.orderRenegotiate k) →
    (let e := s.chip.engine k
     let i := Instr.orderRenegotiate k
     ((s.chip.slot k).state = .running → e.renegRequest = false → e.inFlight = none → e.quiet = false →
       e.phase = .idle → e.settlement = none → exec i s = .next (s.onChip ((setEngine k
       { e with phase := .renegotiation, toggle := false, responses := 0, draft := some .fresh,
                inFlight := sentPage .negotiate false } s.chip).answered i { status := .ok, result := [] }))) ∧
     ((s.chip.slot k).state = .running → e.renegRequest = false → e.phase ≠ .renegotiation →
       e.inFlight.isSome = true ∨ e.quiet = true →
       exec i s = .next (s.onChip ((setEngine k { e with renegRequest := true } s.chip).answered i
         { status := .ok, result := [] }))) ∧
     ((s.chip.slot k).state ≠ .running ∨ e.renegRequest = true ∨ e.phase = .renegotiation →
       exec i s = .next (s.onChip (s.chip.answered i { status := .state, result := [] }))))

/-- ORDER_CAP and ORDER_UNCAP (R101, R102, R104) of a slot with no queue entry: CAP at level FULL with an empty cap set adds HOST
and asks for a CAP to the floor draw that carries it; UNCAP at a level other than FLOOR, or beside another reason, removes HOST;
UNCAP of the last reason at level FLOOR writes BUDGET in its place, and a RUNNING slot joins the queue for an uplift: with nothing
else waiting or being shed it is uplifted in the same event when the draw is there, and waits otherwise. CAP where HOST is
already in the set changes nothing; all are answered OK. CAP of a slot that is not RUNNING, has floor draw 0, or has grant 0 and
no HOST, and UNCAP without HOST, are refused with STATE. -/
def Obligations.CapAndUncapOrders : Prop :=
  ∀ (s : State) (k : Fin 16), s.chip.quiescent → s.chip.queueEntry k = none →
    (let g := s.chip.grant k
     let cap := Instr.orderCap k
     let uncap := Instr.orderUncap k
     (s.chip.takes cap →
       ((s.chip.slot k).state = .running → 0 < s.chip.floorDraw k → s.chip.floorDraw k < g.grant → g.level = .full →
         g.capSet = .empty → g.capRequest = none →
         exec cap s = .next (s.onChip ((setMessages (s.chip.messages ++ [.capRequest k (s.chip.floorDraw k)])
           (setGrant k { g with capSet := { CapSet.empty with host := true },
                                capRequest := some { CapSet.empty with host := true } } s.chip)).answered cap
           { status := .ok, result := [] }))) ∧
       ((s.chip.slot k).state = .running → 0 < s.chip.floorDraw k → g.capSet.host = true →
         exec cap s = .next (s.onChip (s.chip.answered cap { status := .ok, result := [] }))) ∧
       ((s.chip.slot k).state ≠ .running ∨ s.chip.floorDraw k = 0 ∨ (g.grant = 0 ∧ g.capSet.host = false) →
         exec cap s = .next (s.onChip (s.chip.answered cap { status := .state, result := [] })))) ∧
     (s.chip.takes uncap →
       (g.capSet.host = true → g.level ≠ .floor →
         exec uncap s = .next (s.onChip ((setGrant k { g with capSet := { g.capSet with host := false } } s.chip).answered
           uncap { status := .ok, result := [] }))) ∧
       (g.capSet.host = true → g.capSet.budget = true ∨ g.capSet.thermal = true →
         g.capSet.thermal = true ∨ (s.chip.slot k).state ≠ .running → exec uncap s =
           .next (s.onChip ((setGrant k { g with capSet := { g.capSet with host := false } } s.chip).answered
             uncap { status := .ok, result := [] }))) ∧
       (g.capSet = { CapSet.empty with host := true } → g.level = .floor → (s.chip.slot k).state = .running →
         s.chip.power.queue = [] → s.chip.power.shed = [] →
         (let need := s.chip.runDraw k - g.grant
          let budget : CapSet := { CapSet.empty with budget := true }
          ((need : Int) ≤ s.chip.available → exec uncap s = .next (s.onChip ((setMessages
            (s.chip.messages ++ [.uncapRequest k (s.chip.runDraw k)]) (setGrant k { g with
              grant := s.chip.runDraw k, level := if s.chip.runDraw k = 0 then .none else .full, capSet := .empty,
              uncapRequest := true } s.chip)).answered uncap { status := .ok, result := [] }))) ∧
          (s.chip.available < need → exec uncap s = .next (s.onChip ((setQueue
            [{ slot := k, kind := .uplift, need := need, priority := (s.chip.effectivePriority k).getD 0, fresh := false }]
            (setGrant k { g with capSet := budget } s.chip)).answered uncap { status := .ok, result := [] }))))) ∧
       (g.capSet.host = false →
         exec uncap s = .next (s.onChip (s.chip.answered uncap { status := .state, result := [] })))))

/-- ORDER_RETRY_SUPPLY by the state and fail reason of the supply (R81). -/
def Obligations.RetrySupplyByReason : Prop :=
  ∀ (s : State) (b : Fin 6), s.chip.quiescent → s.chip.takes (.orderRetrySupply b) →
    (let ok := answerMessage (.orderRetrySupply b) { status := .ok, result := [] }
     ((s.chip.supply b).state = .failed → (s.chip.supply b).failReason = some .noOutput ∨
         (s.chip.supply b).failReason = some .lost →
       ∃ t, exec (.orderRetrySupply b) s = .next t ∧ t.chip.port.response = some ok ∧
         (t.chip.supply b).failReason = none ∧ (t.chip.supply b).enable = true ∧
         (t.chip.supply b).state = (if (s.chip.supply b).powerGood then .online else .starting) ∧
         (t.chip.supply b).capacity = (s.chip.supply b).capacity ∧ (t.chip.supply b).handle = (s.chip.supply b).handle ∧
         t.chip.modules = s.chip.modules) ∧
     ((s.chip.supply b).state = .failed → (s.chip.supply b).failReason = some .unread →
       (s.chip.modules.supplies.read b).field = true → s.chip.modules.queue = [] → s.chip.modules.reading = none →
       s.chip.modules.quiet = false →
       exec (.orderRetrySupply b) s = .next (s.onChip ((setModules
         { s.chip.modules with reading := some (.supply b, false) }
         (setSupply b { s.chip.supply b with state := .identifying, failReason := none } s.chip)).answered
         (.orderRetrySupply b) { status := .ok, result := [] }))) ∧
     ((s.chip.supply b).state ≠ .failed → exec (.orderRetrySupply b) s =
       .next (s.onChip (s.chip.answered (.orderRetrySupply b) { status := .state, result := [] }))))

/-- ORDER_COMMIT_CURVE: a staged curve with speeds from 500 to 30000 rpm, margins that fall and speeds that do not fall from
point to point becomes the active one, the staged one is kept, the target follows it and a fan in BOOST keeps its band; any
other is refused with INVALID (R117). -/
def Obligations.CommitCurveChecksStaged : Prop :=
  ∀ (s : State) (z : Fin 4), s.chip.quiescent → s.chip.takes (.orderCommitCurve z) →
    (let q := (s.chip.zone z).staged
     let good := (∀ j : Fin 6, 500 ≤ (q.read j).speed ∧ (q.read j).speed ≤ 30000) ∧
       ∀ j : Fin 5, (q.read j.succ).margin < (q.read j.castSucc).margin ∧
         (q.read j.castSucc).speed ≤ (q.read j.succ).speed
     (good → ∃ t, exec (.orderCommitCurve z) s = .next t ∧
       t.chip.zone z = { s.chip.zone z with active := q, target := targetFor q (s.chip.zone z).demand } ∧
       t.chip.port.response = some (answerMessage (.orderCommitCurve z) { status := .ok, result := [] }) ∧
       (∀ z', z' ≠ z → t.chip.zone z' = s.chip.zone z') ∧ t.chip.slots = s.chip.slots ∧ t.chip.power = s.chip.power ∧
       (∀ f, (s.chip.fan f).state = .boost →
         (t.chip.fan f).state = .boost ∧ (t.chip.fan f).band = (s.chip.fan f).band)) ∧
     (¬ good → exec (.orderCommitCurve z) s =
       .next (s.onChip (s.chip.answered (.orderCommitCurve z) { status := .invalid, result := [] }))))

/-- ORDER_PIN, by the state of the fan: PINNED at the band, with the step covering it reserved; in BOOST the band is kept for
later; above 63 RANGE, and where no fan is driven STATE (R133). ORDER_UNPIN and ORDER_RETRY_FAN: a pinned or failed fan
starts a search at band 32 with its whole draw reserved, or boosts in an emergency; a BOOST fan loses its pin alone; every
other case is STATE (R134). That a count window which runs at a PIN goes on as the first window, the one of a calibration
decision too, is the model's choice (log 52), that it keeps the band it was started with its deduction (log 41), and that a LOCKED fan keeps its
unlock count its choice (log 59). A RETRY_FAN is reported to the emergency evaluation: it begins the emergency of a zone whose
demand is critical, and ends that of a zone clear of it, its fans then pinned or calibrating. -/
def Obligations.FanOrdersByState : Prop :=
  (∀ (s : State) (f : Fin 8) (band : Nat), s.chip.quiescent → s.chip.takes (.orderPin f band) →
    (let r := s.chip.fan f
     (band ≤ 63 → (r.state = .calibrating ∨ r.state = .tracking ∨ r.state = .locked ∨ r.state = .pinned) →
       ∃ t, exec (.orderPin f band) s = .next t ∧
         t.chip.fan f = { r with
           state := .pinned, pinnedBand := some band, search := none, releaseTimer := false, lockCount := 0, weakCount := 0,
           window := .count, windowBand := if r.window = .count then r.windowBand else band, band := band,
           reservedBand := stepCovering band } ∧
         t.chip.reservation f = { band := stepCovering band, ratedDraw := some r.ratedDraw } ∧
         t.chip.port.response = some (answerMessage (.orderPin f band) { status := .ok, result := [] }) ∧
         (∀ f', f' ≠ f → t.chip.fan f' = s.chip.fan f') ∧ t.chip.slots = s.chip.slots) ∧
     (band ≤ 63 → r.state = .boost → exec (.orderPin f band) s = .next (s.onChip ((setFan f
       { r with pinnedBand := some band } s.chip).answered (.orderPin f band) { status := .ok, result := [] }))) ∧
     (band ≤ 63 → (r.state = .absent ∨ r.state = .identifying ∨ r.state = .failed) → exec (.orderPin f band) s =
       .next (s.onChip (s.chip.answered (.orderPin f band) { status := .state, result := [] }))) ∧
     (63 < band → exec (.orderPin f band) s =
       .next (s.onChip (s.chip.answered (.orderPin f band) { status := .range, result := [] }))))) ∧
  (∀ (s : State) (f : Fin 8), s.chip.quiescent →
    (let r := s.chip.fan f
     let zone := s.chip.zone (fanZone f)
     let searching (x : Fan) : Prop :=
       x.state = .calibrating ∧ x.band = 32 ∧ x.reservedBand = 63 ∧ x.pinnedBand = none ∧ x.lockCount = 0 ∧
       x.weakCount = 0 ∧ x.stallCount = 0 ∧ x.searchTarget = r.target ∧ x.window = .settle ∧
       x.search = some { index := 0, partialResult := 0, trial := 32 } ∧ x.handle = r.handle ∧ x.ratedDraw = r.ratedDraw
     let boosted (x : Fan) : Prop :=
       x.state = .boost ∧ x.band = 63 ∧ x.reservedBand = 63 ∧ x.search = none ∧ x.lockCount = 0 ∧
       x.releaseTimer = false ∧ x.window = .count ∧ x.handle = r.handle ∧ x.ratedDraw = r.ratedDraw
     let answeredOk (i : Instr) (t : State) : Prop :=
       t.chip.port.response = some (answerMessage i { status := .ok, result := [] }) ∧
         (∀ f', f' ≠ f → t.chip.fan f' = s.chip.fan f') ∧ t.chip.slots = s.chip.slots
     (s.chip.takes (.orderUnpin f) →
       (r.state = .pinned → ∃ t, exec (.orderUnpin f) s = .next t ∧ answeredOk (.orderUnpin f) t ∧
         (if zone.emergency then boosted (t.chip.fan f) ∧ (t.chip.fan f).pinnedBand = none
          else searching (t.chip.fan f))) ∧
       (∀ b, r.state = .boost → r.pinnedBand = some b → exec (.orderUnpin f) s = .next (s.onChip ((setFan f
         { r with pinnedBand := none } s.chip).answered (.orderUnpin f) { status := .ok, result := [] }))) ∧
       (r.state ≠ .pinned → (r.state ≠ .boost ∨ r.pinnedBand = none) → exec (.orderUnpin f) s =
         .next (s.onChip (s.chip.answered (.orderUnpin f) { status := .state, result := [] })))) ∧
     (s.chip.takes (.orderRetryFan f) →
       (r.state = .failed → zone.emergency = false → s.chip.marginCondition (fanZone f) = false →
         ∃ t, exec (.orderRetryFan f) s = .next t ∧ answeredOk (.orderRetryFan f) t ∧ searching (t.chip.fan f)) ∧
       (∀ d, r.state = .failed → zone.emergency = true → zone.demand = some d → d < s.chip.settings.criticalMargin + 5 →
         ∃ t, exec (.orderRetryFan f) s = .next t ∧ answeredOk (.orderRetryFan f) t ∧ boosted (t.chip.fan f) ∧
           (t.chip.fan f).stallCount = 0 ∧ (t.chip.fan f).weakCount = 0) ∧
       (r.state = .failed → zone.emergency = true → r.pinnedBand = none →
         (∀ d, zone.demand = some d → s.chip.settings.criticalMargin + 5 ≤ d) →
         ∃ t, exec (.orderRetryFan f) s = .next t ∧ searching (t.chip.fan f) ∧
           t.chip.zone (fanZone f) = { zone with emergency := false, cause := none, grace := none, graceTimer := false } ∧
           (∀ f', f' ≠ f → (fanZone f' ≠ fanZone f ∨ (s.chip.fan f').state ≠ .boost) → t.chip.fan f' = s.chip.fan f') ∧
           (∀ f', f' ≠ f → fanZone f' = fanZone f → (s.chip.fan f').state = .boost → (t.chip.fan f').state =
             (if (s.chip.fan f').pinnedBand.isSome then .pinned else .calibrating)) ∧
           t.chip.port.response = some (answerMessage (.orderRetryFan f) { status := .ok, result := [] }) ∧
           t.chip.slots = s.chip.slots) ∧
       (∀ d, r.state = .failed → zone.emergency = false → zone.demand = some d → d ≤ s.chip.settings.criticalMargin →
         ∃ t, exec (.orderRetryFan f) s = .next t ∧ boosted (t.chip.fan f) ∧ t.chip.zone (fanZone f) = { zone with
             emergency := true, cause := some .margin, grace := some s.chip.settings.emergencyGrace, graceTimer := true } ∧
           t.chip.alerted (.zone (fanZone f)) .zoneEmergency ∧
           t.chip.port.response = some (answerMessage (.orderRetryFan f) { status := .ok, result := [] }) ∧
           t.chip.slots = s.chip.slots) ∧
       (r.state ≠ .failed → exec (.orderRetryFan f) s =
         .next (s.onChip (s.chip.answered (.orderRetryFan f) { status := .state, result := [] }))))))

/-- ORDER_PASS and ORDER_HOLD, by the state of the channel (R157). -/
def Obligations.PassAndHoldByState : Prop :=
  ∀ (s : State) (h : Fin 32) (ch : Channel), s.chip.quiescent → s.chip.channel h = some ch →
    (let pass := Instr.orderPass h
     let ok (i : Instr) (x : Channel) : Prop := exec i s =
       .next (s.onChip ((setChannel h (some x) s.chip).answered i { status := .ok, result := [] }))
     let refused : Prop := exec pass s = .next (s.onChip (s.chip.answered pass { status := .state, result := [] }))
     let usable (u : Fin 2) : Prop := (s.chip.uplink u).link = true ∧ (s.chip.uplink u).admin = true
     let mayCarry : Prop := ch.granted = true ∧
       ((s.chip.slot ch.slot).state = .running ∨ (s.chip.slot ch.slot).state = .draining)
     (s.chip.takes pass →
       (ch.state = .hold → mayCarry → usable ch.active → ok pass { ch with state := .pass, holdCause := none }) ∧
       (ch.state = .hold → mayCarry → ¬ usable ch.active → ch.fallback = true → usable (otherUplink ch.active) →
         ok pass { ch with state := .pass, holdCause := none, active := otherUplink ch.active }) ∧
       (ch.state = .hold → ¬ mayCarry → refused) ∧
       (ch.state = .hold → mayCarry → ¬ usable ch.active →
         ¬ (ch.fallback = true ∧ usable (otherUplink ch.active)) → refused) ∧
       (ch.state = .pass → ok pass ch) ∧
       (ch.state = .bar → refused)) ∧
     (s.chip.takes (.orderHold h) → ok (.orderHold h) { ch with state := .hold, holdCause := some .host }))

/-- ORDER_BAR puts a channel in HOLD or PASS in BAR with its queues empty and its grant kept, and changes nothing in BAR; it is
answered OK. ORDER_FLUSH of a channel in HOLD or BAR empties its queues, takes its frames off the egress list of its uplink,
counts them, and detaches a frame that a line is sending; with no frame stored nothing changes; it is answered OK. In PASS it
is refused with STATE. The BAR clauses are of R158, the flush of R162 and the FLUSH order of R159, none of them whole here. -/
def Obligations.BarAndFlushByState : Prop :=
  (∀ (s : State) (h : Fin 32) (ch : Channel), s.chip.quiescent → s.chip.channel h = some ch → s.chip.takes (.orderBar h) →
    (ch.state ≠ .bar → ∃ t ch', exec (.orderBar h) s = .next t ∧
      t.chip.port.response = some (answerMessage (.orderBar h) { status := .ok, result := [] }) ∧
      t.chip.channel h = some ch' ∧ ch'.state = .bar ∧ ch'.holdCause = none ∧ ch'.down = [] ∧ ch'.up = [] ∧
      ch'.granted = ch.granted ∧ (∀ h', h' ≠ h → t.chip.channel h' = s.chip.channel h') ∧ t.chip.slots = s.chip.slots) ∧
    (ch.state = .bar → exec (.orderBar h) s =
      .next (s.onChip (s.chip.answered (.orderBar h) { status := .ok, result := [] })))) ∧
  (∀ (s : State) (h : Fin 32) (ch : Channel), s.chip.quiescent → s.chip.channel h = some ch → s.chip.takes (.orderFlush h) →
    (let line := s.chip.lane ch.slot
     let up := s.chip.uplink ch.active
     (ch.state ≠ .pass → ∃ t ch', exec (.orderFlush h) s = .next t ∧
       t.chip.port.response = some (answerMessage (.orderFlush h) { status := .ok, result := [] }) ∧
       t.chip.channel h = some ch' ∧ ch'.state = ch.state ∧ ch'.down = [] ∧ ch'.up = [] ∧
       ch'.counters = { ch.counters with flushed := ch.counters.flushed + BitVec.ofNat 32 (ch.down.length + ch.up.length) } ∧
       (t.chip.uplink ch.active).egress = up.egress.filter (fun e => decide (e.1 ≠ h)) ∧
       (t.chip.uplink ch.active).counters =
         { up.counters with flushed := up.counters.flushed + BitVec.ofNat 32 ch.up.length } ∧
       (if line.sending = some (.stored h) then
          (t.chip.lane ch.slot).sending = some (.detached h) ∧ ch'.detachedDown = ch.down.head?
        else (t.chip.lane ch.slot).sending = line.sending ∧ ch'.detachedDown = ch.detachedDown) ∧
       (if up.sending = some (.stored h) then
          (t.chip.uplink ch.active).sending = some (.detached h) ∧ ch'.detachedUp = ch.up.head?
        else (t.chip.uplink ch.active).sending = up.sending ∧ ch'.detachedUp = ch.detachedUp) ∧
       (∀ h', h' ≠ h → t.chip.channel h' = s.chip.channel h') ∧ t.chip.slots = s.chip.slots) ∧
     (ch.state ≠ .pass → ch.down = [] → ch.up = [] → line.sending ≠ some (.stored h) → up.sending ≠ some (.stored h) →
       (∀ e ∈ up.egress, e.1 ≠ h) → exec (.orderFlush h) s =
         .next (s.onChip (s.chip.answered (.orderFlush h) { status := .ok, result := [] }))) ∧
     (ch.state = .pass → exec (.orderFlush h) s =
       .next (s.onChip (s.chip.answered (.orderFlush h) { status := .state, result := [] })))))

/-- ORDER_ENABLE and ORDER_DISABLE of an uplink whose link is DOWN write its admin field alone, and one that finds the admin it
asks for changes nothing (R168); ORDER_RESTART sets restart
waiting alone; all are answered OK. A DISABLE of a usable uplink raises LINK_DOWN and an ENABLE that makes one usable raises
LINK_UP. -/
def Obligations.AdminAndRestartOrders : Prop :=
  ∀ (s : State) (u : Fin 2) (admin : Bool), s.chip.quiescent →
    (let i := if admin then Instr.orderEnable u else Instr.orderDisable u
     s.chip.takes i →
     ((s.chip.uplink u).link = false ∨ (s.chip.uplink u).admin = admin → exec i s = .next (s.onChip ((setUplink u
       { s.chip.uplink u with admin := admin } s.chip).answered i { status := .ok, result := [] }))) ∧
     ((s.chip.uplink u).link = true → (s.chip.uplink u).admin = !admin → ∃ t, exec i s = .next t ∧
       (t.chip.uplink u).admin = admin ∧ t.chip.alerted (.uplink u) (if admin then .linkUp else .linkDown) ∧
       t.chip.port.response = some (answerMessage i { status := .ok, result := [] }))) ∧
    (s.chip.takes .orderRestart → exec .orderRestart s = .next (s.onChip ((setPort
      { s.chip.port with restartWaiting := true } s.chip).answered .orderRestart { status := .ok, result := [] })))

/-! ## Headlines -/

/-- Decoding reads what a host writes: the request message of every well-formed row but UNACCEPTED_VERB, whose row does not carry
the operands of its message, if it fits the request slot, decodes to the row with its key, whatever its operands. Every
response and every slot link page the part sends passes the check of R191, and such a page has the kind, the toggle and the
payload length of Table 73. -/
def Obligations.DecodeOfRequestMessage : Prop :=
  (∀ (i : Instr) (verb : Verb) (table : TableId) (key : Key), i.wellFormed = true →
    requestHeader i = some (verb, table, key) → (∀ v t k, i ≠ .unacceptedVerb v t k) → (requestMessage i).length ≤ 256 →
    decodeRequest (requestMessage i) =
      .request (BitVec.ofNat 8 (verbCode verb)) (BitVec.ofNat 8 (tableCode table)) key i) ∧
  (∀ (status : Status) (verb table : Byte) (key result : List Byte),
    byteSum (responseMessage status verb table key result) = 0) ∧
  (∀ x : Exchange, byteSum x.page = 0 ∧
    readPage x.page = { kind := x.request.kindCode, flags := if x.toggle then 1 else 0, payload := x.request.payload } ∧
    x.request.payload.length = (match x.request with
      | .grant _ _ => 3 | .channelGrant _ _ => 4 | .cap _ | .uncap _ => 2
      | .interrogate | .negotiate | .next | .shutdown | .poll => 0))

/-- Every step keeps every slot record in agreement with its state: switch, reset, hold reason, drain cause and outcome. -/
def Obligations.StepKeepsSlotsCoherent : Prop :=
  ∀ s t : State, s.chip.slotsCoherent → step s = .next t → t.chip.slotsCoherent

/-- Every step keeps every fan within the band it has reserved (R123). -/
def Obligations.StepKeepsFansBanded : Prop :=
  ∀ s t : State, s.chip.fansBanded → step s = .next t → t.chip.fansBanded

/-- Every step keeps the frames of every channel within its cell range. -/
def Obligations.StepKeepsChannelsInCells : Prop :=
  ∀ s t : State, s.chip.channelsFit → step s = .next t → t.chip.channelsFit

/-- Every step keeps the port from holding a request and a response at once, and the alert index from holding an object
twice or with no cause; and it leaves no queue service owed. -/
def Obligations.StepKeepsPort : Prop :=
  ∀ s t : State, s.chip.portExclusive → alertsWellFormed s.chip.port.alerts → s.chip.quiescent → step s = .next t →
    t.chip.portExclusive ∧ alertsWellFormed t.chip.port.alerts ∧ t.chip.quiescent

/-- The invariants hold at reset. -/
def Obligations.ResetMeetsInvariants : Prop :=
  State.reset.chip.slotsCoherent ∧ State.reset.chip.fansBanded ∧ State.reset.chip.channelsFit ∧
  State.reset.chip.portExclusive ∧ alertsWellFormed State.reset.chip.port.alerts ∧ State.reset.chip.quiescent ∧
  State.reset.pending = []
end

