-- ==== Sys2Proof/Laws/State.lean ====
section
/-!
SUPPORT. What each named write of the chip changes: one lemma for each write gives every block it leaves alone, and one for
each keyed write gives the records read after it.
-/

namespace Sys2Proof

namespace Bank

variable {n : Nat} {α : Type}

@[simp] theorem read_put_self (b : Bank n α) (i : Fin n) (a : α) : (b.put i a).read i = a := by
  show (Vector.set b i.val a i.isLt)[i.val] = a
  simp

theorem read_put_ne (b : Bank n α) {i j : Fin n} (a : α) (h : j ≠ i) : (b.put i a).read j = b.read j := by
  have h' : i.val ≠ j.val := fun e => h (Fin.ext e.symm)
  show (Vector.set b i.val a i.isLt)[j.val] = b[j.val]
  simp [h']

theorem read_put (b : Bank n α) (i j : Fin n) (a : α) : (b.put i a).read j = if j = i then a else b.read j := by
  split
  · subst_vars; exact read_put_self b _ a
  · exact read_put_ne b a (by assumption)

@[simp] theorem put_read (b : Bank n α) (i : Fin n) : b.put i (b.read i) = b := by
  show Vector.set b i.val b[i.val] i.isLt = b
  simp

@[simp] theorem read_fill (a : α) (i : Fin n) : (Bank.fill n a).read i = a := by
  show (Vector.replicate n a)[i.val] = a
  simp

@[simp] theorem read_gen (f : Fin n → α) (i : Fin n) : (Bank.gen f).read i = f i := by
  show (Vector.ofFn f)[i.val] = f i
  simp

end Bank

namespace Machine

/-! ## Blocks a write leaves alone -/

@[simp] theorem setSlot_keeps (k : Fin 16) (s : Slot) (c : Chip) :
    (setSlot k s c).engines = c.engines ∧ (setSlot k s c).modules = c.modules ∧ (setSlot k s c).inventory = c.inventory ∧
    (setSlot k s c).power = c.power ∧ (setSlot k s c).fans = c.fans ∧ (setSlot k s c).hub = c.hub ∧
    (setSlot k s c).port = c.port ∧ (setSlot k s c).messages = c.messages ∧ (setSlot k s c).statusPages = c.statusPages :=
  ⟨rfl, rfl, rfl, rfl, rfl, rfl, rfl, rfl, rfl⟩

@[simp] theorem setEngine_keeps (k : Fin 16) (e : Engine) (c : Chip) :
    (setEngine k e c).slots = c.slots ∧ (setEngine k e c).modules = c.modules ∧ (setEngine k e c).inventory = c.inventory ∧
    (setEngine k e c).power = c.power ∧ (setEngine k e c).fans = c.fans ∧ (setEngine k e c).hub = c.hub ∧
    (setEngine k e c).port = c.port ∧ (setEngine k e c).messages = c.messages ∧ (setEngine k e c).statusPages = c.statusPages :=
  ⟨rfl, rfl, rfl, rfl, rfl, rfl, rfl, rfl, rfl⟩

@[simp] theorem setPower_keeps (p : Power) (c : Chip) :
    (setPower p c).slots = c.slots ∧ (setPower p c).engines = c.engines ∧ (setPower p c).modules = c.modules ∧
    (setPower p c).inventory = c.inventory ∧ (setPower p c).fans = c.fans ∧ (setPower p c).hub = c.hub ∧
    (setPower p c).port = c.port ∧ (setPower p c).messages = c.messages ∧ (setPower p c).statusPages = c.statusPages :=
  ⟨rfl, rfl, rfl, rfl, rfl, rfl, rfl, rfl, rfl⟩

@[simp] theorem setGrant_keeps (k : Fin 16) (g : GrantRecord) (c : Chip) :
    (setGrant k g c).slots = c.slots ∧ (setGrant k g c).engines = c.engines ∧ (setGrant k g c).modules = c.modules ∧
    (setGrant k g c).inventory = c.inventory ∧ (setGrant k g c).fans = c.fans ∧ (setGrant k g c).hub = c.hub ∧
    (setGrant k g c).port = c.port ∧ (setGrant k g c).messages = c.messages ∧ (setGrant k g c).statusPages = c.statusPages :=
  ⟨rfl, rfl, rfl, rfl, rfl, rfl, rfl, rfl, rfl⟩

@[simp] theorem setQueue_keeps (q : List QueueEntry) (c : Chip) :
    (setQueue q c).slots = c.slots ∧ (setQueue q c).engines = c.engines ∧ (setQueue q c).modules = c.modules ∧
    (setQueue q c).inventory = c.inventory ∧ (setQueue q c).fans = c.fans ∧ (setQueue q c).hub = c.hub ∧
    (setQueue q c).port = c.port ∧ (setQueue q c).messages = c.messages ∧ (setQueue q c).statusPages = c.statusPages :=
  ⟨rfl, rfl, rfl, rfl, rfl, rfl, rfl, rfl, rfl⟩

@[simp] theorem setShed_keeps (l : List ShedEntry) (c : Chip) :
    (setShed l c).slots = c.slots ∧ (setShed l c).engines = c.engines ∧ (setShed l c).modules = c.modules ∧
    (setShed l c).inventory = c.inventory ∧ (setShed l c).fans = c.fans ∧ (setShed l c).hub = c.hub ∧
    (setShed l c).port = c.port ∧ (setShed l c).messages = c.messages ∧ (setShed l c).statusPages = c.statusPages :=
  ⟨rfl, rfl, rfl, rfl, rfl, rfl, rfl, rfl, rfl⟩

@[simp] theorem setServiceDue_keeps (b : Bool) (c : Chip) :
    (setServiceDue b c).slots = c.slots ∧ (setServiceDue b c).engines = c.engines ∧ (setServiceDue b c).modules = c.modules ∧
    (setServiceDue b c).inventory = c.inventory ∧ (setServiceDue b c).fans = c.fans ∧ (setServiceDue b c).hub = c.hub ∧
    (setServiceDue b c).port = c.port ∧ (setServiceDue b c).messages = c.messages ∧ (setServiceDue b c).statusPages = c.statusPages :=
  ⟨rfl, rfl, rfl, rfl, rfl, rfl, rfl, rfl, rfl⟩

@[simp] theorem setSupply_keeps (b : Fin 6) (p : Supply) (c : Chip) :
    (setSupply b p c).slots = c.slots ∧ (setSupply b p c).engines = c.engines ∧ (setSupply b p c).modules = c.modules ∧
    (setSupply b p c).inventory = c.inventory ∧ (setSupply b p c).fans = c.fans ∧ (setSupply b p c).hub = c.hub ∧
    (setSupply b p c).port = c.port ∧ (setSupply b p c).messages = c.messages ∧ (setSupply b p c).statusPages = c.statusPages :=
  ⟨rfl, rfl, rfl, rfl, rfl, rfl, rfl, rfl, rfl⟩

@[simp] theorem setReservation_keeps (f : Fin 8) (r : Reservation) (c : Chip) :
    (setReservation f r c).slots = c.slots ∧ (setReservation f r c).engines = c.engines ∧ (setReservation f r c).modules = c.modules ∧
    (setReservation f r c).inventory = c.inventory ∧ (setReservation f r c).fans = c.fans ∧ (setReservation f r c).hub = c.hub ∧
    (setReservation f r c).port = c.port ∧ (setReservation f r c).messages = c.messages ∧ (setReservation f r c).statusPages = c.statusPages :=
  ⟨rfl, rfl, rfl, rfl, rfl, rfl, rfl, rfl, rfl⟩

@[simp] theorem setZone_keeps (z : Fin 4) (r : Zone) (c : Chip) :
    (setZone z r c).slots = c.slots ∧ (setZone z r c).engines = c.engines ∧ (setZone z r c).modules = c.modules ∧
    (setZone z r c).inventory = c.inventory ∧ (setZone z r c).power = c.power ∧ (setZone z r c).hub = c.hub ∧
    (setZone z r c).port = c.port ∧ (setZone z r c).messages = c.messages ∧ (setZone z r c).statusPages = c.statusPages :=
  ⟨rfl, rfl, rfl, rfl, rfl, rfl, rfl, rfl, rfl⟩

@[simp] theorem setFan_keeps (f : Fin 8) (r : Fan) (c : Chip) :
    (setFan f r c).slots = c.slots ∧ (setFan f r c).engines = c.engines ∧ (setFan f r c).modules = c.modules ∧
    (setFan f r c).inventory = c.inventory ∧ (setFan f r c).power = c.power ∧ (setFan f r c).hub = c.hub ∧
    (setFan f r c).port = c.port ∧ (setFan f r c).messages = c.messages ∧ (setFan f r c).statusPages = c.statusPages :=
  ⟨rfl, rfl, rfl, rfl, rfl, rfl, rfl, rfl, rfl⟩

@[simp] theorem setDrainSent_keeps (k : Fin 16) (b : Bool) (c : Chip) :
    (setDrainSent k b c).slots = c.slots ∧ (setDrainSent k b c).engines = c.engines ∧ (setDrainSent k b c).modules = c.modules ∧
    (setDrainSent k b c).inventory = c.inventory ∧ (setDrainSent k b c).power = c.power ∧ (setDrainSent k b c).hub = c.hub ∧
    (setDrainSent k b c).port = c.port ∧ (setDrainSent k b c).messages = c.messages ∧ (setDrainSent k b c).statusPages = c.statusPages :=
  ⟨rfl, rfl, rfl, rfl, rfl, rfl, rfl, rfl, rfl⟩

@[simp] theorem setChannel_keeps (h : Fin 32) (ch : Option Channel) (c : Chip) :
    (setChannel h ch c).slots = c.slots ∧ (setChannel h ch c).engines = c.engines ∧ (setChannel h ch c).modules = c.modules ∧
    (setChannel h ch c).inventory = c.inventory ∧ (setChannel h ch c).power = c.power ∧ (setChannel h ch c).fans = c.fans ∧
    (setChannel h ch c).port = c.port ∧ (setChannel h ch c).messages = c.messages ∧ (setChannel h ch c).statusPages = c.statusPages :=
  ⟨rfl, rfl, rfl, rfl, rfl, rfl, rfl, rfl, rfl⟩

@[simp] theorem setUplink_keeps (u : Fin 2) (r : Uplink) (c : Chip) :
    (setUplink u r c).slots = c.slots ∧ (setUplink u r c).engines = c.engines ∧ (setUplink u r c).modules = c.modules ∧
    (setUplink u r c).inventory = c.inventory ∧ (setUplink u r c).power = c.power ∧ (setUplink u r c).fans = c.fans ∧
    (setUplink u r c).port = c.port ∧ (setUplink u r c).messages = c.messages ∧ (setUplink u r c).statusPages = c.statusPages :=
  ⟨rfl, rfl, rfl, rfl, rfl, rfl, rfl, rfl, rfl⟩

@[simp] theorem setLane_keeps (k : Fin 16) (r : Lane) (c : Chip) :
    (setLane k r c).slots = c.slots ∧ (setLane k r c).engines = c.engines ∧ (setLane k r c).modules = c.modules ∧
    (setLane k r c).inventory = c.inventory ∧ (setLane k r c).power = c.power ∧ (setLane k r c).fans = c.fans ∧
    (setLane k r c).port = c.port ∧ (setLane k r c).messages = c.messages ∧ (setLane k r c).statusPages = c.statusPages :=
  ⟨rfl, rfl, rfl, rfl, rfl, rfl, rfl, rfl, rfl⟩

@[simp] theorem setMatchOrder_keeps (k : Fin 16) (l : List (Fin 32)) (c : Chip) :
    (setMatchOrder k l c).slots = c.slots ∧ (setMatchOrder k l c).engines = c.engines ∧ (setMatchOrder k l c).modules = c.modules ∧
    (setMatchOrder k l c).inventory = c.inventory ∧ (setMatchOrder k l c).power = c.power ∧ (setMatchOrder k l c).fans = c.fans ∧
    (setMatchOrder k l c).port = c.port ∧ (setMatchOrder k l c).messages = c.messages ∧ (setMatchOrder k l c).statusPages = c.statusPages :=
  ⟨rfl, rfl, rfl, rfl, rfl, rfl, rfl, rfl, rfl⟩

@[simp] theorem setInvHandle_keeps (h : Fin 48) (r : InvHandle) (c : Chip) :
    (setInvHandle h r c).slots = c.slots ∧ (setInvHandle h r c).engines = c.engines ∧ (setInvHandle h r c).modules = c.modules ∧
    (setInvHandle h r c).power = c.power ∧ (setInvHandle h r c).fans = c.fans ∧ (setInvHandle h r c).hub = c.hub ∧
    (setInvHandle h r c).port = c.port ∧ (setInvHandle h r c).messages = c.messages ∧ (setInvHandle h r c).statusPages = c.statusPages :=
  ⟨rfl, rfl, rfl, rfl, rfl, rfl, rfl, rfl, rfl⟩

@[simp] theorem setEpoch_keeps (e : Count) (c : Chip) :
    (setEpoch e c).slots = c.slots ∧ (setEpoch e c).engines = c.engines ∧ (setEpoch e c).modules = c.modules ∧
    (setEpoch e c).power = c.power ∧ (setEpoch e c).fans = c.fans ∧ (setEpoch e c).hub = c.hub ∧
    (setEpoch e c).port = c.port ∧ (setEpoch e c).messages = c.messages ∧ (setEpoch e c).statusPages = c.statusPages :=
  ⟨rfl, rfl, rfl, rfl, rfl, rfl, rfl, rfl, rfl⟩

@[simp] theorem setModules_keeps (m : ModuleLink) (c : Chip) :
    (setModules m c).slots = c.slots ∧ (setModules m c).engines = c.engines ∧ (setModules m c).inventory = c.inventory ∧
    (setModules m c).power = c.power ∧ (setModules m c).fans = c.fans ∧ (setModules m c).hub = c.hub ∧
    (setModules m c).port = c.port ∧ (setModules m c).messages = c.messages ∧ (setModules m c).statusPages = c.statusPages :=
  ⟨rfl, rfl, rfl, rfl, rfl, rfl, rfl, rfl, rfl⟩

@[simp] theorem setPort_keeps (p : Port) (c : Chip) :
    (setPort p c).slots = c.slots ∧ (setPort p c).engines = c.engines ∧ (setPort p c).modules = c.modules ∧
    (setPort p c).inventory = c.inventory ∧ (setPort p c).power = c.power ∧ (setPort p c).fans = c.fans ∧
    (setPort p c).hub = c.hub ∧ (setPort p c).messages = c.messages ∧ (setPort p c).statusPages = c.statusPages :=
  ⟨rfl, rfl, rfl, rfl, rfl, rfl, rfl, rfl, rfl⟩

@[simp] theorem setAlerts_keeps (l : List AlertEntry) (c : Chip) :
    (setAlerts l c).slots = c.slots ∧ (setAlerts l c).engines = c.engines ∧ (setAlerts l c).modules = c.modules ∧
    (setAlerts l c).inventory = c.inventory ∧ (setAlerts l c).power = c.power ∧ (setAlerts l c).fans = c.fans ∧
    (setAlerts l c).hub = c.hub ∧ (setAlerts l c).messages = c.messages ∧ (setAlerts l c).statusPages = c.statusPages :=
  ⟨rfl, rfl, rfl, rfl, rfl, rfl, rfl, rfl, rfl⟩

@[simp] theorem setSettings_keeps (t : Settings) (c : Chip) :
    (setSettings t c).slots = c.slots ∧ (setSettings t c).engines = c.engines ∧ (setSettings t c).modules = c.modules ∧
    (setSettings t c).inventory = c.inventory ∧ (setSettings t c).power = c.power ∧ (setSettings t c).fans = c.fans ∧
    (setSettings t c).hub = c.hub ∧ (setSettings t c).messages = c.messages ∧ (setSettings t c).statusPages = c.statusPages :=
  ⟨rfl, rfl, rfl, rfl, rfl, rfl, rfl, rfl, rfl⟩

@[simp] theorem setMessages_keeps (l : List Instr) (c : Chip) :
    (setMessages l c).slots = c.slots ∧ (setMessages l c).engines = c.engines ∧ (setMessages l c).modules = c.modules ∧
    (setMessages l c).inventory = c.inventory ∧ (setMessages l c).power = c.power ∧ (setMessages l c).fans = c.fans ∧
    (setMessages l c).hub = c.hub ∧ (setMessages l c).port = c.port ∧ (setMessages l c).statusPages = c.statusPages :=
  ⟨rfl, rfl, rfl, rfl, rfl, rfl, rfl, rfl, rfl⟩

@[simp] theorem setStatusPages_keeps (n : Nat) (c : Chip) :
    (setStatusPages n c).slots = c.slots ∧ (setStatusPages n c).engines = c.engines ∧
    (setStatusPages n c).modules = c.modules ∧ (setStatusPages n c).inventory = c.inventory ∧
    (setStatusPages n c).power = c.power ∧ (setStatusPages n c).fans = c.fans ∧ (setStatusPages n c).hub = c.hub ∧
    (setStatusPages n c).port = c.port ∧ (setStatusPages n c).messages = c.messages :=
  ⟨rfl, rfl, rfl, rfl, rfl, rfl, rfl, rfl, rfl⟩

/-! ## Records read after a keyed write -/

theorem slot_setSlot (i j : Fin 16) (x : Slot) (c : Chip) : (setSlot i x c).slot j = if j = i then x else c.slot j :=
  Bank.read_put _ _ _ _

@[simp] theorem slot_setSlot_self (i : Fin 16) (x : Slot) (c : Chip) : (setSlot i x c).slot i = x := Bank.read_put_self _ _ _

theorem engine_setEngine (i j : Fin 16) (x : Engine) (c : Chip) : (setEngine i x c).engine j = if j = i then x else c.engine j :=
  Bank.read_put _ _ _ _

@[simp] theorem engine_setEngine_self (i : Fin 16) (x : Engine) (c : Chip) : (setEngine i x c).engine i = x := Bank.read_put_self _ _ _

theorem grant_setGrant (i j : Fin 16) (x : GrantRecord) (c : Chip) : (setGrant i x c).grant j = if j = i then x else c.grant j :=
  Bank.read_put _ _ _ _

@[simp] theorem grant_setGrant_self (i : Fin 16) (x : GrantRecord) (c : Chip) : (setGrant i x c).grant i = x := Bank.read_put_self _ _ _

theorem supply_setSupply (i j : Fin 6) (x : Supply) (c : Chip) : (setSupply i x c).supply j = if j = i then x else c.supply j :=
  Bank.read_put _ _ _ _

@[simp] theorem supply_setSupply_self (i : Fin 6) (x : Supply) (c : Chip) : (setSupply i x c).supply i = x := Bank.read_put_self _ _ _

theorem reservation_setReservation (i j : Fin 8) (x : Reservation) (c : Chip) : (setReservation i x c).reservation j = if j = i then x else c.reservation j :=
  Bank.read_put _ _ _ _

@[simp] theorem reservation_setReservation_self (i : Fin 8) (x : Reservation) (c : Chip) : (setReservation i x c).reservation i = x := Bank.read_put_self _ _ _

theorem zone_setZone (i j : Fin 4) (x : Zone) (c : Chip) : (setZone i x c).zone j = if j = i then x else c.zone j :=
  Bank.read_put _ _ _ _

@[simp] theorem zone_setZone_self (i : Fin 4) (x : Zone) (c : Chip) : (setZone i x c).zone i = x := Bank.read_put_self _ _ _

theorem fan_setFan (i j : Fin 8) (x : Fan) (c : Chip) : (setFan i x c).fan j = if j = i then x else c.fan j :=
  Bank.read_put _ _ _ _

@[simp] theorem fan_setFan_self (i : Fin 8) (x : Fan) (c : Chip) : (setFan i x c).fan i = x := Bank.read_put_self _ _ _

theorem channel_setChannel (i j : Fin 32) (x : Option Channel) (c : Chip) : (setChannel i x c).channel j = if j = i then x else c.channel j :=
  Bank.read_put _ _ _ _

@[simp] theorem channel_setChannel_self (i : Fin 32) (x : Option Channel) (c : Chip) : (setChannel i x c).channel i = x := Bank.read_put_self _ _ _

theorem uplink_setUplink (i j : Fin 2) (x : Uplink) (c : Chip) : (setUplink i x c).uplink j = if j = i then x else c.uplink j :=
  Bank.read_put _ _ _ _

@[simp] theorem uplink_setUplink_self (i : Fin 2) (x : Uplink) (c : Chip) : (setUplink i x c).uplink i = x := Bank.read_put_self _ _ _

theorem lane_setLane (i j : Fin 16) (x : Lane) (c : Chip) : (setLane i x c).lane j = if j = i then x else c.lane j :=
  Bank.read_put _ _ _ _

@[simp] theorem setLane_lane (i : Fin 16) (c : Chip) : setLane i (c.lane i) c = c := by
  show { c with hub := { c.hub with lanes := c.hub.lanes.put i (c.hub.lanes.read i) } } = c
  rw [Bank.put_read]

@[simp] theorem lane_setLane_self (i : Fin 16) (x : Lane) (c : Chip) : (setLane i x c).lane i = x := Bank.read_put_self _ _ _

theorem invHandle_setInvHandle (i j : Fin 48) (x : InvHandle) (c : Chip) : (setInvHandle i x c).invHandle j = if j = i then x else c.invHandle j :=
  Bank.read_put _ _ _ _

@[simp] theorem invHandle_setInvHandle_self (i : Fin 48) (x : InvHandle) (c : Chip) : (setInvHandle i x c).invHandle i = x := Bank.read_put_self _ _ _

end Machine

end Sys2Proof
end

