-- ==== Sys2Proof/Laws/Channels.lean ====
section
/-!
SUPPORT. The checks of a channel definition (R153) and the lane's choice (R173), as the rules word them.
-/

namespace Sys2Proof.Machine

/-- R153 step 1: a definition is in range when it meets none of the cases. -/
theorem Definition.inRange_iff {d : Definition} : d.inRange = true ↔ ¬ d.breaksRange := by
  have hc : frameCells d.maxFrame = (d.maxFrame + 127) / 128 := by simp [frameCells, ceilDiv]
  simp only [Definition.inRange, Definition.breaksRange, hc, decide_eq_true_eq, not_or]
  omega

/-- R153 step 3: a definition overlaps when it shares a tag or a cell with a record. -/
theorem Chip.overlaps_iff {c : Chip} {except : Option (Fin 32)} {d : Definition} :
    c.overlaps except d = true ↔ d.sharesWith c except := by
  simp only [Chip.overlaps, Chip.channelsWith, Definition.sharesWith, List.any_filter, List.any_eq_true, Bool.and_eq_true,
    decide_eq_true_eq]
  exact ⟨fun ⟨h, _, h1, h2⟩ => ⟨h, h2, h1⟩, fun ⟨h, h2, h1⟩ => ⟨h, List.mem_finRange h, h1, h2⟩⟩

/-- The lowest handle with a property is the first of those that have it. -/
theorem head?_filter_keys {p : Fin 32 → Bool} {h : Fin 32} :
    ((keys 32).filter p).head? = some h ↔ p h = true ∧ ∀ j, p j = true → h ≤ j := by
  have hm : ∀ j, j ∈ (keys 32).filter p ↔ p j = true := fun j => by simp [keys, List.mem_finRange]
  have hs : ((keys 32).filter p).Pairwise (· < ·) := (List.pairwise_lt_finRange 32).filter p
  generalize (keys 32).filter p = l at hm hs
  cases l with
  | nil => exact ⟨nofun, fun ⟨hp, _⟩ => absurd ((hm h).2 hp) List.not_mem_nil⟩
  | cons a l =>
    have ha := (hm a).1 List.mem_cons_self
    have hl : ∀ j, p j = true → a ≤ j := fun j hj => by
      rcases List.mem_cons.1 ((hm j).2 hj) with rfl | h'
      · exact le_rfl
      · exact ((List.pairwise_cons.1 hs).1 j h').le
    refine ⟨?_, fun ⟨hp, hh⟩ => congrArg some (le_antisymm (hl h hp) (hh a ha))⟩
    rintro ⟨⟩
    exact ⟨ha, hl⟩

/-- The ready channels of a slot in rising handle, as `Chip.nextDown` lists them. -/
theorem readyDown_list (c : Chip) (k : Fin 16) : ∃ r : Fin 32 → Bool, (∀ h, r h = true ↔ c.readyDown k h) ∧
    (c.channelsWith fun ch => decide (ch.slot = k) && !ch.down.isEmpty) = (keys 32).filter r := by
  refine ⟨fun h => (c.channel h).any fun ch => decide (ch.slot = k ∧ ch.down ≠ []), fun h => Iff.rfl, ?_⟩
  refine congrArg (fun p => (keys 32).filter fun h => (c.channel h).any p) (funext fun ch => ?_)
  cases ch.down <;> simp

/-- R173 step 1: the lane takes the channel that `Chip.takesDown` names. -/
theorem nextDown_of_takesDown {c : Chip} {k : Fin 16} {h : Fin 32} (ht : c.takesDown k (c.lane k).pointer h) :
    c.nextDown k = some h := by
  obtain ⟨r, hr, he⟩ := readyDown_list c k
  obtain ⟨hh, hl⟩ := ht
  rw [← hr] at hh
  replace hl : ∀ j, r j = true → _ := fun j hj => hl j ((hr j).1 hj)
  unfold Chip.nextDown
  rw [he]
  cases hp : (c.lane k).pointer with
  | none =>
    rw [hp] at hl
    exact head?_filter_keys.2 ⟨hh, fun j hj => by simpa using hl j hj⟩
  | some p =>
    rw [hp] at hl
    simp only [List.filter_filter, List.head?_append, Option.all_some, decide_eq_true_eq, decide_eq_false_iff_not] at hl ⊢
    by_cases ha : p < h
    · have hf : ((keys 32).filter fun j => decide (p < j) && r j).head? = some h :=
        head?_filter_keys.2 ⟨by simp [hh, ha], fun j hj => by
          simp only [Bool.and_eq_true, decide_eq_true_eq] at hj
          simpa [ha, hj.1] using hl j hj.2⟩
      rw [hf, Option.some_or]
    · simp only [ha, if_false] at hl
      have h0 : ((keys 32).filter fun j => decide (p < j) && r j) = [] :=
        List.filter_eq_nil_iff.2 fun j _ hj => by
          simp only [Bool.and_eq_true, decide_eq_true_eq] at hj
          exact (hl j hj.2).1 hj.1
      rw [h0, List.head?_nil, Option.none_or, head?_filter_keys]
      exact ⟨by simp [hh, not_lt.1 ha], fun j hj => (hl j (by simp at hj; exact hj.2)).2⟩

/-- R173: with no channel ready the lane takes none. -/
theorem nextDown_none {c : Chip} {k : Fin 16} (hn : ∀ h, ¬ c.readyDown k h) : c.nextDown k = none := by
  obtain ⟨r, hr, he⟩ := readyDown_list c k
  have h0 : (keys 32).filter r = [] := List.filter_eq_nil_iff.2 fun h _ hh => hn h ((hr h).1 hh)
  unfold Chip.nextDown
  rw [he, h0]
  cases (c.lane k).pointer <;> rfl

/-- R173: an idle lane starts what `Chip.laneSends` says, and nothing but the lane is changed. -/
theorem startLane_laneSends {c : Chip} {k : Fin 16} (hi : (c.lane k).sending = none) :
    ∃ l, c.laneSends k (c.lane k) l ∧ startLane k c = setLane k l c := by
  cases hn : c.nextDown k with
  | none =>
    refine ⟨c.lane k, ⟨fun _ => by simp [← hi], fun h ht => ?_⟩, ?_⟩
    · rw [nextDown_of_takesDown ht] at hn; exact absurd hn nofun
    · simp [startLane, hi, hn]
  | some h =>
    refine ⟨_, ⟨fun hr => ?_, fun h' ht => ?_⟩, by simp only [startLane, hi, hn, modLane]; rfl⟩
    · rw [nextDown_none hr] at hn; exact absurd hn nofun
    · rw [nextDown_of_takesDown ht] at hn; cases hn; rfl

end Sys2Proof.Machine
end

