-- ==== Sys2Proof/Laws/Power.lean ====
section
/-!
SUPPORT. What the power unit's operations can write: its own records, alert causes and messages. A property kept by those
three writes is kept by every operation of the power unit.
-/

namespace Sys2Proof.Machine

/-- A property of the chip that writes of the power unit's records, raised causes and messages do not disturb. -/
structure PowerKeeps (P : Chip → Prop) : Prop where
  power : ∀ p c, P c → P (setPower p c)
  raise : ∀ o x c, P c → P (raise o x c)
  messages : ∀ l c, P c → P (setMessages l c)

/-- A list of operations that each keep a property keeps it. -/
theorem forEach_keeps {P : Chip → Prop} {α : Type} (l : List α) (f : α → Chip → Chip)
    (hf : ∀ a c, P c → P (f a c)) : ∀ c, P c → P (forEach l f c) := by
  induction l with
  | nil => intro c hc; exact hc
  | cons a l ih => intro c hc; exact ih _ (hf a c hc)

/-- Both arms of a choice keep a property. -/
theorem ite_keeps {P : Chip → Prop} {b : Prop} [Decidable b] {x y : Chip} (hx : P x) (hy : P y) :
    P (if b then x else y) := by
  split
  · exact hx
  · exact hy

/-- Between events nothing is owed: the queue service changes nothing. -/
theorem queueService_of_settled {c : Chip} (hd : c.power.serviceDue = false) (hf : ∀ e ∈ c.power.queue, e.fresh = false) :
    queueService c = c := by
  have hq : (c.power.queue.map fun e => { e with fresh := false }) = c.power.queue := by
    conv => rhs; rw [← List.map_id c.power.queue]
    refine List.map_congr_left fun e he => ?_
    have := hf e he
    cases e
    simp_all
  unfold queueService
  simp only [hd, Bool.false_eq_true, false_and, if_false]
  show setServiceDue false (setQueue (c.power.queue.map fun e => { e with fresh := false }) c) = c
  rw [hq, ← hd]
  rfl

namespace PowerKeeps

variable {P : Chip → Prop} (h : PowerKeeps P) {c : Chip}
include h

theorem post (m : Instr) (hc : P c) : P (post m c) := h.messages _ _ hc
theorem setGrant (k : Fin 16) (g : GrantRecord) (hc : P c) : P (setGrant k g c) := h.power _ _ hc
theorem modGrant (k : Fin 16) (f : GrantRecord → GrantRecord) (hc : P c) : P (modGrant k f c) := h.power _ _ hc
theorem setQueue (q : List QueueEntry) (hc : P c) : P (setQueue q c) := h.power _ _ hc
theorem setShed (l : List ShedEntry) (hc : P c) : P (setShed l c) := h.power _ _ hc
theorem setServiceDue (due : Bool) (hc : P c) : P (setServiceDue due c) := h.power _ _ hc
theorem modSupply (b : Fin 6) (f : Supply → Supply) (hc : P c) : P (modSupply b f c) := h.power _ _ hc
theorem setReservation (f : Fin 8) (r : Reservation) (hc : P c) : P (setReservation f r c) := h.power _ _ hc
theorem writeGrant (k : Fin 16) (w : Nat) (hc : P c) : P (writeGrant k w c) := h.power _ _ hc

theorem joinQueue (k : Fin 16) (kind : QueueKind) (need : Nat) (hc : P c) : P (joinQueue k kind need c) :=
  h.setServiceDue _ (h.setQueue _ hc)

theorem leaveQueue (k : Fin 16) (hc : P c) : P (leaveQueue k c) := by
  unfold Machine.leaveQueue
  split
  · exact hc
  · exact h.setServiceDue _ (h.setQueue _ hc)

theorem alignUplift (k : Fin 16) (hc : P c) : P (alignUplift k c) := by
  unfold Machine.alignUplift
  dsimp only
  split
  · split
    · exact h.joinQueue _ _ _ hc
    · exact h.setQueue _ hc
  · split
    · split
      · exact h.leaveQueue _ hc
      · exact hc
    · exact hc

theorem addReason (r : CapReason) (k : Fin 16) (hc : P c) : P (addReason r k c) := by
  unfold Machine.addReason
  dsimp only
  split
  · exact hc
  · split
    · split
      · exact h.alignUplift _ (h.post _ (h.setGrant _ _ hc))
      · exact h.alignUplift _ (h.setGrant _ _ hc)
    · exact h.alignUplift _ (h.setGrant _ _ hc)

theorem keepFloorReason (k : Fin 16) (hc : P c) : P (keepFloorReason k c) := h.modGrant _ _ hc

theorem removeReason (r : CapReason) (k : Fin 16) (hc : P c) : P (removeReason r k c) := by
  unfold Machine.removeReason
  split
  · exact h.alignUplift _ (h.keepFloorReason _ (h.modGrant _ _ hc))
  · exact hc

theorem requestThermal (k : Fin 16) (hc : P c) : P (requestThermal k c) := by
  unfold Machine.requestThermal
  split
  · exact h.addReason _ _ hc
  · exact hc

theorem capForShed (k : Fin 16) (hc : P c) : P (capForShed k c) := by
  unfold Machine.capForShed
  dsimp only
  split
  · exact h.alignUplift _ (h.post _ (h.setGrant _ _ hc))
  · exact h.alignUplift _ (h.setGrant _ _ hc)

theorem actHead (hc : P c) : P (actHead c) := by
  unfold Machine.actHead
  split
  · exact hc
  · dsimp only
    split
    · exact h.capForShed _ (h.setShed _ hc)
    · exact h.post _ (h.setShed _ hc)

theorem startShedding (hc : P c) : P (startShedding c) := by
  unfold Machine.startShedding
  split
  · split
    · exact h.raise _ _ _ hc
    · exact hc
  · exact h.actHead (h.setShed _ hc)

theorem pruneShed (hc : P c) : P (pruneShed c) := h.setShed _ hc

theorem settlePower (before : Chip) (report : Bool) (hc : P c) : P (settlePower before report c) := by
  unfold Machine.settlePower
  extract_lets c1 emptied more less c2
  have h2 : P c2 := ite_keeps (h.setServiceDue _ (h.pruneShed hc)) (h.pruneShed hc)
  clear_value c2
  apply ite_keeps
  · split
    · exact ite_keeps (ite_keeps (h.setShed _ h2) h2) (h.actHead h2)
    · exact ite_keeps (h.startShedding h2) h2
  · exact ite_keeps (h.setServiceDue _ (h.setShed _ h2)) (h.setShed _ h2)

theorem powerEvent (report : Bool) {f : Chip → Chip} (hf : P (f c)) : P (powerEvent report f c) := h.settlePower _ _ hf

theorem serveAdmission (k : Fin 16) (w : Nat) (caps : CapSet) (hc : P c) : P (serveAdmission k w caps c) :=
  h.post _ (h.writeGrant _ _ (h.modGrant _ _ hc))

theorem serveUplift (k : Fin 16) (hc : P c) : P (serveUplift k c) := h.post _ (h.writeGrant _ _ (h.modGrant _ _ hc))

theorem serveHead (e : QueueEntry) {c' : Chip} (hs : serveHead e c = some c') (hc : P c) : P c' := by
  unfold Machine.serveHead at hs
  split at hs
  · split at hs
    · cases hs
      exact h.serveAdmission _ _ _ hc
    · split at hs
      · cases hs
        exact h.serveAdmission _ _ _ hc
      · cases hs
  · split at hs
    · cases hs
      exact h.serveUplift _ hc
    · cases hs

theorem serveQueue : ∀ (q : List QueueEntry) (c : Chip), P c → P (serveQueue q c) := by
  intro q
  induction q with
  | nil => intro c hc; exact h.setQueue _ hc
  | cons e rest ih =>
    intro c hc
    unfold Machine.serveQueue
    split
    · rename_i hs
      exact ih _ (h.serveHead e hs hc)
    · exact h.setQueue _ hc

theorem queueService (hc : P c) : P (queueService c) := by
  unfold Machine.queueService
  dsimp only
  refine h.setServiceDue _ (h.setQueue _ ?_)
  split
  · exact h.serveQueue _ _ hc
  · exact hc

theorem releaseGrant (k : Fin 16) (hc : P c) : P (releaseGrant k c) :=
  h.powerEvent _ (h.setShed _ (h.leaveQueue _ (h.setGrant _ _ hc)))

theorem capAgain (k : Fin 16) (hc : P c) : P (capAgain k c) := by
  unfold Machine.capAgain
  dsimp only
  split
  · exact h.post _ (h.setGrant _ _ hc)
  · exact hc

theorem powerOnSlot (k : Fin 16) (new : SlotState) (hc : P c) : P (powerOnSlot k new c) := by
  unfold Machine.powerOnSlot
  refine h.powerEvent _ (h.alignUplift _ ?_)
  split
  · exact h.joinQueue _ _ _ (h.modGrant _ _ hc)
  · exact h.modGrant _ _ hc
  · exact h.capAgain _ hc
  · exact hc

theorem replaceEntry (k : Fin 16) (hc : P c) : P (replaceEntry k c) := by
  unfold Machine.replaceEntry
  split
  · exact hc
  · exact h.joinQueue _ _ _ (h.setQueue _ hc)

theorem requeueAdmission (k : Fin 16) (hc : P c) : P (requeueAdmission k c) :=
  h.powerEvent _ (h.joinQueue _ _ _ (h.setGrant _ _ hc))

theorem failAdmission (k : Fin 16) (hc : P c) : P (failAdmission k c) := h.powerEvent _ (h.setGrant _ _ hc)

theorem completeCapEntry (k : Fin 16) (hc : P c) : P (completeCapEntry k c) := h.setShed _ hc

theorem capAccepted (k : Fin 16) (hc : P c) : P (capAccepted k c) := by
  unfold Machine.capAccepted
  refine h.powerEvent _ (h.completeCapEntry _ (h.alignUplift _ (h.keepFloorReason _ ?_)))
  split
  · exact h.writeGrant _ _ (h.modGrant _ _ hc)
  · exact h.modGrant _ _ hc

theorem turnCapOff (k : Fin 16) (hc : P c) : P (turnCapOff k c) := by
  unfold Machine.turnCapOff
  split
  · split
    · exact h.post _ (h.setShed _ hc)
    · exact hc
  · exact hc

theorem capRefused (k : Fin 16) (q : CapSet) (hc : P c) : P (capRefused k q c) := by
  unfold Machine.capRefused
  have h1 := h.alignUplift k (h.keepFloorReason k
    (h.modGrant k (fun g => { g with capRequest := none, capSet := g.capSet.without q }) hc))
  refine h.powerEvent _ ?_
  have h2 : P (if q.host = true then _ else _) := ite_keeps (h.raise (.slot k) .degraded _ h1) h1
  exact ite_keeps (h.turnCapOff _ h2) h2

theorem takeCapOutcome (k : Fin 16) (o : LimitOutcome) (hc : P c) : P (takeCapOutcome k o c) := by
  unfold Machine.takeCapOutcome
  split
  · exact hc
  · cases o
    · exact h.capAccepted _ hc
    · exact h.capRefused _ _ hc
    · exact h.capRefused _ _ hc
    · exact h.modGrant _ _ hc
    · exact h.modGrant _ _ hc

theorem takeUncapOutcome (k : Fin 16) (o : LimitOutcome) (hc : P c) : P (takeUncapOutcome k o c) := by
  unfold Machine.takeUncapOutcome
  have h1 := h.modGrant k (fun g => { g with uncapRequest := false }) hc
  refine ite_keeps ?_ hc
  cases o <;> first | exact h.raise _ _ _ h1 | exact h1

theorem settleTerms (k : Fin 16) (hc : P c) : P (settleTerms k c) := by
  unfold Machine.settleTerms
  refine h.powerEvent _ ?_
  extract_lets f c1 g target c2 c3
  have h1 : P c1 := ite_keeps (h.modGrant _ _ hc) hc
  have h2 : P c2 := ite_keeps (h.modGrant _ _ (h.writeGrant _ _ h1)) (h.modGrant _ _ (h.writeGrant _ _ h1))
  exact h.post _ (h.alignUplift _ h2)

theorem giveReservation (f : Fin 8) (band rated : Nat) (hc : P c) : P (giveReservation f band rated c) :=
  h.powerEvent _ (h.setReservation _ _ hc)

theorem startSupply (b : Fin 6) (hc : P c) : P (startSupply b c) := h.powerEvent _ (h.modSupply _ _ hc)

theorem supplyArrival (b : Fin 6) (hc : P c) : P (supplyArrival b c) := h.modSupply _ _ hc

theorem supplyRemoval (b : Fin 6) (hc : P c) : P (supplyRemoval b c) := by
  unfold Machine.supplyRemoval
  split
  · exact hc
  · dsimp only
    refine h.powerEvent _ ?_
    split
    · exact h.raise _ _ _ (h.modSupply _ _ hc)
    · exact h.modSupply _ _ hc

theorem failSupply (b : Fin 6) (reason : SupplyFail) (hc : P c) : P (failSupply b reason c) :=
  h.powerEvent _ (h.raise _ _ _ (h.modSupply _ _ hc))

theorem supplyIdentity (b : Fin 6) (capacity : Nat) (r : Option InvRef) (hc : P c) : P (supplyIdentity b capacity r c) := by
  unfold Machine.supplyIdentity
  split
  · exact h.startSupply _ (h.modSupply _ _ hc)
  · exact hc

theorem supplyReadFailed (b : Fin 6) (hc : P c) : P (supplyReadFailed b c) := by
  unfold Machine.supplyReadFailed
  split
  · exact h.failSupply _ _ hc
  · exact hc

theorem psuPgChanged (b : Fin 6) (level : Bool) (hc : P c) : P (psuPgChanged b level c) := by
  unfold Machine.psuPgChanged
  split
  · exact hc
  · dsimp only
    have h1 := h.modSupply b (fun p => { p with powerGood := level }) hc
    split
    · exact h.powerEvent _ (h.modSupply _ _ h1)
    · exact h.failSupply _ _ h1
    · exact h1

theorem restartPower (hc : P c) : P (restartPower c) := by
  unfold Machine.restartPower
  have h1 : P (restartGrants c) := h.power _ _ hc
  dsimp only
  split
  · exact h.startShedding h1
  · exact h1

end PowerKeeps

end Sys2Proof.Machine
end

