-- ==== Sys2Proof/Laws/Engine.lean ====
section
/-!
SUPPORT. What the slot link engine's operations on its list and link can write: its own record and messages.
-/

namespace Sys2Proof.Machine

/-- A property of the chip that writes of engines and messages do not disturb. -/
structure EngineKeeps (P : Chip → Prop) : Prop where
  engines : ∀ e c, P c → P { c with engines := e }
  messages : ∀ l c, P c → P (setMessages l c)

namespace EngineKeeps

variable {P : Chip → Prop} (h : EngineKeeps P) {c : Chip}
include h

theorem post (m : Instr) (hc : P c) : P (post m c) := h.messages _ _ hc
theorem setEngine (k : Fin 16) (e : Engine) (hc : P c) : P (setEngine k e c) := h.engines _ _ hc
theorem modEngine (k : Fin 16) (f : Engine → Engine) (hc : P c) : P (modEngine k f c) := h.engines _ _ hc
theorem send (k : Fin 16) (x : PageRequest) (toggle : Bool) (hc : P c) : P (send k x toggle c) := h.modEngine _ _ hc
theorem startPhase (k : Fin 16) (x : Phase) (hc : P c) : P (startPhase k x c) := h.modEngine _ _ hc

theorem sendPending (k : Fin 16) (hc : P c) : P (sendPending k c) := by
  unfold Machine.sendPending
  refine ite_keeps (h.send _ _ _ (h.setEngine _ _ hc)) ?_
  split
  all_goals first
    | exact h.send _ _ _ (h.setEngine _ _ hc)
    | exact ite_keeps (h.send _ _ _ (h.setEngine _ _ hc)) hc

theorem sendRenegotiationOrPending (k : Fin 16) (hc : P c) : P (sendRenegotiationOrPending k c) :=
  ite_keeps (h.send _ _ _ (h.startPhase _ _ (h.modEngine _ _ hc))) (h.sendPending _ hc)

theorem arbitrate (k : Fin 16) (hc : P c) : P (arbitrate k c) := by
  unfold Machine.arbitrate
  refine ite_keeps hc (ite_keeps (h.send _ _ _ hc) ?_)
  split
  · split
    · exact h.send _ _ _ (h.setEngine _ _ hc)
    · exact h.sendRenegotiationOrPending _ (h.post _ (h.setEngine _ _ hc))
  · exact h.sendRenegotiationOrPending _ hc

theorem startInterrogation (k : Fin 16) (hc : P c) : P (startInterrogation k c) := h.arbitrate _ (h.startPhase _ _ hc)
theorem startNegotiation (k : Fin 16) (hc : P c) : P (startNegotiation k c) := h.arbitrate _ (h.startPhase _ _ hc)

theorem requestShutdown (k : Fin 16) (hc : P c) : P (requestShutdown k c) := ite_keeps hc (h.arbitrate _ (h.modEngine _ _ hc))
theorem requestPoll (k : Fin 16) (hc : P c) : P (requestPoll k c) := ite_keeps hc (h.arbitrate _ (h.modEngine _ _ hc))

theorem requestCap (k : Fin 16) (limit : Nat) (hc : P c) : P (requestCap k limit c) := by
  unfold Machine.requestCap
  extract_lets e l c1 c2
  have h1 : P c1 := h.setEngine _ _ hc
  exact ite_keeps (h.post _ hc) (h.arbitrate _ (ite_keeps (h.post _ h1) h1))

theorem requestUncap (k : Fin 16) (limit : Nat) (hc : P c) : P (requestUncap k limit c) := by
  unfold Machine.requestUncap
  extract_lets e l c1 c2
  have h1 : P c1 := h.setEngine _ _ hc
  exact ite_keeps (h.post _ hc) (h.arbitrate _ (ite_keeps (h.post _ h1) h1))

theorem requestGrant (k : Fin 16) (grant : Nat) (level : Level) (hc : P c) : P (requestGrant k grant level c) :=
  ite_keeps (h.post _ hc) (h.arbitrate _ (h.modEngine _ _ hc))

theorem reportAbandoned (k : Fin 16) (x : Exchange) (hc : P c) : P (reportAbandoned k x c) := by
  unfold Machine.reportAbandoned
  cases x.request <;> first | exact hc | exact h.post _ hc

theorem emptyEngine (k : Fin 16) (hc : P c) : P (emptyEngine k c) := by
  unfold Machine.emptyEngine
  extract_lets e r c1 c2 c3 c4
  have h1 : P c1 := h.setEngine _ _ hc
  have h2 : P c2 := by
    show P (match e.inFlight with | some x => Machine.reportAbandoned k x c1 | none => c1)
    split
    · exact h.reportAbandoned _ _ h1
    · exact h1
  have h3 : P c3 := ite_keeps (h.post _ h2) h2
  have h4 : P c4 := ite_keeps (h.post _ h3) h3
  exact ite_keeps (h.post _ h4) h4

theorem clearRenegotiation (k : Fin 16) (hc : P c) : P (clearRenegotiation k c) := h.modEngine _ _ hc
theorem endExchange (k : Fin 16) (failed : Bool) (hc : P c) : P (endExchange k failed c) := h.modEngine _ _ hc

end EngineKeeps

end Sys2Proof.Machine
end

