-- ==== Sys2Proof/Laws/Fans.lean ====
section
/-!
SUPPORT. What the fan controller's operations can write: its own records, and through the reservations and thermal requests
the power unit's.
-/

namespace Sys2Proof.Machine

/-- A property of the chip that writes of the fan controller's and the power unit's records do not disturb. -/
structure FanKeeps (P : Chip → Prop) : Prop extends PowerKeeps P where
  fans : ∀ f c, P c → P { c with fans := f }

namespace FanKeeps

variable {P : Chip → Prop} (h : FanKeeps P) {c : Chip}
include h

theorem modZone (z : Fin 4) (f : Zone → Zone) (hc : P c) : P (modZone z f c) := h.fans _ _ hc
theorem modFan (i : Fin 8) (f : Fan → Fan) (hc : P c) : P (modFan i f c) := h.fans _ _ hc
theorem setDrainSent (k : Fin 16) (b : Bool) (hc : P c) : P (setDrainSent k b c) := h.fans _ _ hc

theorem reserve (f : Fin 8) (step : Nat) (hc : P c) : P (reserve f step c) :=
  h.toPowerKeeps.giveReservation _ _ _ (h.modFan _ _ hc)

theorem startSearch (f : Fin 8) (hc : P c) : P (startSearch f c) := h.modFan _ _ hc

theorem enterCalibrating (f : Fin 8) (hc : P c) : P (enterCalibrating f c) :=
  h.startSearch _ (h.modFan _ _ (h.reserve _ _ hc))

theorem enterBoost (f : Fin 8) (hc : P c) : P (enterBoost f c) := by
  unfold Machine.enterBoost
  extract_lets restarted
  exact h.modFan _ _ (h.reserve _ _ hc)

theorem calibrateOrBoost (f : Fin 8) (hc : P c) : P (calibrateOrBoost f c) :=
  ite_keeps (h.enterBoost _ hc) (h.enterCalibrating _ hc)

theorem enterPinned (f : Fin 8) (band : Nat) (hc : P c) : P (enterPinned f band c) := h.reserve _ _ (h.modFan _ _ hc)

theorem targetChange (f : Fin 8) (t : Nat) (hc : P c) : P (targetChange f t c) := by
  unfold Machine.targetChange
  have h1 := h.modFan f (fun r => { r with target := t }) hc
  dsimp only
  cases (c.fan f).state
  all_goals first
    | exact h1
    | exact h.modFan _ _ h1
    | exact ite_keeps (h.startSearch _ h1) h1
    | exact ite_keeps (h.modFan _ _ h1) h1

theorem deliverTarget (f : Fin 8) (hc : P c) : P (deliverTarget f c) :=
  ite_keeps hc (ite_keeps hc (h.targetChange _ _ hc))

theorem recomputeTarget (z : Fin 4) (hc : P c) : P (recomputeTarget z c) :=
  ite_keeps hc (h.deliverTarget _ (h.deliverTarget _ (h.modZone _ _ hc)))

theorem recomputeDemand (z : Fin 4) (hc : P c) : P (recomputeDemand z c) :=
  ite_keeps hc (h.recomputeTarget _ (h.modZone _ _ hc))

theorem sendDrain (z : Fin 4) (k : Fin 16) (hc : P c) : P (sendDrain z k c) :=
  ite_keeps (h.toPowerKeeps.post _ (h.setDrainSent _ _ hc)) hc

theorem sendDrains (z : Fin 4) (hc : P c) : P (sendDrains z c) := forEach_keeps _ _ (fun _ _ hx => h.sendDrain _ _ hx) _ hc

theorem boostFan (f : Fin 8) (hc : P c) : P (boostFan f c) := by
  unfold Machine.boostFan
  cases (c.fan f).state <;> dsimp only <;> first | with_reducible assumption | exact h.enterBoost _ hc

theorem beginEmergency (z : Fin 4) (hc : P c) : P (beginEmergency z c) :=
  h.modZone _ _ (forEach_keeps _ _ (fun _ _ hx => h.toPowerKeeps.requestThermal _ hx) _
    (h.boostFan _ (h.boostFan _ (h.raise _ _ _ (h.modZone _ _ hc)))))

theorem unboostFan (f : Fin 8) (hc : P c) : P (unboostFan f c) := by
  unfold Machine.unboostFan
  refine ite_keeps ?_ hc
  split
  · exact h.enterPinned _ _ hc
  · exact h.enterCalibrating _ hc

theorem endEmergency (z : Fin 4) (hc : P c) : P (endEmergency z c) :=
  h.modZone _ _ (h.unboostFan _ (h.unboostFan _ (forEach_keeps _ _ (fun _ _ hx => h.toPowerKeeps.removeReason _ _ hx) _
    (h.modZone _ _ hc))))

theorem evaluateZone (z : Fin 4) (hc : P c) : P (evaluateZone z c) := by
  unfold Machine.evaluateZone
  extract_lets c1
  have h1 : P c1 := h.modZone _ _ hc
  clear_value c1
  exact ite_keeps (ite_keeps (h.endEmergency _ hc) (ite_keeps (h.sendDrains _ h1) h1))
    (ite_keeps (h.beginEmergency _ hc) hc)

theorem refreshZone (z : Fin 4) (hc : P c) : P (refreshZone z c) := h.evaluateZone _ (h.recomputeDemand _ hc)

theorem fanOnSlot (k : Fin 16) (old new : SlotState) (hc : P c) : P (fanOnSlot k old new c) := by
  unfold Machine.fanOnSlot
  extract_lets c1 c2
  have h1 : P c1 := ite_keeps (h.setDrainSent _ _ hc) hc
  have h2 : P c2 := h.refreshZone _ h1
  exact ite_keeps (ite_keeps (h.toPowerKeeps.requestThermal _ h2) h2) h1

theorem fanOnStatus (k : Fin 16) (hc : P c) : P (fanOnStatus k c) := ite_keeps (h.refreshZone _ hc) hc

theorem fanArrival (f : Fin 8) (hc : P c) : P (fanArrival f c) := ite_keeps (h.evaluateZone _ (h.modFan _ _ hc)) hc

theorem identifyFan (f : Fin 8) (r : Option InvRef) (assumed : Bool) (rated speed pulses : Nat) (hc : P c) :
    P (identifyFan f r assumed rated speed pulses c) :=
  h.calibrateOrBoost _ (h.modFan _ _ (h.modFan _ _ hc))

theorem fanIdentity (f : Fin 8) (r : Option InvRef) (rated speed pulses : Nat) (hc : P c) :
    P (fanIdentity f r rated speed pulses c) :=
  ite_keeps (h.identifyFan _ _ _ _ _ _ hc) hc

theorem fanReadFailed (f : Fin 8) (hc : P c) : P (fanReadFailed f c) :=
  ite_keeps (h.identifyFan _ _ _ _ _ _ (h.raise _ _ _ hc)) hc

theorem fanRemoval (f : Fin 8) (hc : P c) : P (fanRemoval f c) :=
  ite_keeps hc (h.evaluateZone _ (h.modFan _ _ (h.reserve _ _ (h.modFan _ _ hc))))

theorem failFan (f : Fin 8) (hc : P c) : P (failFan f c) :=
  h.evaluateZone _ (h.raise _ _ _ (h.modFan _ _ (h.reserve _ _ (h.modFan _ _ hc))))

theorem updateWeak (f : Fin 8) (hc : P c) : P (updateWeak f c) := by
  unfold Machine.updateWeak
  extract_lets r c1
  have h1 : P c1 := h.modFan _ _ hc
  clear_value c1
  exact ite_keeps (ite_keeps (ite_keeps (h.raise _ _ _ h1) h1) (h.modFan _ _ hc)) hc

theorem endSearch (f : Fin 8) (result : Nat) (hc : P c) : P (endSearch f result c) :=
  h.modFan _ _ (h.reserve _ _ (h.modFan _ _ hc))

theorem takeDecision (f : Fin 8) (s : Search) (hc : P c) : P (takeDecision f s c) :=
  ite_keeps (h.modFan _ _ hc) (h.endSearch _ _ hc)

theorem enterLocked (f : Fin 8) (hc : P c) : P (enterLocked f c) := h.modFan _ _ hc

theorem trackSample (f : Fin 8) (hc : P c) : P (trackSample f c) :=
  ite_keeps (ite_keeps (h.enterLocked _ hc) (h.modFan _ _ hc))
    (ite_keeps (h.modFan _ _ (ite_keeps (h.reserve _ _ hc) hc))
      (ite_keeps (h.modFan _ _ hc) (h.modFan _ _ hc)))

theorem lockSample (f : Fin 8) (hc : P c) : P (lockSample f c) := h.modFan _ _ hc

theorem sampleByState (f : Fin 8) (hc : P c) : P (sampleByState f c) := by
  unfold Machine.sampleByState
  split
  · split
    · exact h.takeDecision _ _ hc
    · exact hc
  all_goals first | exact h.trackSample _ hc | exact h.lockSample _ hc | exact hc

theorem nextWindow (f : Fin 8) (hc : P c) : P (nextWindow f c) := h.modFan _ _ hc

theorem takeSample (f : Fin 8) (pulses : Nat) (hc : P c) : P (takeSample f pulses c) :=
  have h1 := h.modFan f (fun r => { r with
    measured := pulses * 300 / r.pulses
    stallCount := if pulses = 0 ∧ 8 ≤ r.windowBand then r.stallCount + 1 else 0 }) hc
  ite_keeps (h.failFan _ h1) (h.nextWindow _ (h.sampleByState _ (h.updateWeak _ h1)))

theorem releaseLocked (f : Fin 8) (hc : P c) : P (releaseLocked f c) := h.reserve _ _ (h.modFan _ _ hc)

theorem commitCurve (z : Fin 4) (hc : P c) : P (commitCurve z c).1 := by
  unfold Machine.commitCurve
  split
  · exact h.recomputeTarget _ (h.modZone _ _ hc)
  · exact hc

theorem pinFan (f : Fin 8) (band : Nat) (hc : P c) : P (pinFan f band c).1 := by
  unfold Machine.pinFan
  split
  · exact hc
  · cases (c.fan f).state <;> dsimp only <;> first | with_reducible assumption | with_reducible exact h.enterPinned _ _ hc | with_reducible exact h.modFan _ _ hc

theorem unpinFan (f : Fin 8) (hc : P c) : P (unpinFan f c).1 := by
  unfold Machine.unpinFan
  split
  · dsimp only
    exact h.calibrateOrBoost f (h.modFan f _ hc)
  · dsimp only
    exact h.modFan f _ hc
  · exact hc

theorem retryFan (f : Fin 8) (hc : P c) : P (retryFan f c).1 := by
  unfold Machine.retryFan
  split
  · exact h.evaluateZone _ (h.calibrateOrBoost _ hc)
  · exact hc

theorem followMove (old : Chip) (k : Fin 16) (hc : P c) : P (followMove old k c) :=
  ite_keeps hc (ite_keeps (h.toPowerKeeps.requestThermal _ hc) (ite_keeps (h.toPowerKeeps.removeReason _ _ hc) hc))

theorem fanSettings (old : Chip) (every : Bool) (hc : P c) : P (fanSettings old every c) :=
  forEach_keeps _ _ (fun _ _ hx => h.followMove _ _ hx) _ (forEach_keeps _ _ (fun _ _ hx => h.refreshZone _ hx) _ hc)

theorem restartFan (f : Fin 8) (hc : P c) : P (restartFan f c) := by
  unfold Machine.restartFan
  cases (c.fan f).state
  all_goals first
    | with_reducible exact h.deliverTarget _ hc
    | with_reducible exact h.startSearch _ (h.modFan _ _ hc)
    | with_reducible exact h.deliverTarget _ (h.enterCalibrating _ hc)
    | with_reducible exact h.deliverTarget _ (h.modFan _ _ hc)

theorem restartFans (hc : P c) : P (restartFans c) :=
  forEach_keeps _ _ (fun _ _ hx => h.restartFan _ hx) _ (forEach_keeps _ _ (fun _ _ hx => h.modZone _ _ hx) _ hc)

end FanKeeps

end Sys2Proof.Machine
end

