-- ==== Sys2Proof/Laws/Hub.lean ====
section
/-!
SUPPORT. What the uplink hub's operations can write: the hub's records and raised causes.
-/

namespace Sys2Proof.Machine

/-- A property of the chip that writes of the hub and raised causes do not disturb. -/
structure HubKeeps (P : Chip → Prop) : Prop where
  hub : ∀ u c, P c → P { c with hub := u }
  raise : ∀ o x c, P c → P (raise o x c)

namespace HubKeeps

variable {P : Chip → Prop} (h : HubKeeps P) {c : Chip}
include h

theorem setChannel (i : Fin 32) (ch : Option Channel) (hc : P c) : P (setChannel i ch c) := h.hub _ _ hc
theorem modChannel (i : Fin 32) (f : Channel → Channel) (hc : P c) : P (modChannel i f c) := h.hub _ _ hc
theorem modUplink (u : Fin 2) (f : Uplink → Uplink) (hc : P c) : P (modUplink u f c) := h.hub _ _ hc
theorem modLane (k : Fin 16) (f : Lane → Lane) (hc : P c) : P (modLane k f c) := h.hub _ _ hc
theorem setMatchOrder (k : Fin 16) (l : List (Fin 32)) (hc : P c) : P (setMatchOrder k l c) := h.hub _ _ hc
theorem revert (i : Fin 32) (hc : P c) : P (revert i c) := h.modChannel _ _ hc

theorem freeing (i : Fin 32) {f : Chip → Chip} (hf : P (f c)) : P (freeing i f c) := ite_keeps (h.revert _ hf) hf

theorem startUplink (u : Fin 2) (hc : P c) : P (startUplink u c) := h.modUplink _ _ hc

theorem startLane (k : Fin 16) (hc : P c) : P (startLane k c) := by
  unfold Machine.startLane
  split
  · exact h.modLane _ _ hc
  · exact hc

theorem flushRecord (i : Fin 32) (ch : Channel) (hc : P c) : P (flushRecord i ch c) := by
  unfold Machine.flushRecord
  extract_lets onLane onUplink
  exact h.modUplink _ _ (h.modLane _ _ (h.setChannel _ _ hc))

theorem flush (i : Fin 32) (hc : P c) : P (flush i c) := by
  unfold Machine.flush
  split
  · exact hc
  · exact h.freeing _ (h.flushRecord _ _ hc)

theorem holdForSlot (i : Fin 32) (hc : P c) : P (holdForSlot i c) := h.flush _ (h.modChannel _ _ hc)
theorem enterBar (i : Fin 32) (hc : P c) : P (enterBar i c) := h.flush _ (h.modChannel _ _ hc)
theorem hubStop (k : Fin 16) (hc : P c) : P (hubStop k c) := forEach_keeps _ _ (fun _ _ hx => h.holdForSlot _ hx) _ hc
theorem hubClearGrants (k : Fin 16) (hc : P c) : P (hubClearGrants k c) :=
  forEach_keeps _ _ (fun _ _ hx => h.modChannel _ _ hx) _ hc

theorem autoPassChannel (i : Fin 32) (hc : P c) : P (autoPassChannel i c) := by
  unfold Machine.autoPassChannel
  split
  · exact hc
  · split
    · exact h.setChannel _ _ hc
    · exact h.raise _ _ _ (h.setChannel _ _ hc)

theorem hubRunning (k : Fin 16) (hc : P c) : P (hubRunning k c) :=
  forEach_keeps _ _ (fun _ _ hx => h.autoPassChannel _ hx) _ hc

theorem hubOnSlot (k : Fin 16) (old new : SlotState) (hc : P c) : P (hubOnSlot k old new c) := by
  unfold Machine.hubOnSlot
  extract_lets c1
  have h1 : P c1 := ite_keeps (h.hubStop _ hc) hc
  clear_value c1
  cases new <;> first | exact h1 | exact h.hubClearGrants _ h1 | exact h.hubRunning _ h1

theorem matchChannel (l : List (Fin 32)) (i : Fin 32) (hc : P c) : P (matchChannel l i c) := by
  unfold Machine.matchChannel
  split
  · exact hc
  · refine ite_keeps (h.setChannel _ _ hc) ?_
    exact ite_keeps (h.holdForSlot _ (h.setChannel _ _ hc)) (h.setChannel _ _ hc)

theorem takeMatch (k : Fin 16) (l : List (Fin 32)) (hc : P c) : P (takeMatch k l c) :=
  h.setMatchOrder _ _ (forEach_keeps _ _ (fun _ _ hx => h.matchChannel _ _ hx) _ hc)

theorem storeFrame (side : Side) (i : Fin 32) (ch : Channel) (length : Nat) (hc : P c) : P (storeFrame side i ch length c) := by
  cases side
  · exact h.startLane _ (h.setChannel _ _ hc)
  · exact h.startUplink _ (h.modUplink _ _ (h.setChannel _ _ hc))

theorem frameFate (side : Side) (i : Fin 32) (ch : Channel) (length : Nat) (hc : P c) : P (frameFate side i ch length c) := by
  unfold Machine.frameFate
  extract_lets counted
  have h1 : ∀ x, P (counted x) := fun x => h.setChannel _ _ hc
  clear_value counted
  split
  · exact h1 _
  · exact ite_keeps (h.raise _ _ _ (h.enterBar _ (h1 _))) (h1 _)
  · exact ite_keeps (h.raise _ _ _ (h.enterBar _ (h1 _))) (ite_keeps (h.storeFrame _ _ _ _ hc) (h1 _))

theorem countUplink (u : Fin 2) (f : UplinkCounters → UplinkCounters) (hc : P c) : P (countUplink u f c) := h.modUplink _ _ hc
theorem countLane (k : Fin 16) (f : LaneCounters → LaneCounters) (hc : P c) : P (countLane k f c) := h.modLane _ _ hc
theorem uplinkStart (u : Fin 2) (hc : P c) : P (uplinkStart u c) := h.modUplink _ _ hc

theorem uplinkFrame (u : Fin 2) (x : Frame) (hc : P c) : P (uplinkFrame u x c) := by
  unfold Machine.uplinkFrame
  extract_lets c1
  have h1 : P c1 := h.countUplink _ _ hc
  clear_value c1
  refine ite_keeps ?_ (h.countUplink _ _ hc)
  split
  · exact h.frameFate _ _ _ _ h1
  · exact h.countUplink _ _ h1

theorem uplinkCompletion (u : Fin 2) (x : Frame) (hc : P c) : P (uplinkCompletion u x c) := by
  unfold Machine.uplinkCompletion
  exact ite_keeps (ite_keeps (h.uplinkFrame _ _ (h.modUplink _ _ hc)) (h.modUplink _ _ hc)) hc

theorem laneCompletion (k : Fin 16) (x : Frame) (hc : P c) : P (laneCompletion k x c) := by
  unfold Machine.laneCompletion
  extract_lets c1
  have h1 : P c1 := h.countLane _ _ hc
  clear_value c1
  refine ite_keeps (h.countLane _ _ hc) (ite_keeps ?_ (h.countLane _ _ hc))
  split
  · exact h.frameFate _ _ _ _ h1
  · exact h.countLane _ _ h1

theorem uplinkTransmitted (u : Fin 2) (hc : P c) : P (uplinkTransmitted u c) := by
  unfold Machine.uplinkTransmitted
  split
  · exact hc
  · rename_i x _
    refine h.startUplink _ ?_
    cases x
    · exact h.freeing _ (h.modChannel _ _ (h.modUplink _ _ hc))
    · exact h.freeing _ (h.modChannel _ _ (h.modUplink _ _ hc))

theorem laneTransmitted (k : Fin 16) (hc : P c) : P (laneTransmitted k c) := by
  unfold Machine.laneTransmitted
  split
  · exact hc
  · rename_i x _
    refine h.startLane _ ?_
    cases x
    · exact h.freeing _ (h.modChannel _ _ (h.modLane _ _ hc))
    · exact h.freeing _ (h.modChannel _ _ (h.modLane _ _ hc))

theorem discardEntry (u : Fin 2) (e : Fin 32 × Nat) (hc : P c) : P (discardEntry u e c) :=
  h.countUplink _ _ (h.modChannel _ _ hc)

theorem discardEgress (u : Fin 2) (hc : P c) : P (discardEgress u c) := by
  unfold Machine.discardEgress
  extract_lets r c1 c2
  have h1 : P c1 := forEach_keeps _ _ (fun _ _ hx => h.discardEntry _ _ hx) _ hc
  have h2 : P c2 := by
    show P (match r.sending with | some (.detached i) => Machine.modChannel i _ c1 | _ => c1)
    split
    · exact h.modChannel _ _ h1
    · exact h1
  exact h.modUplink _ _ h2

theorem failOver (i : Fin 32) (hc : P c) : P (failOver i c) := h.raise _ _ _ (h.modChannel _ _ hc)
theorem holdForUplink (i : Fin 32) (hc : P c) : P (holdForUplink i c) := h.raise _ _ _ (h.modChannel _ _ hc)

theorem uplinkLoss (u : Fin 2) (hc : P c) : P (uplinkLoss u c) :=
  h.raise _ _ _ (forEach_keeps _ _ (fun _ _ hx => h.holdForUplink _ hx) _
    (forEach_keeps _ _ (fun _ _ hx => h.failOver _ hx) _ (h.discardEgress _ hc)))

theorem uplinkReturn (u : Fin 2) (hc : P c) : P (uplinkReturn u c) := by
  unfold Machine.uplinkReturn
  refine h.raise _ _ _ (forEach_keeps _ _ (fun _ _ hx => h.revert _ hx) _ ?_)
  have h1 : P (Machine.liftChannels u c) := forEach_keeps _ _ (fun _ _ hx => h.modChannel _ _ hx) _ hc
  exact ite_keeps h1 (forEach_keeps _ _ (fun _ _ hx => h.raise _ _ _ (h.modChannel _ _ hx)) _ h1)

theorem changeUplink (u : Fin 2) (f : Uplink → Uplink) (hc : P c) : P (changeUplink u f c) := by
  unfold Machine.changeUplink
  have h1 := h.modUplink u f hc
  exact ite_keeps (h.uplinkLoss _ h1) (ite_keeps (h.uplinkReturn _ h1) h1)

theorem linkChanged (u : Fin 2) (level : Bool) (hc : P c) : P (linkChanged u level c) :=
  ite_keeps hc (h.changeUplink _ _ hc)

theorem passChannel (i : Fin 32) (hc : P c) : P (passChannel i c).1 := by
  unfold Machine.passChannel
  split
  · exact hc
  · split
    · exact hc
    · exact hc
    · split
      · split
        · exact h.setChannel _ _ hc
        · exact hc
      · exact hc

theorem holdChannel (i : Fin 32) (hc : P c) : P (holdChannel i c).1 := by
  unfold Machine.holdChannel
  split
  · exact hc
  · exact h.setChannel _ _ hc

theorem barChannel (i : Fin 32) (hc : P c) : P (barChannel i c).1 := by
  unfold Machine.barChannel
  split
  · exact hc
  · split
    · exact hc
    · exact h.enterBar _ hc

theorem flushChannel (i : Fin 32) (hc : P c) : P (flushChannel i c).1 := by
  unfold Machine.flushChannel
  split
  · exact hc
  · split
    · exact hc
    · exact h.flush _ hc

theorem defineRecord (d : Definition) (hc : P c) : P (defineRecord d c).1 := by
  unfold Machine.defineRecord
  split
  · split
    · split
      · exact hc
      · split
        · exact hc
        · split
          · exact hc
          · exact h.setChannel _ _ hc
    · exact hc
  · exact hc

theorem checkedAmend (i : Fin 32) (ch : Channel) (d : Definition) (b : Bool) (hc : P c) : P (checkedAmend i ch d b c).1 := by
  unfold Machine.checkedAmend
  split
  · split
    · split
      · exact hc
      · split
        · exact hc
        · exact h.setChannel _ _ hc
    · exact hc
  · exact hc

theorem restartHub (hc : P c) : P (restartHub c) := by
  refine forEach_keeps _ _ (fun _ _ hx => h.modUplink _ _ hx) _ (forEach_keeps _ _ ?_ _ ?_)
  · exact fun _ _ hx => h.modChannel _ _ (h.holdForSlot _ hx)
  · exact forEach_keeps _ _ (fun _ _ hx => h.modChannel _ _ hx) _ (forEach_keeps _ _ (fun _ _ hx => h.modLane _ _ hx) _
      (forEach_keeps _ _ (fun _ _ hx => h.modUplink _ _ hx) _ hc))

end HubKeeps

end Sys2Proof.Machine
end

