-- ==== Sys2Proof/Laws/Inventory.lean ====
section
/-!
SUPPORT. What the inventory unit's operations can write: the inventory and raised causes.
-/

namespace Sys2Proof.Machine

/-- A property of the chip that writes of the inventory and raised causes do not disturb. -/
structure InvKeeps (P : Chip → Prop) : Prop where
  inventory : ∀ i c, P c → P { c with inventory := i }
  raise : ∀ o x c, P c → P (raise o x c)

namespace InvKeeps

variable {P : Chip → Prop} (h : InvKeeps P) {c : Chip}
include h

theorem writeRecord (i : Fin 48) (r : InvRecord) (hc : P c) : P (writeRecord i r c) := h.inventory _ _ (h.inventory _ _ hc)

theorem vacate (l : Location) (hc : P c) : P (vacate l c) := by
  unfold Machine.vacate
  split
  · exact hc
  · split
    · exact h.writeRecord _ _ hc
    · exact hc

theorem createRecord (l : Location) (id : Identity) (hc : P c) : P (createRecord l id c).1 := by
  unfold Machine.createRecord
  split
  · exact h.writeRecord _ _ hc
  · exact h.raise _ _ _ hc

theorem offer (l : Location) (id : Identity) (hc : P c) : P (offer l id c).1 := by
  unfold Machine.offer
  split
  · split
    · split
      · split
        · exact hc
        · exact hc
      · exact h.writeRecord _ _ (h.vacate _ hc)
    · exact hc
  · split
    · exact h.raise _ _ _ hc
    · exact h.createRecord _ _ (h.vacate _ hc)

theorem retireHandle (i : Fin 48) (hc : P c) : P (retireHandle i c) := h.inventory _ _ (h.inventory _ _ hc)

end InvKeeps

end Sys2Proof.Machine
end

