-- ==== Sys2Proof/Laws/SlotController.lean ====
section
/-!
SUPPORT. What the slot controller's operations can write: everything but the module link and the port, of which only the
alert index. A property kept by the writes of the other blocks, and by an entry to a state, is kept by all of them.
-/

namespace Sys2Proof.Machine

/-- An entry to a state that keeps no field of its own leaves the record coherent. -/
theorem Slot.enter_coherent (s : Slot) {new : SlotState} (h : new ≠ .held ∧ new ≠ .draining ∧ new ≠ .poweringDown) :
    (s.enter new).coherent := by
  obtain ⟨h1, h2, h3⟩ := h
  simp [Slot.coherent, Slot.enter, h1, h2, h3]

/-- A property of the chip that the writes of every block but the slot controller, the module link and the port do not
disturb, nor the writes of a slot's record that `write` allows. -/
structure SlotKeeps (P : Chip → Prop) : Prop extends FanKeeps P where
  engines : ∀ e c, P c → P { c with engines := e }
  inventory : ∀ i c, P c → P { c with inventory := i }
  hub : ∀ u c, P c → P { c with hub := u }
  statusPages : ∀ n c, P c → P (setStatusPages n c)
  /-- An entry to a state with writes of the state's own. -/
  enter : ∀ k new (own : Slot → Slot) c, (∀ s : Slot, (own (s.enter new)).coherent) → P c →
    P (modSlot k (fun s => own (s.enter new)) c)
  /-- A write of a record that keeps it coherent. -/
  write : ∀ k (f : Slot → Slot) c, (∀ s : Slot, s.coherent → (f s).coherent) → P c → P (modSlot k f c)

namespace SlotKeeps

variable {P : Chip → Prop} (h : SlotKeeps P) {c : Chip}
include h

theorem toEngineKeeps : EngineKeeps P := ⟨h.engines, h.messages⟩
theorem toInvKeeps : InvKeeps P := ⟨h.inventory, h.raise⟩
theorem toHubKeeps : HubKeeps P := ⟨h.hub, h.raise⟩

theorem reportSlot (k : Fin 16) (old new : SlotState) (hc : P c) : P (reportSlot k old new c) :=
  h.toHubKeeps.hubOnSlot _ _ _ (h.toFanKeeps.fanOnSlot _ _ _ (h.toPowerKeeps.powerOnSlot _ _ hc))

theorem engineOnSlot (k : Fin 16) (old new : SlotState) (hc : P c) : P (engineOnSlot k old new c) :=
  ite_keeps (h.toEngineKeeps.emptyEngine _ hc) (ite_keeps (h.toEngineKeeps.clearRenegotiation _ hc) hc)

theorem grantOnSlot (k : Fin 16) (old new : SlotState) (hc : P c) : P (grantOnSlot k old new c) :=
  ite_keeps (h.toPowerKeeps.releaseGrant _ hc) hc

theorem enterState (k : Fin 16) (new : SlotState) (own : Slot → Slot) (ho : ∀ s : Slot, (own (s.enter new)).coherent) (hc : P c) :
    P (enterState k new own c) := by
  unfold Machine.enterState
  extract_lets old
  exact h.reportSlot _ _ _ (h.grantOnSlot _ _ _ (h.engineOnSlot _ _ _ (h.enter _ _ _ _ ho hc)))

theorem toHeld (k : Fin 16) (r : HoldReason) (hc : P c) : P (toHeld k r c) := h.raise _ _ _ (h.enterState _ _ _ (by intro s; simp [Slot.coherent, Slot.enter, SlotState.powered, SlotState.released]) hc)
theorem toSeated (k : Fin 16) (hc : P c) : P (toSeated k c) := h.enterState _ _ _ (fun s => Slot.enter_coherent s (by decide)) hc
theorem toInterrogating (k : Fin 16) (hc : P c) : P (toInterrogating k c) :=
  h.toEngineKeeps.startInterrogation _ (h.enterState _ _ _ (fun s => Slot.enter_coherent s (by decide)) hc)
theorem toNegotiating (k : Fin 16) (hc : P c) : P (toNegotiating k c) :=
  h.toEngineKeeps.startNegotiation _ (h.enterState _ _ _ (fun s => Slot.enter_coherent s (by decide)) hc)
theorem toRunning (k : Fin 16) (hc : P c) : P (toRunning k c) := h.enterState _ _ _ (fun s => Slot.enter_coherent (new := .running) s (by decide)) hc
theorem toStarting (k : Fin 16) (hc : P c) : P (toStarting k c) := h.enterState _ _ _ (fun s => Slot.enter_coherent (new := .starting) s (by decide)) hc

theorem toPowering (k : Fin 16) (hc : P c) : P (toPowering k c) := by
  unfold Machine.toPowering
  extract_lets c1
  have h1 : P c1 := h.enterState _ _ _ (fun s => Slot.enter_coherent (new := .powering) s (by decide)) hc
  exact ite_keeps (h.toStarting _ h1) h1

theorem toDraining (k : Fin 16) (cause : DrainCause) (hc : P c) : P (toDraining k cause c) := by
  unfold Machine.toDraining
  extract_lets poll
  exact h.toEngineKeeps.requestShutdown _ (h.enterState _ _ _ (by intro s; simp [Slot.coherent, Slot.enter, SlotState.powered, SlotState.released]) hc)

theorem toOutcome (k : Fin 16) (o : PdOutcome) (hc : P c) : P (toOutcome k o c) := by
  cases o
  · exact h.toInterrogating k hc
  all_goals exact h.toHeld k _ hc

theorem completePowerDown (k : Fin 16) (hc : P c) : P (completePowerDown k c) := by
  unfold Machine.completePowerDown
  extract_lets o c1
  have h1 : P c1 := ite_keeps (h.toOutcome _ _ hc) (h.toSeated _ hc)
  clear_value c1
  split
  · exact h.raise _ _ _ h1
  · exact h1

theorem toPoweringDown (k : Fin 16) (cause : Option DrainCause) (o : PdOutcome) (hc : P c) :
    P (toPoweringDown k cause o c) := by
  unfold Machine.toPoweringDown
  extract_lets c1
  have h1 : P c1 := h.enterState _ _ _ (by intro s; simp [Slot.coherent, Slot.enter, SlotState.powered, SlotState.released]) hc
  exact ite_keeps h1 (h.completePowerDown _ h1)

theorem endDrain (k : Fin 16) (hc : P c) : P (endDrain k c) := by
  unfold Machine.endDrain
  extract_lets cause
  exact h.toPoweringDown _ _ _ hc

theorem toEmpty (k : Fin 16) (hc : P c) : P (toEmpty k c) := by
  unfold Machine.toEmpty
  extract_lets bound c1
  have h1 : P c1 := h.enterState _ _ _ (fun s => Slot.enter_coherent s (by decide)) hc
  exact ite_keeps (h.toInvKeeps.vacate _ h1) h1

theorem powerFault (k : Fin 16) (hc : P c) : P (powerFault k c) :=
  h.raise _ _ _ (h.raise _ _ _
    (h.enterState _ _ _ (by intro s; simp [Slot.coherent, Slot.enter, SlotState.powered, SlotState.released]) hc))

theorem contactLost (k : Fin 16) (hc : P c) : P (contactLost k c) := by
  unfold Machine.contactLost
  extract_lets old
  exact ite_keeps hc (ite_keeps (h.raise _ _ _ (h.toEmpty _ hc)) (h.toEmpty _ hc))

theorem contactMade (k : Fin 16) (hc : P c) : P (contactMade k c) := by
  unfold Machine.contactMade
  extract_lets s
  exact ite_keeps (ite_keeps (h.toInterrogating _ hc) (h.toSeated _ hc)) hc

theorem drainAdopting (k : Fin 16) (cause : DrainCause) (hc : P c) : P (drainAdopting k cause c) := by
  unfold Machine.drainAdopting
  extract_lets kept
  exact h.toDraining _ _ (h.toEngineKeeps.emptyEngine _ hc)

theorem latchOpened (k : Fin 16) (hc : P c) : P (latchOpened k c) := by
  unfold Machine.latchOpened
  cases (c.slot k).state <;> dsimp only <;> first
    | with_reducible exact hc
    | with_reducible exact h.toSeated k hc
    | with_reducible exact h.toPoweringDown k _ _ hc
    | with_reducible exact h.toDraining k _ hc
    | with_reducible exact h.drainAdopting k _ hc

theorem latchClosed (k : Fin 16) (hc : P c) : P (latchClosed k c) := ite_keeps (h.toInterrogating _ hc) hc

theorem shedOff (k : Fin 16) (hc : P c) : P (shedOff k c) := by
  unfold Machine.shedOff
  cases (c.slot k).state <;> dsimp only <;> first
    | with_reducible exact hc
    | with_reducible exact h.toPoweringDown k _ _ hc
    | with_reducible exact h.toDraining k _ hc
    | with_reducible exact h.drainAdopting k _ hc

theorem thermalDrain (k : Fin 16) (hc : P c) : P (thermalDrain k c) := by
  unfold Machine.thermalDrain
  cases (c.slot k).state <;> dsimp only <;> first
    | with_reducible exact hc
    | with_reducible exact h.toDraining k _ hc
    | with_reducible exact h.drainAdopting k _ hc

theorem slotEdge (k : Fin 16) (i : SlotInput) (level : Bool) (hc : P c) : P (slotEdge k i level c) := h.write _ _ _ (fun _ hs => by cases i <;> exact hs) hc

theorem slotDebounced (k : Fin 16) (i : SlotInput) {made lost : Chip → Chip} (hm : ∀ c, P c → P (made c))
    (hl : ∀ c, P c → P (lost c)) (hc : P c) : P (slotDebounced k i made lost c) := by
  unfold Machine.slotDebounced
  extract_lets d c1
  have h1 : P c1 := h.write _ _ _ (fun _ hs => by cases i <;> exact hs) hc
  exact ite_keeps (ite_keeps h1 (ite_keeps (hm _ h1) (hl _ h1))) hc

theorem pwrGoodChanged (k : Fin 16) (level : Bool) (hc : P c) : P (pwrGoodChanged k level c) := by
  unfold Machine.pwrGoodChanged
  extract_lets c1
  have h1 : P c1 := h.write _ _ _ (fun _ hs => hs) hc
  clear_value c1
  refine ite_keeps hc ?_
  split <;> first
    | with_reducible exact h1
    | with_reducible exact h.toStarting k h1
    | with_reducible exact h.powerFault k h1
    | with_reducible exact h.completePowerDown k h1

theorem powerUpExpired (k : Fin 16) (together : Bool) (hc : P c) : P (powerUpExpired k together c) :=
  ite_keeps (h.toPoweringDown _ _ _ (h.raise _ _ _ (h.write _ _ _ (fun _ hs => hs) hc))) hc
theorem resetHoldExpired (k : Fin 16) (hc : P c) : P (resetHoldExpired k c) := ite_keeps (h.toRunning _ hc) hc
theorem pollExpired (k : Fin 16) (hc : P c) : P (pollExpired k c) :=
  ite_keeps (h.toEngineKeeps.requestPoll _ (h.write _ _ _ (fun _ hs => hs) hc)) hc
theorem drainExpired (k : Fin 16) (hc : P c) : P (drainExpired k c) := ite_keeps (h.endDrain _ hc) hc
theorem powerDownExpired (k : Fin 16) (hc : P c) : P (powerDownExpired k c) := ite_keeps (h.powerFault _ hc) hc

theorem admitSlot (k : Fin 16) (hc : P c) : P (admitSlot k c).1 := by
  unfold Machine.admitSlot
  split
  · dsimp only
    exact h.enterState _ _ _ (fun s => Slot.enter_coherent (new := .awaitingGrant) s (by decide)) hc
  · exact hc

theorem readmitSlot (k : Fin 16) (hc : P c) : P (readmitSlot k c).1 := by
  unfold Machine.readmitSlot
  split
  · exact ite_keeps (h.toInterrogating _ hc) (h.toNegotiating _ hc)
  · exact hc

theorem evictSlot (k : Fin 16) (hc : P c) : P (evictSlot k c).1 := by
  unfold Machine.evictSlot
  cases (c.slot k).state <;> dsimp only <;> first
    | with_reducible exact hc
    | with_reducible exact h.toHeld k _ hc
    | with_reducible exact h.toPoweringDown k _ _ hc
    | with_reducible exact h.toDraining k _ hc

theorem forceOffSlot (k : Fin 16) (hc : P c) : P (forceOffSlot k c).1 := by
  unfold Machine.forceOffSlot
  split
  · exact h.toPoweringDown _ _ _ hc
  · exact hc

theorem renegotiateSlot (k : Fin 16) (hc : P c) : P (renegotiateSlot k c).1 := by
  unfold Machine.renegotiateSlot
  extract_lets e
  split
  · exact h.toEngineKeeps.arbitrate _ (h.toEngineKeeps.modEngine _ _ hc)
  · exact hc

theorem writeOverride (k : Fin 16) (p : Option Nat) (hc : P c) : P (writeOverride k p c) :=
  h.toPowerKeeps.replaceEntry _ (h.write _ _ _ (fun _ hs => hs) hc)

theorem takeCloseOrder (k : Fin 16) (hc : P c) : P (takeCloseOrder k c) :=
  ite_keeps (ite_keeps (h.toPowering _ hc) (h.toPowerKeeps.releaseGrant _ hc)) hc

theorem takeOffer (k : Fin 16) (a : OfferAnswer) (hc : P c) : P (takeOffer k a c) := by
  cases a
  · exact h.toNegotiating _ (h.write _ _ _ (fun _ hs => hs) hc)
  · exact h.toNegotiating _ (h.write _ _ _ (fun _ hs => hs) hc)
  · exact h.toNegotiating _ (h.write _ _ _ (fun _ hs => hs) hc)
  · exact h.toHeld _ _ hc
  · exact h.toHeld _ _ hc

theorem endAdoption (k : Fin 16) (hc : P c) : P (endAdoption k c) := by
  unfold Machine.endAdoption
  split
  · exact h.toRunning _ hc
  · exact h.toDraining _ _ hc

theorem takeIdentity (k : Fin 16) (id : Identity) (hc : P c) : P (takeIdentity k id c) := by
  unfold Machine.takeIdentity
  split
  · exact h.takeOffer _ _ (h.toInvKeeps.offer _ _ hc)
  · exact ite_keeps (h.endAdoption _ hc) (h.toDraining _ _ hc)
  · exact hc

theorem takeNoIdentity (k : Fin 16) (hc : P c) : P (takeNoIdentity k c) := by
  unfold Machine.takeNoIdentity
  split
  · exact h.toHeld _ _ hc
  · exact h.endAdoption _ (h.raise _ _ _ (h.write _ _ _ (fun _ hs => hs) hc))
  · exact hc

theorem admitTerms (k : Fin 16) (hc : P c) : P (admitTerms k c) := h.enterState _ _ _ (fun s => Slot.enter_coherent s (by split <;> decide)) hc

theorem takeDraw (k : Fin 16) (measured : Nat) (hc : P c) : P (takeDraw k measured c) := by
  unfold Machine.takeDraw
  extract_lets old new c1
  have h1 : P c1 := h.write _ _ _ (fun _ hs => hs) hc
  exact ite_keeps (h.raise _ _ _ h1) h1

theorem takeStatus (k : Fin 16) (st : BladeStatus) (hc : P c) : P (takeStatus k st c) := by
  unfold Machine.takeStatus
  extract_lets c1 c2
  have h1 : P c1 := h.takeDraw _ _ (h.toFanKeeps.fanOnStatus _ (h.write _ _ _ (fun _ hs => hs) hc))
  have h2 : P c2 := ite_keeps (h.raise _ _ _ h1) h1
  exact ite_keeps (h.endDrain _ h2) h2

theorem takeSilence (k : Fin 16) (hc : P c) : P (takeSilence k c) := by
  unfold Machine.takeSilence
  extract_lets old c1
  have h1 : P c1 := h.write _ _ _ (fun _ hs => hs) hc
  exact ite_keeps (h.toFanKeeps.fanOnStatus _ (h.raise _ _ _ (h.write _ _ _ (fun _ hs => hs) h1))) h1

theorem restartInterrogations (hc : P c) : P (restartInterrogations c) :=
  forEach_keeps _ _ (fun _ _ hx => ite_keeps (h.toEngineKeeps.startInterrogation _ hx) hx) _ hc

end SlotKeeps

end Sys2Proof.Machine
end

