-- ==== Sys2Proof/Laws/Links.lean ====
section
/-!
SUPPORT. What the events of the two links can write: a property kept by the slot controller's operations, and by writes of
the module link controller, is kept by every one of them.
-/

namespace Sys2Proof.Machine

namespace SlotKeeps

variable {P : Chip → Prop} (h : SlotKeeps P) {c : Chip}
include h

theorem endPhase (k : Fin 16) (hc : P c) : P (endPhase k c) := h.toEngineKeeps.modEngine _ _ hc
theorem answerPhase (k : Fin 16) (hc : P c) : P (answerPhase k c) :=
  h.toEngineKeeps.modEngine _ _ (h.toEngineKeeps.endExchange _ _ hc)
theorem gather (k : Fin 16) (d : Draft) (hc : P c) : P (gather k d c) := h.toEngineKeeps.modEngine _ _ hc
theorem failInterrogation (k : Fin 16) (hc : P c) : P (failInterrogation k c) := h.takeNoIdentity _ (h.endPhase _ hc)

theorem failNegotiation (k : Fin 16) (r : HoldReason) (hc : P c) : P (failNegotiation k r c) := by
  unfold Machine.failNegotiation
  extract_lets phase c1
  have h1 : P c1 := h.endPhase _ hc
  clear_value c1 phase
  split
  · exact h.toHeld _ _ h1
  · exact h.raise _ _ _ h1
  · exact h1

theorem failSettlement (k : Fin 16) (hc : P c) : P (failSettlement k c) := by
  unfold Machine.failSettlement
  extract_lets c1
  have h1 : P c1 := h.toPowerKeeps.post _ (h.toEngineKeeps.modEngine _ _ hc)
  exact ite_keeps (h.raise _ _ _ h1) h1

theorem exchangeFailed (k : Fin 16) (x : PageRequest) (r : HoldReason) (hc : P c) : P (exchangeFailed k x r c) := by
  unfold Machine.exchangeFailed
  split
  · exact h.failInterrogation _ hc
  · exact h.failNegotiation _ _ hc
  · exact ite_keeps (h.failInterrogation _ hc) (h.failNegotiation _ _ hc)
  · exact h.failSettlement _ hc
  · exact h.failSettlement _ hc
  · exact h.toPowerKeeps.post _ hc
  · exact h.toPowerKeeps.post _ hc
  · exact hc
  · exact h.takeSilence _ hc

theorem endInterrogation (k : Fin 16) (v m : BitVec 16) (r : Byte) (l : List Byte) (hc : P c) :
    P (endInterrogation k v m r l c) := h.takeIdentity _ _ (h.endPhase _ hc)

theorem takeFirstIdentity (k : Fin 16) (p : Page) (x : IdentityHead) (hc : P c) : P (takeFirstIdentity k p x c) :=
  ite_keeps (h.failInterrogation _ hc) (ite_keeps (h.gather _ _ hc) (h.endInterrogation _ _ _ _ _ hc))

theorem rejectPage (k : Fin 16) (x : PageRequest) (r : HoldReason) (hc : P c) : P (rejectPage k x r c) :=
  h.exchangeFailed _ _ _ (h.toEngineKeeps.endExchange _ _ hc)

theorem raiseDegraded (k : Fin 16) (f : FaultCode) (hc : P c) : P (raiseDegraded k f c) := ite_keeps (h.raise _ _ _ hc) hc

theorem interrogationPage (k : Fin 16) (x : Exchange) (p : Page) (hc : P c) : P (interrogationPage k x p c) := by
  unfold Machine.interrogationPage
  split
  · split
    · exact h.rejectPage _ _ _ hc
    · extract_lets c1 c2
      have h1 : P c1 := h.raiseDegraded _ _ hc
      have h2 : P c2 := h.answerPhase _ h1
      exact ite_keeps (h.rejectPage _ _ _ h1) (ite_keeps (h.failInterrogation _ h2) (h.endInterrogation _ _ _ _ _ h2))
  · split
    · exact h.rejectPage _ _ _ hc
    · extract_lets c1
      have h1 : P c1 := h.raiseDegraded _ _ hc
      exact ite_keeps (h.rejectPage _ _ _ h1) (h.takeFirstIdentity _ _ _ (h.answerPhase _ h1))

theorem settleTerms (k : Fin 16) (hc : P c) : P (Machine.settleTerms k c) := h.toPowerKeeps.settleTerms _ hc

theorem resolved (k : Fin 16) (run floor priority : Nat) (l : List Nat) (hc : P c) : P (resolved k run floor priority l c) := by
  unfold Machine.resolved
  extract_lets phase handles short terms written c1
  have hw : ∀ x, P x → P (written x) := fun x hx =>
    ite_keeps (h.raise _ _ _ (h.toPowerKeeps.post _ (h.write _ _ _ (fun _ hs => hs) hx)))
      (h.toPowerKeeps.post _ (h.write _ _ _ (fun _ hs => hs) hx))
  have h1 : P c1 := h.endPhase _ hc
  clear_value c1 phase written
  split
  · exact h.admitTerms _ (hw _ h1)
  · exact h.settleTerms _ (hw _ h1)
  · exact h1

theorem resolve (k : Fin 16) (run floor priority : Nat) (l : List Nat) (hc : P c) : P (resolve k run floor priority l c) := by
  unfold Machine.resolve
  split
  · exact h.failNegotiation _ _ hc
  · exact h.resolved _ _ _ _ _ hc

theorem continueTerms (k : Fin 16) (more : Bool) (run floor priority count : Nat) (l : List Nat) (hc : P c) :
    P (continueTerms k more run floor priority count l c) :=
  ite_keeps (h.failNegotiation _ _ hc)
    (ite_keeps (ite_keeps (h.failNegotiation _ _ hc) (h.gather _ _ hc))
      (ite_keeps (h.resolve _ _ _ _ _ hc) (h.failNegotiation _ _ hc)))

theorem negotiationPage (k : Fin 16) (x : Exchange) (p : Page) (hc : P c) : P (negotiationPage k x p c) := by
  unfold Machine.negotiationPage
  extract_lets c1
  have h1 : P c1 := h.raiseDegraded _ _ hc
  clear_value c1
  split
  · exact h.rejectPage _ _ _ h1
  · refine ite_keeps (h.rejectPage _ _ _ h1) ?_
    have h2 := h.answerPhase k h1
    exact ite_keeps (h.failNegotiation _ _ h2) (h.continueTerms _ _ _ _ _ _ _ h2)

theorem takeAck (k : Fin 16) (x : PageRequest) (ok : Bool) (hc : P c) : P (takeAck k x ok c) := by
  unfold Machine.takeAck
  split
  · exact ite_keeps hc (h.failSettlement _ hc)
  · exact ite_keeps hc (h.failSettlement _ hc)
  · exact h.toPowerKeeps.post _ hc
  · exact h.toPowerKeeps.post _ hc
  all_goals exact hc

theorem ackPage (k : Fin 16) (x : Exchange) (p : Page) (hc : P c) : P (ackPage k x p c) :=
  ite_keeps (h.takeAck _ _ _ (h.raiseDegraded _ _ (h.toEngineKeeps.endExchange _ _ hc))) (h.rejectPage _ _ _ hc)

theorem statusPage (k : Fin 16) (x : Exchange) (p : Page) (hc : P c) : P (statusPage k x p c) := by
  unfold Machine.statusPage
  split
  · exact h.takeStatus _ _ (h.toEngineKeeps.endExchange _ _ (h.statusPages _ _ hc))
  · exact h.rejectPage _ _ _ hc

theorem takePage (k : Fin 16) (x : Exchange) (p : Page) (hc : P c) : P (takePage k x p c) := by
  unfold Machine.takePage
  split
  · exact h.interrogationPage _ _ _ hc
  · exact h.negotiationPage _ _ _ hc
  · exact ite_keeps (h.interrogationPage _ _ _ hc) (h.negotiationPage _ _ _ hc)
  · exact h.ackPage _ _ _ hc
  · exact h.ackPage _ _ _ hc
  · exact h.ackPage _ _ _ hc
  · exact h.ackPage _ _ _ hc
  · exact h.ackPage _ _ _ hc
  · exact h.statusPage _ _ _ hc

theorem takeTimeout (k : Fin 16) (x : Exchange) (hc : P c) : P (takeTimeout k x c) :=
  ite_keeps (h.exchangeFailed _ _ _ (h.toEngineKeeps.endExchange _ _ hc)) (h.toEngineKeeps.modEngine _ _ hc)

theorem slotPage (k : Fin 16) (page : List Byte) (hc : P c) : P (slotPage k page c) := by
  unfold Machine.slotPage
  split
  · exact hc
  · refine h.toEngineKeeps.arbitrate _ ?_
    split
    · exact h.takePage _ _ _ hc
    · exact h.takeTimeout _ _ hc

theorem slotTimeout (k : Fin 16) (hc : P c) : P (slotTimeout k c) := by
  unfold Machine.slotTimeout
  split
  · exact hc
  · exact h.toEngineKeeps.arbitrate _ (h.takeTimeout _ _ hc)

theorem slotQuietEnded (k : Fin 16) (hc : P c) : P (slotQuietEnded k c) :=
  ite_keeps (h.toEngineKeeps.arbitrate _ (h.toEngineKeeps.modEngine _ _ hc)) hc

end SlotKeeps

/-- A property that writes of the module link controller do not disturb either. -/
structure LinkKeeps (P : Chip → Prop) : Prop extends SlotKeeps P where
  modules : ∀ m c, P c → P (setModules m c)

namespace LinkKeeps

variable {P : Chip → Prop} (h : LinkKeeps P) {c : Chip}
include h

theorem modModules (f : ModuleLink → ModuleLink) (hc : P c) : P (modModules f c) := h.modules _ _ hc
theorem askRead (bay : Bay) (hc : P c) : P (askRead bay c) := h.modModules _ hc

theorem ownerReadFailed (bay : Bay) (hc : P c) : P (ownerReadFailed bay c) := by
  cases bay
  · exact h.toPowerKeeps.supplyReadFailed _ hc
  · exact h.toFanKeeps.fanReadFailed _ hc

theorem failRead (bay : Bay) (hc : P c) : P (failRead bay c) := h.ownerReadFailed _ (h.modModules _ hc)

theorem ownerIdentity (bay : Bay) (id : Identity) (r : Option InvRef) (hc : P c) : P (ownerIdentity bay id r c) := by
  cases bay
  · exact h.toPowerKeeps.supplyIdentity _ _ _ hc
  · exact h.toFanKeeps.fanIdentity _ _ _ _ _ hc

theorem handOn (bay : Bay) (id : Identity) (hc : P c) : P (handOn bay id c) :=
  h.ownerIdentity _ _ _ (h.toInvKeeps.offer _ _ hc)

theorem takeResponse (bay : Bay) (m : List Byte) (hc : P c) : P (takeResponse bay m c) := by
  unfold Machine.takeResponse
  extract_lets i
  exact ite_keeps (h.handOn _ _ (h.modModules _ hc)) (h.failRead _ hc)

theorem readExpired (bay : Bay) (second : Bool) (hc : P c) : P (readExpired bay second c) :=
  ite_keeps (h.failRead _ hc) (h.modModules _ hc)

theorem moduleAnswered (m : List Byte) (hc : P c) : P (moduleAnswered m c) := by
  unfold Machine.moduleAnswered
  split
  · exact hc
  · refine h.modModules _ ?_
    split
    · exact h.takeResponse _ _ hc
    · exact h.readExpired _ _ hc

theorem moduleTimedOut (hc : P c) : P (moduleTimedOut c) := by
  unfold Machine.moduleTimedOut
  split
  · exact hc
  · exact h.modModules _ (h.readExpired _ _ hc)

theorem moduleQuietEnded (hc : P c) : P (moduleQuietEnded c) := ite_keeps (h.modModules _ hc) hc
theorem moduleEdge (bay : Bay) (level : Bool) (hc : P c) : P (moduleEdge bay level c) := h.modModules _ hc

theorem moduleArrival (bay : Bay) (hc : P c) : P (moduleArrival bay c) := by
  unfold Machine.moduleArrival
  refine h.askRead _ ?_
  cases bay <;> dsimp only
  · exact h.toPowerKeeps.supplyArrival _ hc
  · exact h.toFanKeeps.fanArrival _ hc

theorem moduleRemoval (bay : Bay) (hc : P c) : P (moduleRemoval bay c) := by
  unfold Machine.moduleRemoval
  refine h.toInvKeeps.vacate _ (h.modModules _ ?_)
  cases bay <;> dsimp only
  · exact h.toPowerKeeps.supplyRemoval _ hc
  · exact h.toFanKeeps.fanRemoval _ hc

theorem moduleDebounced (bay : Bay) (hc : P c) : P (moduleDebounced bay c) := by
  unfold Machine.moduleDebounced
  extract_lets d c1
  have h1 : P c1 := h.modModules _ hc
  exact ite_keeps (ite_keeps h1 (ite_keeps (h.moduleArrival _ h1) (h.moduleRemoval _ h1))) hc

theorem retrySupply (b : Fin 6) (hc : P c) : P (retrySupply b c).1 := by
  unfold Machine.retrySupply
  split
  · split
    · dsimp only
      exact h.askRead _ (h.toPowerKeeps.modSupply _ _ hc)
    · dsimp only
      exact h.toPowerKeeps.startSupply b hc
  · exact hc

theorem restartModules (hc : P c) : P (restartModules c) :=
  forEach_keeps _ _ (fun _ _ hx => h.askRead _ hx) _ (h.modModules _ hc)

end LinkKeeps

end Sys2Proof.Machine
end

