-- ==== Sys2Proof/Laws/Commands.lean ====
section
/-!
SUPPORT. What every command can write: a property kept by the writes of the blocks, by writes of the port and by the three
whole-chip changes (cold reset, and the two of warm restart that rewrite a table at once) is kept by every command.
-/

namespace Sys2Proof.Machine

/-- A property of the chip that no write of any block disturbs. -/
structure ChipKeeps (P : Chip → Prop) : Prop extends LinkKeeps P where
  port : ∀ p c, P c → P (setPort p c)
  restart : ∀ c, P c → P (restartSlots c)
  reset : ∀ c, P c → P (coldReset c)

/-- An owner that items may keep from acting keeps what it would keep. -/
theorem onItems_keeps {P : Chip → Prop} {c : Chip} (good : Bool) {owner : Chip → Chip × Answer} (ho : P (owner c).1)
    (hc : P c) : P (onItems good owner c).1 := by
  unfold onItems
  split
  · exact ho
  · exact hc

namespace ChipKeeps

variable {P : Chip → Prop} (h : ChipKeeps P) {c : Chip}
include h

theorem modPort (f : Port → Port) (hc : P c) : P (modPort f c) := h.port _ _ hc
theorem setSettings (t : Settings) (hc : P c) : P (setSettings t c) := h.port { c.port with settings := t } _ hc
theorem setAlerts (l : List AlertEntry) (hc : P c) : P (setAlerts l c) := h.port { c.port with alerts := l } _ hc

theorem warmRestart (hc : P c) : P (warmRestart c) := by
  unfold Machine.warmRestart
  refine h.restartInterrogations (h.toFanKeeps.restartFans (h.toPowerKeeps.restartPower (h.toLinkKeeps.restartModules ?_)))
  refine forEach_keeps _ _ (fun _ _ hx => h.toPowerKeeps.modSupply _ _ hx) _ (h.toHubKeeps.restartHub (h.restart _ ?_))
  exact h.engines _ _ (h.raise _ _ _ (h.messages _ _ (h.port _ _ hc)))

theorem takeRequest (i : Instr) {owner : Chip → Chip × Answer} (ho : ∀ c, P c → P (owner c).1) (hc : P c) :
    P (takeRequest i owner c) :=
  ite_keeps (h.modPort _ (ho _ hc)) (ite_keeps (h.modPort _ (ho _ (h.modPort _ hc))) (h.modPort _ hc))

theorem returning (l : List Byte) (hc : P c) : P (returning l c) := h.modPort _ hc

theorem decodePut (m : List Byte) (hc : P c) : P (decodePut m c) := by
  unfold Machine.decodePut
  extract_lets ready
  have hr : ∀ l, P (ready l) := fun l => h.modPort _ hc
  clear_value ready
  split
  · exact hr _
  · exact hr _
  · split
    · exact hr _
    · exact h.modPort _ hc

theorem putMessage (m : List Byte) (hc : P c) : P (putMessage m c) := by
  unfold Machine.putMessage
  extract_lets c1
  have h1 : P c1 := h.returning _ hc
  exact ite_keeps (h.decodePut _ (h.modPort _ h1)) (h.modPort _ h1)

theorem getMessage (n : Nat) (hc : P c) : P (getMessage n c) := by
  unfold Machine.getMessage
  extract_lets held c1 c2
  have h1 : P c1 := h.returning _ hc
  have h2 : P c2 := h.modPort _ h1
  exact ite_keeps (ite_keeps (h.warmRestart h2) h2) h1

theorem portTransfer (x : Byte) (l : List Byte) (hc : P c) : P (portTransfer x l c) := by
  unfold Machine.portTransfer
  split
  · exact h.putMessage _ hc
  · exact h.getMessage _ hc
  · exact h.returning _ hc

/-! ## What the owners of requests do -/

theorem amendSlotOwner (k : Fin 16) (l : List Item) (hc : P c) : P (amendSlotOwner k l c).1 := by
  unfold Machine.amendSlotOwner
  split
  · exact hc
  · split
    · exact h.writeOverride k _ hc
    · split
      · exact h.writeOverride k _ hc
      · exact hc

theorem amendInventoryOwner (key : InvKey) (l : List Item) (hc : P c) : P (amendInventoryOwner key l c).1 := by
  unfold Machine.amendInventoryOwner
  split
  · exact hc
  · split
    · split
      · exact hc
      · split
        · exact h.toInvKeeps.writeRecord _ _ hc
        · exact hc
    · exact hc

theorem amendZoneOwner (z : Fin 4) (l : List Item) (hc : P c) : P (amendZoneOwner z l c).1 := by
  unfold Machine.amendZoneOwner
  split
  · exact hc
  · dsimp only
    split
    · dsimp only
      exact h.toFanKeeps.modZone _ _ hc
    · exact hc

theorem amendChannelOwner (i : Fin 32) (l : List Item) (hc : P c) : P (amendChannelOwner i l c).1 := by
  unfold Machine.amendChannelOwner
  split
  · exact hc
  · split
    · exact hc
    · split
      · split
        · exact h.toHubKeeps.checkedAmend _ _ _ _ hc
        · exact hc
      · exact hc

theorem amendSettingsOwner (l : List Item) (hc : P c) : P (amendSettingsOwner l c).1 := by
  unfold Machine.amendSettingsOwner
  split
  · unfold Machine.applySettings
    extract_lets write c1
    have hw : P (write c) := h.setSettings _ hc
    exact h.toFanKeeps.fanSettings _ _ (ite_keeps (h.toPowerKeeps.powerEvent _ hw) hw)
  · exact hc

theorem defineOwner (l : List Item) (hc : P c) : P (defineOwner l c).1 := by
  unfold Machine.defineOwner
  split
  · exact hc
  · split
    · exact h.toHubKeeps.defineRecord _ hc
    · exact hc

theorem retireInventoryOwner (key : InvKey) (hc : P c) : P (retireInventoryOwner key c).1 := by
  unfold Machine.retireInventoryOwner
  split
  · exact hc
  · split
    · split
      · exact hc
      · exact h.toInvKeeps.retireHandle _ hc
    · exact hc

theorem retireRecord (i : Fin 32) (hc : P c) : P (retireRecord i c).1 := by
  unfold Machine.retireRecord
  split
  · exact hc
  · split
    · exact hc
    · split
      · exact hc
      · exact h.setAlerts _ (h.toHubKeeps.setChannel _ _ hc)

theorem ackOwner (o : AlertObject) (m : CauseSet) (hc : P c) : P (ackOwner o m c).1 := by
  unfold Machine.ackOwner
  split
  · exact h.setAlerts _ hc
  · exact hc

theorem capSlot (k : Fin 16) (hc : P c) : P (capSlot k c).1 := by
  unfold Machine.capSlot
  split
  · exact h.toPowerKeeps.addReason _ _ hc
  · exact hc

theorem uncapSlot (k : Fin 16) (hc : P c) : P (uncapSlot k c).1 := by
  unfold Machine.uncapSlot
  split
  · exact h.toPowerKeeps.removeReason _ _ hc
  · exact hc

/-! ## The reports to the power unit -/

theorem takeSettlement (k : Fin 16) (o : SettleOutcome) (hc : P c) : P (takeSettlement k o c) := by
  unfold Machine.takeSettlement
  refine ite_keeps ?_ hc
  split
  · exact ite_keeps (h.toPowerKeeps.requeueAdmission _ hc) (h.toPowerKeeps.post _ (h.toPowerKeeps.modGrant _ _ hc))
  · unfold Machine.settlementFailed
    extract_lets c1
    have h1 : P c1 := h.toPowerKeeps.failAdmission _ hc
    exact ite_keeps (h.toHeld _ _ h1) h1
  · exact hc

/-! ## Every command -/

theorem taken {event : Chip → Chip} {s t : State} (he : P (event s.chip)) (hs : taken event s = .next t) : P t.chip := by
  cases hs
  exact h.toPowerKeeps.queueService he

theorem takenMessage {m : Instr} {event : Chip → Chip} {s t : State} (he : ∀ c, P c → P (event c)) (hp : P s.chip)
    (hs : takenMessage m event s = .next t) : P t.chip :=
  h.taken (event := fun c => event (deliver m c)) (he _ (h.messages _ _ hp)) hs

theorem takenOrder {i : Instr} {owner : Chip → Chip × Status} {s t : State} (ho : ∀ c, P c → P (owner c).1) (hp : P s.chip)
    (hs : takenOrder i owner s = .next t) : P t.chip :=
  h.taken (h.takeRequest _ (owner := fun c => statusOnly (owner c)) ho hp) hs

theorem takenRequest {i : Instr} {owner : Chip → Chip × Answer} {s t : State} (ho : ∀ c, P c → P (owner c).1) (hp : P s.chip)
    (hs : Machine.taken (Machine.takeRequest i owner) s = .next t) : P t.chip :=
  h.taken (h.takeRequest _ ho hp) hs

/-- What no block's writes disturb, no command disturbs. -/
theorem exec (i : Instr) {s t : State} (hp : P s.chip) (hs : exec i s = .next t) : P t.chip := by
  cases i
  case coldReset => exact h.taken (h.reset _ hp) hs
  case slotInputEdge => exact h.taken (h.slotEdge _ _ _ hp) hs
  case contactDebounceExpiry =>
    exact h.taken (h.slotDebounced _ _ (fun _ hx => h.contactMade _ hx) (fun _ hx => h.contactLost _ hx) hp) hs
  case latchDebounceExpiry =>
    exact h.taken (h.slotDebounced _ _ (fun _ hx => h.latchClosed _ hx) (fun _ hx => h.latchOpened _ hx) hp) hs
  case pwrGoodChange => exact h.taken (h.pwrGoodChanged _ _ hp) hs
  case powerUpDelayExpiry => exact h.taken (h.powerUpExpired _ _ hp) hs
  case resetHoldExpiry => exact h.taken (h.resetHoldExpired _ hp) hs
  case pollTimerExpiry => exact h.taken (h.pollExpired _ hp) hs
  case drainTimerExpiry => exact h.taken (h.drainExpired _ hp) hs
  case powerDownTimerExpiry => exact h.taken (h.powerDownExpired _ hp) hs
  case closeOrder => exact h.takenMessage (fun _ hx => h.takeCloseOrder _ hx) hp hs
  case shedOffAction => exact h.takenMessage (fun _ hx => h.shedOff _ hx) hp hs
  case thermalDrainRequest => exact h.takenMessage (fun _ hx => h.thermalDrain _ hx) hp hs
  case slotPageReceived => exact h.taken (h.slotPage _ _ hp) hs
  case slotResponseTimeout => exact h.taken (h.slotTimeout _ hp) hs
  case slotQuietEnd => exact h.taken (h.slotQuietEnded _ hp) hs
  case capRequest => exact h.takenMessage (fun _ hx => h.toEngineKeeps.requestCap _ _ hx) hp hs
  case uncapRequest => exact h.takenMessage (fun _ hx => h.toEngineKeeps.requestUncap _ _ hx) hp hs
  case grantRequest => exact h.takenMessage (fun _ hx => h.toEngineKeeps.requestGrant _ _ _ hx) hp hs
  case matchHandoff => exact h.takenMessage (fun _ hx => h.toHubKeeps.takeMatch _ _ hx) hp hs
  case settlementReport => exact h.takenMessage (fun _ hx => h.takeSettlement _ _ hx) hp hs
  case capOutcome => exact h.takenMessage (fun _ hx => h.toPowerKeeps.takeCapOutcome _ _ hx) hp hs
  case uncapOutcome => exact h.takenMessage (fun _ hx => h.toPowerKeeps.takeUncapOutcome _ _ hx) hp hs
  case modulePresenceEdge => exact h.taken (h.moduleEdge _ _ hp) hs
  case modulePresenceDebounceExpiry => exact h.taken (h.moduleDebounced _ hp) hs
  case moduleResponse => exact h.taken (h.moduleAnswered _ hp) hs
  case moduleResponseTimeout => exact h.taken (h.moduleTimedOut hp) hs
  case moduleQuietEnd => exact h.taken (h.moduleQuietEnded hp) hs
  case psuPgChange => exact h.taken (h.toPowerKeeps.psuPgChanged _ _ hp) hs
  case supplyStartDelayExpiry => exact h.taken (ite_keeps (h.toPowerKeeps.failSupply _ _ hp) hp) hs
  case settlePeriodEnd => exact h.taken (h.toFanKeeps.modFan _ _ hp) hs
  case countWindowEnd => exact h.taken (ite_keeps (h.toFanKeeps.takeSample _ _ hp) hp) hs
  case releaseTimerExpiry => exact h.taken (ite_keeps (h.toFanKeeps.releaseLocked _ hp) hp) hs
  case graceSecondTick => exact h.taken (h.toFanKeeps.modZone _ _ hp) hs
  case graceTimerExpiry => exact h.taken (ite_keeps (h.toFanKeeps.sendDrains _ (h.toFanKeeps.modZone _ _ hp)) hp) hs
  case uplinkFrameStart => exact h.taken (h.toHubKeeps.uplinkStart _ hp) hs
  case uplinkFrameCompletion => exact h.taken (h.toHubKeeps.uplinkCompletion _ _ hp) hs
  case laneFrameCompletion => exact h.taken (h.toHubKeeps.laneCompletion _ _ hp) hs
  case uplinkTransmitCompletion => exact h.taken (h.toHubKeeps.uplinkTransmitted _ hp) hs
  case laneTransmitCompletion => exact h.taken (h.toHubKeeps.laneTransmitted _ hp) hs
  case uplLinkChange => exact h.taken (h.toHubKeeps.linkChanged _ _ hp) hs
  case readStatus => exact h.taken (h.returning _ hp) hs
  case putRequest => exact h.taken (h.putMessage _ hp) hs
  case getResponse => exact h.taken (h.getMessage _ hp) hs
  case unknownPortCommand => exact h.taken (h.portTransfer _ _ hp) hs
  case unacceptedVerb | fetchSlot | fetchInventory | fetchSupply | fetchPower | fetchZone | fetchFan | fetchChannel
    | fetchUplink | fetchLane | fetchSettings | fetchAlert => exact h.takenRequest (fun _ hx => hx) hp hs
  case amendSlot => exact h.takenRequest (fun _ hx => onItems_keeps _ (h.amendSlotOwner _ _ hx) hx) hp hs
  case amendInventory => exact h.takenRequest (fun _ hx => onItems_keeps _ (h.amendInventoryOwner _ _ hx) hx) hp hs
  case amendZone => exact h.takenRequest (fun _ hx => onItems_keeps _ (h.amendZoneOwner _ _ hx) hx) hp hs
  case amendChannel => exact h.takenRequest (fun _ hx => onItems_keeps _ (h.amendChannelOwner _ _ hx) hx) hp hs
  case amendSettings => exact h.takenRequest (fun _ hx => onItems_keeps _ (h.amendSettingsOwner _ hx) hx) hp hs
  case defineChannel => exact h.takenRequest (fun _ hx => onItems_keeps _ (h.defineOwner _ hx) hx) hp hs
  case retireInventory => exact h.takenRequest (fun _ hx => h.retireInventoryOwner _ hx) hp hs
  case retireChannel => exact h.takenOrder (fun _ hx => h.retireRecord _ hx) hp hs
  case ack => exact h.takenRequest (fun _ hx => h.ackOwner _ _ hx) hp hs
  case orderAdmit => exact h.takenOrder (fun _ hx => h.admitSlot _ hx) hp hs
  case orderReadmit => exact h.takenOrder (fun _ hx => h.readmitSlot _ hx) hp hs
  case orderEvict => exact h.takenOrder (fun _ hx => h.evictSlot _ hx) hp hs
  case orderForceOff => exact h.takenOrder (fun _ hx => h.forceOffSlot _ hx) hp hs
  case orderRenegotiate => exact h.takenOrder (fun _ hx => h.renegotiateSlot _ hx) hp hs
  case orderCap => exact h.takenOrder (fun _ hx => h.capSlot _ hx) hp hs
  case orderUncap => exact h.takenOrder (fun _ hx => h.uncapSlot _ hx) hp hs
  case orderRetrySupply => exact h.takenOrder (fun _ hx => h.retrySupply _ hx) hp hs
  case orderCommitCurve => exact h.takenOrder (fun _ hx => h.toFanKeeps.commitCurve _ hx) hp hs
  case orderPin => exact h.takenOrder (fun _ hx => h.toFanKeeps.pinFan _ _ hx) hp hs
  case orderUnpin => exact h.takenOrder (fun _ hx => h.toFanKeeps.unpinFan _ hx) hp hs
  case orderRetryFan => exact h.takenOrder (fun _ hx => h.toFanKeeps.retryFan _ hx) hp hs
  case orderPass => exact h.takenOrder (fun _ hx => h.toHubKeeps.passChannel _ hx) hp hs
  case orderHold => exact h.takenOrder (fun _ hx => h.toHubKeeps.holdChannel _ hx) hp hs
  case orderBar => exact h.takenOrder (fun _ hx => h.toHubKeeps.barChannel _ hx) hp hs
  case orderFlush => exact h.takenOrder (fun _ hx => h.toHubKeeps.flushChannel _ hx) hp hs
  case orderEnable => exact h.takenOrder (fun _ hx => h.toHubKeeps.changeUplink _ _ hx) hp hs
  case orderDisable => exact h.takenOrder (fun _ hx => h.toHubKeeps.changeUplink _ _ hx) hp hs
  case orderRestart => exact h.takenOrder (owner := restartOrder) (fun c hx => h.port { c.port with restartWaiting := true } c hx) hp hs

end ChipKeeps

end Sys2Proof.Machine
end

