-- ==== Sys2Proof/Laws/Keys.lean ====
section
/-!
SUPPORT. What step 4 of Table 67 makes of a key: one that names a record is not refused, and the module read request in
flight.
-/

namespace Sys2Proof.Machine

/-- A key that names a record of its table is not refused. -/
theorem Chip.keyRefusal_of_keyNames {c : Chip} {table : TableId} {key : Key} (h : c.keyNames table key = true) :
    c.keyRefusal (BitVec.ofNat 8 (tableCode table)) key = none := by
  cases key with
  | alert _ => rfl
  | noKey => rfl
  | inv q =>
    cases q <;> first | rfl | (simp only [Chip.keyNames] at h; simp only [Chip.keyRefusal]; split at h <;> simp_all)
  | record n =>
    cases table <;> try rfl
    simp only [Chip.keyNames, ne_eq, not_true_eq_false, decide_false, Bool.false_or, List.any_eq_true, Bool.and_eq_true,
      decide_eq_true_eq] at h
    obtain ⟨i, -, rfl, hi⟩ := h
    cases hc : c.channel i <;> simp_all [Chip.keyRefusal, keyBelow]

/-- A verb its table does not accept is refused with STATE when the key names a record. -/
theorem Chip.verbRefusal_of_keyNames {c : Chip} {table : TableId} {key : Key} (h : c.keyNames table key = true) :
    c.verbRefusal table key = Status.alone .state := by
  simp [Chip.verbRefusal, Chip.keyRefusal_of_keyNames h]

/-- The request in flight is that of the bay being read, at either attempt. -/
@[simp] theorem ModuleLink.sentRequest_reading {m : ModuleLink} {bay : Bay} {second : Bool}
    (h : m.reading = some (bay, second)) : m.sentRequest = some (Bay.readRequest bay) := by
  simp [ModuleLink.sentRequest, h]

/-- With no bay being read no request is in flight. -/
@[simp] theorem ModuleLink.sentRequest_none {m : ModuleLink} (h : m.reading = none) : m.sentRequest = none := by
  simp [ModuleLink.sentRequest, h]

end Sys2Proof.Machine
end

