-- ==== Sys2Proof/Tests/Slice0.lean ====
section
/-!
SUPPORT. The smoke test of the well-formedness checks, a state for the hypotheses of every statement, and decoding and
commands on small states.
-/

set_option maxRecDepth 8000

namespace Sys2Proof.Tests

open Sys2Proof.Machine

/-! ## Ill-formed commands, one for each check -/

theorem test_cap_limit_above_a_draw : (Instr.capRequest 0 2001).wellFormed = false := by decide
theorem test_uncap_limit_above_a_draw : (Instr.uncapRequest 0 2001).wellFormed = false := by decide
theorem test_grant_of_nothing : (Instr.grantRequest 0 0 .full).wellFormed = false := by decide
theorem test_grant_above_a_draw : (Instr.grantRequest 0 2001 .full).wellFormed = false := by decide
theorem test_grant_at_level_none : (Instr.grantRequest 0 500 .none).wellFormed = false := by decide
theorem test_match_of_three : (Instr.matchHandoff 0 [1, 2, 3]).wellFormed = false := by decide
theorem test_match_twice : (Instr.matchHandoff 0 [1, 1]).wellFormed = false := by decide
theorem test_uplink_tag_of_13_bits : (Instr.uplinkFrameCompletion 0 ⟨64, 4096, true⟩).wellFormed = false := by decide
theorem test_lane_tag_of_13_bits : (Instr.laneFrameCompletion 0 ⟨64, 4096, true⟩).wellFormed = false := by decide
theorem test_known_port_command : (Instr.unknownPortCommand 3).wellFormed = false := by decide
theorem test_accepted_verb : (Instr.unacceptedVerb .retire .channel (.record 2)).wellFormed = false := by decide
theorem test_verb_that_cannot_reach : (Instr.unacceptedVerb .order .zone (.record 2)).wellFormed = false := by decide
theorem test_amend_of_alerts_cannot_reach : (Instr.unacceptedVerb .amend .alert (.alert .index)).wellFormed = false := by decide
theorem test_define_with_a_handle : (Instr.unacceptedVerb .define .inventory (.inv (.handle 4 0))).wellFormed = false := by decide
theorem test_key_of_no_slot : (Instr.unacceptedVerb .retire .slot (.record 16)).wellFormed = false := by decide
theorem test_serial_key_too_long : (Instr.fetchInventory (.serial .fan (List.replicate 256 65))).wellFormed = false := by
  decide
theorem test_retire_serial_key_too_long :
    (Instr.retireInventory (.serial .fan (List.replicate 256 65))).wellFormed = false := by decide
theorem test_amend_inventory_serial_key_too_long :
    (Instr.amendInventory (.serial .fan (List.replicate 256 65)) [{ field := 14, value := none }]).wellFormed = false := by
  decide
theorem test_amend_of_no_field : (Instr.amendSlot 0 []).wellFormed = false := by decide
theorem test_amend_field_twice :
    (Instr.amendSlot 0 [{ field := 10, value := none }, { field := 10, value := none }]).wellFormed = false := by decide
theorem test_amend_inventory_item_too_long :
    (Instr.amendInventory .epoch [{ field := 14, value := some (List.replicate 255 65) }]).wellFormed = false := by decide
theorem test_amend_inventory_of_no_field : (Instr.amendInventory .epoch []).wellFormed = false := by decide
theorem test_amend_zone_short_curve : (Instr.amendZone 0 [{ field := 2, value := some [1, 2, 3] }]).wellFormed = false := by
  decide
theorem test_amend_channel_wide_flag : (Instr.amendChannel 0 [{ field := 7, value := some [0, 1] }]).wellFormed = false := by
  decide
theorem test_amend_settings_of_no_field : (Instr.amendSettings []).wellFormed = false := by decide
theorem test_define_without_a_field : (Instr.defineChannel [{ field := 2, value := some [1] }]).wellFormed = false := by decide
theorem test_ack_of_a_cause_of_another_kind : (Instr.ack (.zone 0) 2).wellFormed = false := by decide
theorem test_pin_of_two_bytes : (Instr.orderPin 0 256).wellFormed = false := by decide

/-! ## Small states -/

/-- The part after reset with a change made to it. -/
def built (f : Chip → Chip) : State := { pending := [], chip := f State.reset.chip }

/-- Slot 3 with some fields written. -/
def slotWith (f : Slot → Slot) : State := built (modSlot 3 f)

/-- Slot 3 in a state. -/
def slotIn (x : SlotState) : State := slotWith fun s => { s with state := x }

/-- Slot 3 in a state, its engine with some fields written. -/
def linkIn (x : SlotState) (f : Engine → Engine) : State := built fun c => modEngine 3 f (modSlot 3 (fun s => { s with state := x }) c)

/-- Slot 3 in a state with an exchange in flight. -/
def exchangeIn (x : SlotState) (p : PageRequest) (second : Bool) : State :=
  linkIn x fun e => { e with inFlight := some { request := p, toggle := false, second := second } }

/-- Fan 2 with some fields written. -/
def fanWith (f : Fan → Fan) : State := built (modFan 2 f)

/-- Supply 1 with some fields written. -/
def supplyWith (f : Supply → Supply) : State := built (modSupply 1 f)

/-- A message with the check byte it needs. -/
def checked (m : List Byte) : List Byte := m ++ [checkByte m]

/-- A channel of slot 3 with the window 100 to 120 and 20 cells. -/
def someChannel : Channel :=
  { slot := 3, base := 100, limit := 120, preferred := 0, fallback := true, autoPass := true, maxFrame := 1024,
    firstCell := 24, cellCount := 20, state := .hold, holdCause := some .host, granted := true, active := 0,
    counters := .zero, down := [], up := [], detachedDown := none, detachedUp := none }

/-- Channel 5 with some fields written, slot 3 in a state, and uplink 0 with a line that is up or not. -/
def channelIn (x : SlotState) (link : Bool) (f : Channel → Channel) : State :=
  built fun c => c |> modSlot 3 (fun s => { s with state := x }) |> setChannel 5 (some (f someChannel))
    |> modUplink 0 (fun r => { r with link := link })

/-- The states of a slot. -/
def slotStates : List SlotState :=
  [.empty, .seated, .interrogating, .negotiating, .awaitingAdmit, .awaitingGrant, .powering, .starting, .running, .draining,
   .poweringDown, .held, .adopting]

/-! ## States that meet the hypotheses of the statements, clause by clause -/

theorem test_hyps_StepWithEmptyQueue :
    (built (post (.closeOrder 3))).chip.messages = .closeOrder 3 :: [] ∧ State.reset.pending = [] ∧
    (built (modPort fun p => { p with request := some .fetchPower })).chip.port.request = some .fetchPower ∧
    State.reset.chip.messages = [] ∧ State.reset.chip.port.request = none := by decide

theorem test_hyps_InputEdgesStartDebounce : State.reset.chip.quiescent := by decide

theorem test_hyps_DebounceExpiryWritesField :
    State.reset.chip.quiescent ∧ (State.reset.chip.slot 3).early.timer = true ∧
    (State.reset.chip.slot 3).late.timer = true ∧ (State.reset.chip.slot 3).latch.timer = true ∧
    (State.reset.chip.slot 3).early.pin = (State.reset.chip.slot 3).early.field := by decide

/-- Slot 3 EMPTY, the contact that came first PRESENT, the other one about to be. -/
def contactsIn (latch : Bool) (first : Contact) : State :=
  slotWith fun s => { s with
    latch := ⟨latch, latch, false⟩
    early := if first = .early then ⟨true, true, false⟩ else ⟨true, false, true⟩
    late := if first = .early then ⟨true, false, true⟩ else ⟨true, true, false⟩ }

theorem test_hyps_ContactsMadeBeginAdmission :
    ∀ latch,
      (let r := (contactsIn latch .early).chip.slot 3
       r.state = .empty ∧ r.late.timer = true ∧ r.late.pin = true ∧ r.late.field = false ∧ r.early.field = true ∧
       r.latch.field = latch) := by decide

theorem test_hyps_ContactsMadeBeginAdmission_late :
    (let r := (contactsIn true .late).chip.slot 3
     r.state = .empty ∧ r.early.timer = true ∧ r.early.pin = true ∧ r.early.field = false ∧ r.late.field = true) ∧
    ((contactsIn true .early).chip.engine 3).inFlight = none ∧ ((contactsIn true .early).chip.engine 3).quiet = false := by decide

theorem test_hyps_ContactLossEmptiesSlot :
    ∀ x ∈ [SlotState.seated, .running, .held, .poweringDown],
      (let r := (slotWith fun s => { s with state := x, early := ⟨false, true, true⟩, late := ⟨false, true, true⟩ }).chip.slot 3
       r.state ≠ .empty ∧ r.early.timer = true ∧ r.early.pin = false ∧ r.early.field = true ∧ r.late.timer = true ∧
       r.late.pin = false ∧ r.late.field = true) := by decide

theorem test_hyps_ContactLossEmptiesSlot_grants_and_handles :
    (∀ x ∈ [SlotState.awaitingGrant, .running, .poweringDown], x.holdsGrant = true) ∧
    ((slotWith fun s => { s with handle := some { handle := 4, generation := 0 } }).chip.slot 3).handle.isSome = true ∧
    (State.reset.chip.slot 3).handle = none := by decide

theorem test_hyps_LatchChangeByState :
    ∀ x ∈ slotStates, ∀ closed : Bool,
      (let r := (slotWith fun s => { s with state := x, latch := ⟨closed, !closed, true⟩ }).chip.slot 3
       r.state = x ∧ r.latch.timer = true ∧ r.latch.pin = closed ∧ r.latch.field = !closed) := by decide

theorem test_hyps_PowerGoodByState :
    ∀ x ∈ slotStates, ∀ level : Bool, ((slotWith fun s => { s with state := x, powerGood := !level }).chip.slot 3).state = x ∧
      ((slotWith fun s => { s with state := x, powerGood := !level }).chip.slot 3).powerGood = !level := by decide

/-- Slot 3 in a state with every slot timer running. -/
def timersIn (x : SlotState) (powerGood : Bool) : State :=
  slotWith fun s => { s with
    state := x, powerGood := powerGood, drainCause := some .evict,
    powerUpDelay := some 200, resetHold := some 100, pollTimer := some 1000, drainTimer := some 30, powerDownTimer := some 500 }

theorem test_hyps_SlotTimersMoveSlot :
    (∀ good, ((timersIn .powering good).chip.slot 3).powerUpDelay.isSome = true ∧
      ((timersIn .powering good).chip.slot 3).state = .powering ∧ ((timersIn .powering good).chip.slot 3).powerGood = good) ∧
    ({ timersIn .powering false with pending := [.pwrGoodChange 3 true] } : State).pending.head? =
      some (.pwrGoodChange 3 true) ∧ (timersIn .powering false).pending.head? ≠ some (.pwrGoodChange 3 true) ∧
    ((timersIn .starting true).chip.slot 3).resetHold.isSome = true ∧ ((timersIn .starting true).chip.slot 3).state = .starting ∧
    ((timersIn .draining true).chip.slot 3).drainTimer.isSome = true ∧
    ((timersIn .draining true).chip.slot 3).drainCause = some .evict ∧
    ((timersIn .draining true).chip.slot 3).powerGood = true ∧
    ((timersIn .poweringDown true).chip.slot 3).powerDownTimer.isSome = true ∧
    ((timersIn .poweringDown true).chip.slot 3).state = .poweringDown := by decide

theorem test_hyps_PollTimerExpiryAsksPoll :
    ∀ x ∈ [SlotState.running, .draining], (timersIn x true).chip.quiescent ∧ ((timersIn x true).chip.slot 3).state.isCounted ∧
      ((timersIn x true).chip.slot 3).pollTimer.isSome = true ∧ ((timersIn x true).chip.engine 3).free ∧
      ((exchangeIn x .shutdown false).chip.engine 3).inFlight.isSome = true := by decide

theorem test_hyps_CloseOrdersAndDrainRequests :
    ∀ good, (let c := (built fun c => modGrant 3 (fun g => { g with stage := .closing })
        (modSlot 3 (fun s => { s with state := .awaitingGrant, powerGood := good }) c)).chip
      (c.slot 3).state = .awaitingGrant ∧ (c.grant 3).stage = .closing ∧ (c.slot 3).powerGood = good) := by decide

theorem test_hyps_NothingRunningNothingTaken :
    State.reset.chip.quiescent ∧ (State.reset.chip.slot 3).drainTimer = none ∧ (State.reset.chip.engine 3).inFlight = none ∧
    (State.reset.chip.engine 3).quiet = false ∧ (State.reset.chip.lane 3).sending = none ∧
    State.reset.chip.modules.reading = none ∧ State.reset.chip.modules.quiet = false ∧
    (State.reset.chip.supply 1).startDelay = false ∧ (State.reset.chip.fan 2).window ≠ .settle ∧
    (State.reset.chip.fan 2).window ≠ .count ∧ (State.reset.chip.fan 2).releaseTimer = false ∧
    (State.reset.chip.zone 1).graceTimer = false ∧ (State.reset.chip.uplink 0).receiving = false ∧
    (State.reset.chip.uplink 0).sending = none ∧
    ((slotWith fun s => { s with early := ⟨true, true, false⟩ }).chip.slot 3).early.timer = false := by decide

theorem test_hyps_ListRequestsAreTaken :
    (let c := (exchangeIn .running .poll false).chip
     c.quiescent ∧ (c.slot 3).state.keepsListEmpty = false ∧ (c.engine 3).inFlight.isSome = true) ∧
    (slotIn .running).chip.quiescent ∧ ((slotIn .running).chip.slot 3).state.keepsListEmpty = false ∧
    ((slotIn .running).chip.engine 3).free ∧
    (∀ x ∈ [SlotState.empty, .seated, .held, .poweringDown], (slotIn x).chip.quiescent ∧ ((slotIn x).chip.slot 3).state = x) := by
  decide

theorem test_hyps_TimeoutsAndQuietPeriod :
    (∀ p ∈ [PageRequest.cap 300, .uncap 300, .shutdown, .poll], ∀ second,
      (exchangeIn .running p second).chip.quiescent ∧
      ((exchangeIn .running p second).chip.engine 3).inFlight = some { request := p, toggle := false, second := second }) ∧
    byteSum [1] ≠ 0 ∧
    (let c := (linkIn .running fun e => { e with quiet := true }).chip
     c.quiescent ∧ (c.engine 3).quiet = true ∧ ({ c.engine 3 with quiet := false } : Engine).free) := by decide

/-- The link of slot 3 in a state and a phase, a page at attempt 2. -/
def secondIn (x : SlotState) (phase : Phase) (p : PageRequest) (cause : Option DrainCause) : State :=
  built fun _ => modSlot 3 (fun s => { s with adoptCause := cause })
    (linkIn x fun e => { e with phase := phase, inFlight := some { request := p, toggle := false, second := true } }).chip

theorem test_hyps_TimeoutsAndQuietPeriod_second :
    ∀ x ∈ [(SlotState.interrogating, Phase.interrogation, PageRequest.interrogate), (.interrogating, .interrogation, .next),
        (.adopting, .interrogation, .interrogate), (.negotiating, .negotiation, .negotiate), (.negotiating, .negotiation, .next),
        (.running, .renegotiation, .negotiate), (.running, .idle, .grant 500 .full), (.running, .idle, .channelGrant 100 120)],
      ∀ cause ∈ [none, some DrainCause.evict],
        (let c := (secondIn x.1 x.2.1 x.2.2 cause).chip
         c.quiescent ∧ (c.slot 3).state = x.1 ∧ (c.slot 3).adoptCause = cause ∧ (c.engine 3).phase = x.2.1 ∧
         (c.engine 3).inFlight = some { request := x.2.2, toggle := false, second := true }) := by decide

theorem test_hyps_TimeoutsAndQuietPeriod_quietEnd :
    (∀ phase ∈ [Phase.interrogation, .negotiation, .renegotiation], ∀ n ∈ [0, 1],
      (let c := (linkIn .running fun e => { e with quiet := true, phase := phase, responses := n }).chip
       c.quiescent ∧ (c.engine 3).quiet = true ∧ (c.engine 3).inFlight = none ∧ (c.engine 3).phase = phase ∧
       (c.engine 3).responses = n)) ∧
    ∀ l ∈ [{ PendingList.empty with shutdown := true }, { PendingList.empty with cap := some 300 },
        { PendingList.empty with uncap := some 300 }, { PendingList.empty with grant := some (500, .full) },
        { PendingList.empty with poll := true }], ∀ asked : Bool,
      (let c := (linkIn .running fun e => { e with quiet := true, list := l, renegRequest := asked }).chip
       c.quiescent ∧ (c.engine 3).quiet = true ∧ (c.engine 3).inFlight = none ∧ (c.engine 3).phase = .idle ∧
       (c.engine 3).settlement = none ∧ (c.engine 3).renegRequest = asked ∧ (c.engine 3).list = l) := by decide

/-- An ACK_PAGE with some flags. -/
def ackPageWith (flags : Byte) : List Byte := checked [19, flags, 0]

theorem test_hyps_AckPageIsJudged :
    ∀ flags ∈ [(4 : Byte), 20, 36, 0], byteSum (ackPageWith flags) = 0 ∧ (readPage (ackPageWith flags)).kind = 19 ∧
      (readPage (ackPageWith flags)).payload = [] ∧
      ((exchangeIn .running (.cap 300) false).chip.engine 3).inFlight =
        some { request := .cap 300, toggle := false, second := false } := by decide

theorem test_hyps_AckPageIsJudged_settlement :
    ∀ p ∈ [PageRequest.grant 500 .full, .channelGrant 100 120], ∀ next ∈ [0, 1],
      (let c := setChannel 5 (some someChannel) (linkIn .running fun e => { e with
          settlement := some { channels := [5], next := next },
          inFlight := some { request := p, toggle := false, second := false } }).chip
       let e := c.engine 3
       e.inFlight = some { request := p, toggle := false, second := false } ∧
       e.settlement = some { channels := [5], next := next } ∧ e.phase = .idle ∧ e.quiet = false ∧ e.list = .empty ∧
       e.renegRequest = false ∧ c.channel 5 = some someChannel ∧ someChannel.granted = true ∧ someChannel.slot = 3 ∧
       ([5] : List (Fin 32)).drop next = (if next = 0 then [5] else [])) := by decide

theorem test_hyps_StatusPageUpdatesSlot :
    byteSum [20, 0, 4, 127, 15, 255, 1, 90] = 0 ∧ byteSum [20, 0, 4, 0, 0, 0, 0, 232] = 0 ∧
    ((exchangeIn .running .poll false).chip.slot 3).state = .running ∧
    ((exchangeIn .running .poll false).chip.engine 3).inFlight = some { request := .poll, toggle := false, second := false } := by
  decide

theorem test_hyps_StatusPageUpdatesSlot_draining :
    (let c := modEngine 3 (fun e => { e with inFlight := some { request := .poll, toggle := false, second := false } })
        (timersIn .draining true).chip
     (c.slot 3).state = .draining ∧ (c.slot 3).drainCause = some .evict ∧ (c.slot 3).powerGood = true ∧
     (c.engine 3).inFlight = some { request := .poll, toggle := false, second := false }) := by decide

theorem test_hyps_OverdrawIsCounted :
    ∀ x ∈ [SlotState.running, .draining], ((exchangeIn x .poll true).chip.slot 3).state.isCounted = true ∧
      ((exchangeIn x .poll true).chip.engine 3).inFlight = some { request := .poll, toggle := false, second := true } ∧
      byteSum [20, 0, 4, 40, 1, 144, 0, 47] = 0 := by decide

/-- Draws of 400 W, 440 W and 441 W against a grant of 400 W: the three rows of R52. -/
theorem test_rows_OverdrawIsCounted : 400 ≤ 400 ∧ (400 < 440 ∧ 440 * 10 ≤ 400 * 11) ∧ 400 * 11 < 441 * 10 := by decide

/-- An ACK_PAGE, and a STATUS page of no values. -/
theorem test_hyps_OverdrawIsCounted_pages :
    (byteSum (ackPageWith 4) = 0 ∧ (readPage (ackPageWith 4)).kind ≠ 20) ∧
    (byteSum (checked [20, 0, 0]) = 0 ∧ (readPage (checked [20, 0, 0])).kind = 20 ∧
      (readPage (checked [20, 0, 0])).payload.length ≠ 4) := by decide

/-- An IDENTITY page of one part with a serial of twelve characters. -/
def identityPage : List Byte := checked ([16, 0, 18, 1, 2, 3, 4, 5, 12] ++ List.replicate 12 66)

theorem test_hyps_IdentityCreatesRecordAndNegotiates :
    (let c := (linkIn .interrogating fun e => { e with
        inFlight := some { request := .interrogate, toggle := false, second := false }, draft := some .fresh }).chip
     (c.slot 3).state = .interrogating ∧ (c.engine 3).draft = some .fresh ∧ (c.engine 3).quiet = false ∧
     c.bySerial .blade (List.replicate 12 66) = none ∧ c.freeHandle = some 0 ∧ c.boundAt (.slot 3) = none) ∧
    byteSum identityPage = 0 ∧ (readPage identityPage).toggle = false ∧ (readPage identityPage).more = false ∧
    (readPage identityPage).identityFirst = some
      { vendor := 258, model := 772, revision := 5, serialLength := 12, chars := List.replicate 12 66 } ∧
    (List.replicate 12 (66 : Byte)).all printable = true := by decide

/-- An IDENTITY page of a vendor with the serial A. -/
def unitPage (vendor : Byte) : List Byte := checked [16, 0, 7, 0, vendor, 0, 9, 3, 1, 65]

/-- The identity of that unit, of vendor 7. -/
def unitIdentity : Identity :=
  { vendor := 7, model := 9, revision := 3, serial := [65], capacity := none, fanDraw := none, fanSpeed := none,
    fanPulses := none }

/-- Slot 3 in a state, interrogated, the unit recorded at handle 4 and some location. -/
def offeredIn (x : SlotState) (l : Location) (present : Bool) : State :=
  built fun _ => setInvHandle 4 { generation := 9, record := some { InvRecord.create l unitIdentity with present := present } }
    (modSlot 3 (fun s => { s with handle := some { handle := 4, generation := 9 } })
      (linkIn x fun e => { e with
        phase := .interrogation, draft := some .fresh,
        inFlight := some { request := .interrogate, toggle := false, second := false } }).chip)

theorem test_hyps_IdentityCreatesRecordAndNegotiates_known :
    (∀ vendor ∈ [(7 : Byte), 8], byteSum (unitPage vendor) = 0 ∧ (readPage (unitPage vendor)).toggle = false ∧
      (readPage (unitPage vendor)).more = false ∧ (readPage (unitPage vendor)).identityFirst = some
        { vendor := (0 : Byte) ++ vendor, model := 9, revision := 3, serialLength := 1, chars := [65] }) ∧
    ∀ x ∈ [SlotState.interrogating, .adopting],
      ∀ l ∈ [(Location.slot 3, true), (.slot 6, true), (.slot 6, false)],
        (let c := (offeredIn x l.1 l.2).chip
         (c.slot 3).state = x ∧ (c.slot 3).handle = some { handle := 4, generation := 9 } ∧
         (c.engine 3).inFlight = some { request := .interrogate, toggle := false, second := false } ∧
         (c.engine 3).draft = some .fresh ∧ c.bySerial .blade [65] = some 4 ∧
         (c.invHandle 4).record = some { InvRecord.create l.1 unitIdentity with present := l.2 } ∧
         (l.2 = false → c.boundAt (.slot 3) = none) ∧ (c.slot 3).adoptCause = none) := by decide

/-- Every handle in use by a unit of another serial. -/
def inventoryFull (c : Chip) : Chip :=
  { c with inventory := { c.inventory with handles := .fill 48 { generation := 0, record := some (.create (.slot 6)
    { unitIdentity with serial := [66] }) } } }

theorem test_hyps_IdentityCreatesRecordAndNegotiates_full :
    (let c := inventoryFull (offeredIn .interrogating (.slot 6) true).chip
     (c.slot 3).state = .interrogating ∧ c.bySerial .blade [65] = none ∧ c.freeHandle = none) := by decide

/-- The first page of a serial of thirteen or 24 characters, and the second. -/
def longPages (n : Nat) : List Byte × List Byte :=
  (checked ([16, 2, 18, 1, 2, 3, 4, 5, BitVec.ofNat 8 n] ++ List.replicate 12 66),
   checked ([16, 0, BitVec.ofNat 8 (n - 12)] ++ List.replicate (n - 12) 67))

theorem test_hyps_IdentityCreatesRecordAndNegotiates_twoPages :
    ∀ n ∈ [13, 24],
      byteSum (longPages n).1 = 0 ∧ (readPage (longPages n).1).toggle = false ∧ (readPage (longPages n).1).more = true ∧
      (readPage (longPages n).1).fault = .none ∧ (readPage (longPages n).1).identityFirst = some
        { vendor := 258, model := 772, revision := 5, serialLength := n, chars := List.replicate 12 66 } ∧
      byteSum (longPages n).2 = 0 ∧ (readPage (longPages n).2).kind = 16 ∧ (readPage (longPages n).2).more = false ∧
      (readPage (longPages n).2).toggle = false ∧ (readPage (longPages n).2).payload = List.replicate (n - 12) 67 ∧
      (List.replicate (n - 12) (67 : Byte)).all printable = true ∧
      (let c := (linkIn .interrogating fun e => { e with
          phase := .interrogation, draft := some (.identity 258 772 5 n (List.replicate 12 66)),
          inFlight := some { request := .next, toggle := false, second := false } }).chip
       (c.slot 3).state = .interrogating ∧ (c.engine 3).phase = .interrogation ∧
       (c.engine 3).draft = some (.identity 258 772 5 n (List.replicate 12 66)) ∧
       c.bySerial .blade (List.replicate 12 66 ++ List.replicate (n - 12) 67) = none ∧ c.freeHandle = some 0 ∧
       c.boundAt (.slot 3) = none) := by decide

/-- A BASE page without channel requests. -/
def basePage (run floor : Nat) : List Byte := checked ([17, 0, 6] ++ byte2 run ++ byte2 floor ++ [7, 0])

theorem test_hyps_BasePageResolves :
    (let c := (linkIn .negotiating fun e => { e with
        phase := .negotiation, draft := some .fresh,
        inFlight := some { request := .negotiate, toggle := false, second := false } }).chip
     (c.slot 3).state = .negotiating ∧ (c.engine 3).phase = .negotiation ∧ (c.engine 3).renegRequest = false ∧
     (c.engine 3).draft = some .fresh ∧ c.settings.slotCeiling = 900) ∧
    (∀ x ∈ [(900, 600), (900, 0), (600, 605), (905, 600), (5, 5), (2000, 0)],
      byteSum (basePage x.1 x.2) = 0 ∧ (readPage (basePage x.1 x.2)).base = some (x.1, x.2, 7, 0) ∧
      (readPage (basePage x.1 x.2)).toggle = false ∧ (readPage (basePage x.1 x.2)).more = false ∧
      (readPage (basePage x.1 x.2)).fault = .none ∧ 5 ≤ x.1 ∧ x.1 ≤ 2000 ∧ x.1 % 5 = 0) := by decide

/-- A BASE page with one or two channel requests to come. -/
def baseMorePage (count : Byte) : List Byte := checked ([17, 2, 6] ++ byte2 900 ++ byte2 600 ++ [7, count])

theorem test_hyps_BasePageResolves_more :
    (∀ n ∈ [(1 : Byte), 2], byteSum (baseMorePage n) = 0 ∧ (readPage (baseMorePage n)).base = some (900, 600, 7, n.toNat) ∧
      (readPage (baseMorePage n)).toggle = false ∧ (readPage (baseMorePage n)).more = true ∧
      (readPage (baseMorePage n)).fault = .none ∧ n.toNat ≤ 2) ∧
    ∀ phase ∈ [Phase.negotiation, .renegotiation],
      (let c := (linkIn .running fun e => { e with
          phase := phase, draft := some .fresh,
          inFlight := some { request := .negotiate, toggle := false, second := false } }).chip
       c.quiescent ∧ (c.engine 3).phase = phase ∧ (c.engine 3).draft = some .fresh ∧ (c.engine 3).quiet = false ∧
       (c.engine 3).responses < 7) := by decide

/-- Slot 3 NEGOTIATING with the last request to come, its channels 5 of 21 tags and 4 of 10 tags above it. -/
def requestsIn (requests : List Nat) : State :=
  built fun _ => setChannel 5 (some someChannel) (setChannel 4 (some { someChannel with base := 200, limit := 209 })
    (linkIn .negotiating fun e => { e with
      phase := .negotiation, draft := some (.terms 900 600 7 (requests.length + 1) requests),
      inFlight := some { request := .next, toggle := false, second := false } }).chip)

/-- A request of 21 tags fits channel 5 alone, one of 10 both, and one of 22 none. -/
theorem test_hyps_BasePageResolves_requests :
    (∀ n ∈ [1, 10, 21, 22, 256], byteSum (checked ([18, 0, 2] ++ byte2 n)) = 0 ∧
      (readPage (checked ([18, 0, 2] ++ byte2 n))).channelReq = some n ∧
      (readPage (checked ([18, 0, 2] ++ byte2 n))).more = false ∧ (readPage (checked ([18, 0, 2] ++ byte2 n))).toggle = false ∧
      (readPage (checked ([18, 0, 2] ++ byte2 n))).fault = .none) ∧
    ∀ l ∈ [[], [10], [21], [22]],
      (let c := (requestsIn l).chip
       (c.slot 3).state = .negotiating ∧ (c.engine 3).phase = .negotiation ∧
       (c.engine 3).draft = some (.terms 900 600 7 (l.length + 1) l) ∧ c.settings.slotCeiling = 900 ∧
       c.channel 5 = some someChannel ∧ c.channel 4 = some { someChannel with base := 200, limit := 209 } ∧
       (∀ h, h ≠ 5 → h ≠ 4 → c.channel h = none) ∧ someChannel.limit - someChannel.base + 1 = 21 ∧ 209 - 200 + 1 = 10 ∧
       someChannel.base < 200) := by decide

/-- Slot 3 RUNNING in a renegotiation, granted some draw, capped by the host or not. -/
def renegotiatedWith (grant : Nat) (host : Bool) : State :=
  built fun _ => modGrant 3 (fun g => { g with grant := grant, capSet := { CapSet.empty with host := host } })
    (linkIn .running fun e => { e with
      phase := .renegotiation, draft := some .fresh,
      inFlight := some { request := .negotiate, toggle := false, second := false } }).chip

/-- With no supply ONLINE the available draw is negative. -/
theorem test_hyps_BasePageResolves_renegotiation :
    ∀ grant ∈ [200, 300, 500], ∀ host : Bool,
      (let c := (renegotiatedWith grant host).chip
       c.quiescent ∧ (c.slot 3).state = .running ∧ (c.engine 3).phase = .renegotiation ∧
       (c.engine 3).draft = some .fresh ∧ c.power.queue = [] ∧ (c.grant 3).grant = grant ∧ (c.grant 3).capSet.host = host ∧
       (c.grant 3).capSet.thermal = false ∧ c.available < 0) := by decide

theorem test_hyps_MatchSetsGrants :
    (channelIn .running true fun ch => { ch with state := .pass, holdCause := none }).chip.channel 5 =
      some { someChannel with state := .pass, holdCause := none } ∧
    someChannel.slot = 3 ∧ someChannel.granted = true ∧ (5 : Fin 32) ∉ ([4, 6] : List (Fin 32)) ∧
    (channelIn .running true id).chip.channel 4 = none := by decide

/-- Slot 3 in a state, with terms of 500 W and 300 W and some grant fields written. -/
def grantIn (x : SlotState) (f : GrantRecord → GrantRecord) : State :=
  built fun c => modGrant 3 f (modSlot 3 (fun s => { s with
    state := x, terms := some { runDraw := 500, floorDraw := 300, priority := 2, requests := [], short := false } }) c)

/-- Slot 3 STARTING at level FLOOR for want of budget, a fan of its zone turning, and a supply of some capacity. -/
def startingAtFloor (capacity : Nat) : State :=
  built fun _ => (grantIn .starting fun g => { g with grant := 300, level := .floor, capSet := .onlyBudget }).chip
    |> modSlot 3 (fun s => { s with resetHold := some 100 }) |> modFan 0 (fun r => { r with state := .pinned })
    |> modSupply 1 (fun p => { p with state := .online, capacity := capacity })
    |> (fun c => setSettings { c.settings with policy := .none, baseDraw := 0 } c)

/-- A need of 200 W with 199 W and with 200 W to spare. -/
theorem test_hyps_SlotTimersMoveSlot_uplift :
    ∀ spare ∈ [199, 200],
      (let c := (startingAtFloor (300 + spare)).chip
       (c.slot 3).state = .starting ∧ (c.slot 3).resetHold.isSome = true ∧ (c.grant 3).level = .floor ∧
       (c.grant 3).capSet = { CapSet.empty with budget := true } ∧ c.queueEntry 3 = none ∧ (c.zone (c.slotZone 3)).emergency = false ∧
       c.runDraw 3 - (c.grant 3).grant = 200 ∧ c.available = spare ∧ c.power.queue = [] ∧ c.power.shed = [] ∧
       ((resetHoldExpired 3 c).zone (c.slotZone 3)).emergency = false) := by decide

/-- Channel 5 asks for auto pass with its own uplink up, with only the other one up, and with none. -/
theorem test_hyps_SlotTimersMoveSlot_autoPass :
    ∀ own other : Bool,
      (let c := (built fun _ => (channelIn .starting own id).chip |> modUplink 1 (fun r => { r with link := other })).chip
       c.channel 5 = some someChannel ∧ someChannel.slot = 3 ∧ someChannel.granted = true ∧ someChannel.autoPass = true ∧
       someChannel.state = .hold ∧ someChannel.fallback = true ∧ (c.uplink someChannel.active).link = own ∧
       (c.uplink (otherUplink someChannel.active)).link = other ∧ (c.uplink 0).admin = true ∧ (c.uplink 1).admin = true) := by decide

theorem test_hyps_PowerUnitReportsAreTaken :
    (let c := (built fun c => modGrant 3 (fun g => { g with stage := .settling })
        (modSlot 3 (fun s => { s with state := .awaitingGrant }) (setSettings { c.settings with baseDraw := 0 } c))).chip
     c.quiescent ∧ (c.grant 3).stage = .settling ∧ c.overCommitted = false ∧ (c.slot 3).state = .awaitingGrant) ∧
    (slotIn .running).chip.quiescent ∧ ((slotIn .running).chip.grant 3).stage ≠ .settling ∧
    (let c := (grantIn .running fun g => { g with
        grant := 500, capRequest := some (.only .host), capSet := .only .host, uncapRequest := true }).chip
     c.quiescent ∧ c.queueEntry 3 = none ∧ (c.grant 3).capRequest = some (.only .host) ∧ (c.grant 3).capSet.host = true ∧
     0 < c.floorDraw 3 ∧ c.floorDraw 3 < (c.grant 3).grant ∧ c.floorDraw 3 < c.runDraw 3 ∧ (c.grant 3).uncapRequest = true) ∧
    (State.reset.chip.grant 3).capRequest = none ∧ (State.reset.chip.grant 3).uncapRequest = false := by decide

/-- With no supply the part is over-committed by its base draw, whatever slot 3 holds. -/
theorem test_hyps_PowerUnitReportsAreTaken_requeue :
    (let s := built fun c => modGrant 3 (fun g => { g with stage := .settling, grant := 500 })
        (modSlot 3 (fun s => { s with state := .awaitingGrant }) c)
     s.chip.quiescent ∧ (s.chip.grant 3).stage = .settling ∧ (s.chip.slot 3).state = .awaitingGrant ∧
     (s.chip.slot 3).switchClosed = false ∧ s.chip.overCommitted = true ∧
     (setGrant 3 { GrantRecord.reset with stage := .queued } s.chip).overCommitted = true) := by decide

theorem test_hyps_PowerUnitReportsAreTaken_refused :
    (let c := (built fun c => modGrant 3 (fun g => { g with level := .full, capRequest := some (.only .host) })
        (setSettings { c.settings with baseDraw := 0 } c)).chip
     c.quiescent ∧ c.queueEntry 3 = none ∧ (c.grant 3).capRequest = some (.only .host) ∧ (c.grant 3).level ≠ .floor ∧
     c.overCommitted = false ∧ c.power.shed = []) := by decide

/-- A CAP that carries THERMAL alone. -/
theorem test_hyps_PowerUnitReportsAreTaken_thermal :
    (let c := (grantIn .running fun g => { g with grant := 500, capRequest := some (.only .thermal), capSet := .only .thermal }).chip
     c.quiescent ∧ c.queueEntry 3 = none ∧ (c.grant 3).capRequest = some (.only .thermal) ∧ (c.grant 3).capSet.host = false ∧
     (c.grant 3).capSet.thermal = true ∧ 0 < c.floorDraw 3 ∧ c.floorDraw 3 < (c.grant 3).grant ∧ c.floorDraw 3 < c.runDraw 3) := by
  decide

/-- Slots 3 and 6 RUNNING and closed, slot 3 granted 500 W with a cap request, a shed list held. -/
def sheddingWith (l : List ShedEntry) : State :=
  built fun _ => setShed l (modSlot 6 (fun s => { s with state := .running, switchClosed := true })
    (modSlot 3 (fun s => { s with switchClosed := true })
      (grantIn .running fun g => { g with grant := 500, level := .full, capRequest := some .onlyBudget }).chip))

theorem test_hyps_PowerUnitReportsAreTaken_shedding :
    (let l : List ShedEntry := [⟨3, .cap, true⟩, ⟨6, .off, false⟩]
     let c := (sheddingWith l).chip
     c.quiescent ∧ (c.grant 3).capRequest = some .onlyBudget ∧ CapSet.onlyBudget.budget = true ∧
     (c.slot 3).switchClosed = true ∧ (c.slot 6).switchClosed = true ∧ (c.slot 6).state ≠ .draining ∧
     c.power.shed = l ∧ (c.grant 3).level = .full ∧ 0 < c.floorDraw 3 ∧ c.floorDraw 3 < (c.grant 3).grant ∧
     (setGrant 3 { c.grant 3 with grant := c.floorDraw 3 } c).overCommitted = true ∧
     (sheddingWith [⟨3, .cap, true⟩]).chip.power.shed = [⟨3, .cap, true⟩]) := by decide

/-- Bay 1 about to be debounced. -/
def bayWith (pin : Bool) (x : SupplyState) : State :=
  built fun c => modSupply 1 (fun p => { p with state := x })
    (setModules (c.modules.putBay (.supply 1) { pin := pin, field := !pin, timer := true }) c)

theorem test_hyps_SupplyArrivalAndRemoval :
    (let c := (bayWith true .absent).chip
     (c.modules.supplies.read 1).timer = true ∧ (c.modules.supplies.read 1).pin = true ∧
     (c.modules.supplies.read 1).field = false ∧ (c.supply 1).state = .absent ∧ c.modules.queue = [] ∧
     c.modules.reading = none ∧ c.modules.quiet = false) ∧
    (let c := (bayWith false .online).chip
     (c.modules.supplies.read 1).timer = true ∧ (c.modules.supplies.read 1).pin = false ∧
     (c.modules.supplies.read 1).field = true ∧ (c.supply 1).state ≠ .absent) := by decide

/-- Fan bay 2 about to be debounced. -/
def fanBayWith (pin : Bool) (x : FanState) : State :=
  built fun c => modFan 2 (fun r => { r with state := x })
    (setModules (c.modules.putBay (.fan 2) { pin := pin, field := !pin, timer := true }) c)

theorem test_hyps_SupplyArrivalAndRemoval_fan :
    (let c := (fanBayWith true .absent).chip
     (c.modules.fans.read 2).timer = true ∧ (c.modules.fans.read 2).pin = true ∧ (c.modules.fans.read 2).field = false ∧
     (c.fan 2).state = .absent ∧ c.modules.queue = [] ∧ c.modules.reading = none ∧ c.modules.quiet = false) ∧
    (let c := (fanBayWith false .pinned).chip
     (c.modules.fans.read 2).timer = true ∧ (c.modules.fans.read 2).pin = false ∧ (c.modules.fans.read 2).field = true ∧
     (c.fan 2).state ≠ .absent) := by decide

/-- The identity of a supply of 4000 W with a serial of one character. -/
def supplyMessage : List Byte := checked ([1, 0, 7, 0, 9, 3, 1, 65] ++ List.replicate 23 0 ++ byte2 4000)

/-- Supply 1 being read, its unit already bound to the bay at handle 4. -/
def supplyBeingRead : State :=
  built fun c => c |> modSupply 1 (fun p => { p with state := .identifying })
    |> setModules { c.modules with reading := some (.supply 1, false) }
    |> setInvHandle 4 { generation := 0, record := some (.create (.supply 1)
        { vendor := 7, model := 9, revision := 3, serial := [65], capacity := some 4000, fanDraw := none, fanSpeed := none,
          fanPulses := none }) }

theorem test_hyps_SupplyIdentityStartsSupply :
    (let c := supplyBeingRead.chip
     c.modules.reading = some (.supply 1, false) ∧ c.modules.quiet = false ∧ c.modules.queue = [] ∧
     (c.supply 1).state = .identifying ∧ c.bySerial .supply [65] = some 4 ∧ (c.invHandle 4).record.isSome ∧
     (c.invHandle 4).record.all fun r => decide (r.present = true ∧ r.location = .supply 1)) ∧
    byteSum supplyMessage = 0 ∧ supplyMessage.length = 34 ∧
    (readModule (.supply 1) supplyMessage).accepted (.supply 1) (numberAt supplyMessage 6 1) = true ∧
    (readModule (.supply 1) supplyMessage).identity.serial = [65] := by decide

/-- The identity of a fan of 60 W and 16000 rpm, two pulses a turn, with a serial of one character. -/
def fanMessage : List Byte := checked ([2, 0, 7, 0, 9, 3, 1, 65] ++ List.replicate 23 0 ++ byte2 60 ++ byte2 16000 ++ [2])

/-- Fan 2 being read in an attempt. -/
def fanBeingRead (second : Bool) : State :=
  built fun c => modFan 2 (fun r => { r with state := .identifying })
    (setModules { c.modules with reading := some (.fan 2, second) } c)

theorem test_hyps_SupplyIdentityStartsSupply_fan :
    byteSum fanMessage = 0 ∧ fanMessage.length = 37 ∧
    (readModule (.fan 2) fanMessage).accepted (.fan 2) (numberAt fanMessage 6 1) = true ∧
    (let c := setInvHandle 4 { generation := 0, record := some (.create (.fan 2)
        { vendor := 7, model := 9, revision := 3, serial := [65], capacity := none, fanDraw := some 60,
          fanSpeed := some 16000, fanPulses := some 2 }) } (fanBeingRead false).chip
     c.modules.reading = some (.fan 2, false) ∧ c.modules.quiet = false ∧ c.modules.queue = [] ∧
     (c.fan 2).state = .identifying ∧ c.bySerial .fan (readModule (.fan 2) fanMessage).identity.serial = some 4 ∧
     (c.invHandle 4).record.any fun r => decide (r.present = true ∧ r.location = .fan 2)) := by decide

theorem test_hyps_SupplyIdentityStartsSupply_unknown :
    (let c := (fanBeingRead false).chip
     c.bySerial .fan [65] = none ∧ c.freeHandle = some 0 ∧ c.boundAt (.fan 2) = none ∧
     fanMessage.length = Bay.responseLength (.fan 2)) ∧
    (let c := (built fun c => modSupply 1 (fun p => { p with state := .identifying })
        (setModules { c.modules with reading := some (.supply 1, true) } c)).chip
     c.modules.reading = some (.supply 1, true) ∧ (c.supply 1).state = .identifying ∧ c.bySerial .supply [65] = none ∧
     c.freeHandle = some 0 ∧ c.boundAt (.supply 1) = none ∧ supplyMessage.length = Bay.responseLength (.supply 1)) := by decide

/-- Fan 2 being read, the unit of the read recorded at handle 4 and some location. -/
def fanKnownAt (l : Location) (present : Bool) : Chip :=
  setInvHandle 4 { generation := 9, record := some { InvRecord.create l
      { unitIdentity with fanDraw := some 60, fanSpeed := some 16000, fanPulses := some 2 } with present := present } }
    (fanBeingRead false).chip

theorem test_hyps_SupplyIdentityStartsSupply_known :
    (∀ l ∈ [(Location.fan 6, true), (.fan 6, false)],
      (let c := fanKnownAt l.1 l.2
       c.modules.reading = some (.fan 2, false) ∧ (c.fan 2).state = .identifying ∧
       c.bySerial .fan (readModule (.fan 2) fanMessage).identity.serial = some 4 ∧
       ((c.invHandle 4).record.any fun r => decide (r.present = l.2 ∧ r.location ≠ .fan 2)) ∧ c.boundAt (.fan 2) = none)) ∧
    (let c := inventoryFull supplyBeingRead.chip
     c.modules.reading = some (.supply 1, false) ∧ c.bySerial .supply [65] = none ∧ c.freeHandle = none) := by decide

theorem test_hyps_ModuleTimeoutsAndQuietEnd :
    supplyBeingRead.chip.quiescent ∧ supplyBeingRead.chip.modules.reading = some (.supply 1, false) ∧
    (let c := (built fun c => modSupply 1 (fun p => { p with state := .identifying })
        (setModules { c.modules with reading := some (.supply 1, true) } c)).chip
     c.quiescent ∧ c.modules.reading = some (.supply 1, true) ∧ (c.supply 1).state = .identifying) ∧
    (∀ l ∈ [[], [Bay.fan 2]],
      (let c := (built fun c => setModules { c.modules with quiet := true, queue := l } c).chip
       c.quiescent ∧ c.modules.quiet = true ∧ c.modules.reading = none ∧ c.modules.queue = l)) ∧
    (fanBeingRead true).chip.modules.reading = some (.fan 2, true) ∧ ((fanBeingRead true).chip.fan 2).state = .identifying := by
  decide

theorem test_hyps_SupplySignalsByState :
    (∀ x ∈ [SupplyState.absent, .identifying, .starting, .online, .failed], ∀ level : Bool,
      ((supplyWith fun p => { p with state := x, powerGood := !level }).chip.supply 1).state = x ∧
      ((supplyWith fun p => { p with state := x, powerGood := !level }).chip.supply 1).powerGood = !level) ∧
    ((supplyWith fun p => { p with state := .starting, startDelay := true }).chip.supply 1).startDelay = true := by decide

/-- Supply 1 of some capacity, alone and with no redundancy, no base draw, slot 3 granted nothing, and a grant queue. -/
def queueWith (capacity : Nat) (floorAdmission : Bool) (q : List QueueEntry) : State :=
  built fun c => c |> modSupply 1 (fun p => { p with state := .starting, capacity := capacity })
    |> setSettings { c.settings with policy := .none, baseDraw := 0, floorAdmission := floorAdmission }
    |> setQueue q
    |> modSlot 3 (fun s => { s with
      state := .awaitingGrant, terms := some { runDraw := 500, floorDraw := 300, priority := 2, requests := [], short := false } })

/-- The same part with the supply ONLINE. -/
def queueOnline (capacity : Nat) : Chip :=
  modSupply 1 (fun p => { p with powerGood := true, state := .online, startDelay := false }) (queueWith capacity true []).chip

theorem test_hyps_SupplySignalsByState_queue :
    (let s := queueWith 500 true [⟨3, .admission, 500, 2, false⟩]
     s.chip.quiescent ∧ (s.chip.supply 1).powerGood = false ∧ (s.chip.supply 1).state = .starting ∧ s.chip.power.shed = [] ∧
     s.chip.power.queue = [⟨3, .admission, 500, 2, false⟩] ∧ s.chip.settings.floorAdmission = true ∧
     (queueWith 500 false []).chip.settings.floorAdmission = false ∧ s.chip.floorDraw 3 = 300 ∧ s.chip.runDraw 3 = 500) ∧
    (∀ q ∈ [[⟨3, .uplift, 200, 2, false⟩], [⟨3, .admission, 500, 2, false⟩, ⟨6, .admission, 300, 1, false⟩]],
      (queueWith 800 true q).chip.quiescent ∧ (queueWith 800 true q).chip.power.queue = q) ∧
    (∀ n ∈ [800, 500, 499, 300, 299], (queueWith n true []).chip.budget < (queueOnline n).budget ∧
      (queueOnline n).available = (n : Int)) := by decide

/-- Slots 3 and 6 RUNNING and closed, of priorities 2 and 1, granted 500 W each over floors of 300 W, on one supply ONLINE. -/
def twoRunning (base : Nat) : State :=
  let run (priority : Nat) (s : Slot) : Slot := { s with
    state := .running, switchClosed := true,
    terms := some { runDraw := 500, floorDraw := 300, priority := priority, requests := [], short := false } }
  built fun c => c |> modSupply 1 (fun p => { p with state := .online, powerGood := true, capacity := 1000 })
    |> setSettings { c.settings with policy := .none, baseDraw := base }
    |> modSlot 3 (run 2) |> modSlot 6 (run 1)
    |> modGrant 3 (fun g => { g with grant := 500, level := .full })
    |> modGrant 6 (fun g => { g with grant := 500, level := .full })

/-- Supply 1 lost. -/
def lose (c : Chip) : Chip :=
  setSupply 1 { c.supply 1 with
    powerGood := false, state := .failed, failReason := some .lost, enable := false, startDelay := false } c

theorem test_hyps_SupplySignalsByState_lost :
    (let s := twoRunning 0
     s.chip.quiescent ∧ (s.chip.supply 1).powerGood = true ∧ (s.chip.supply 1).state = .online ∧ s.chip.power.shed = [] ∧
     s.chip.overCommitted = false ∧ (lose s.chip).overCommitted = true ∧
     (lose s.chip).projectionWalk none = [⟨6, .off, false⟩, ⟨3, .off, false⟩] ∧ (s.chip.grant 6).capRequest = none) := by decide

theorem test_hyps_SupplySignalsByState_exhausted :
    (let c := (built fun c => modSupply 1 (fun p => { p with state := .online, powerGood := true, capacity := 1000 })
        (setSettings { c.settings with policy := .none } c)).chip
     c.overCommitted = false ∧ (lose c).overCommitted = true ∧ (lose c).projectionWalk none = [] ∧ c.totalGrants = 0) := by decide

/-- Draws of 1000 W, 1200 W and 1400 W against 1000 W: the walk appends nothing, one CAP and two CAPs. -/
theorem test_hyps_SupplySignalsByState_walk :
    ∀ base ∈ [0, 200, 400],
      (let c := (twoRunning base).chip
       c.shedOrder = [6, 3] ∧ c.effectivePriority 6 = some 1 ∧ c.effectivePriority 3 = some 2 ∧ c.budget = 1000 ∧
       c.committed = base + 1000 ∧ (∀ k, (c.slot k).state ≠ .draining ∧ (c.slot k).state ≠ .poweringDown) ∧
       c.floorDraw 6 ≠ 0 ∧ c.floorDraw 3 ≠ 0 ∧
       (∀ k ∈ [(3 : Fin 16), 6], (c.slot k).state = .running ∧ (c.grant k).level = .full ∧ (c.slot k).switchClosed = true) ∧
       c.projectionWalk none = (if base = 0 then [] else if base = 200 then [⟨6, .cap, false⟩]
         else [⟨6, .cap, false⟩, ⟨3, .cap, false⟩])) := by decide

theorem test_hyps_FanPeriodsAndRelease :
    (let c := (fanWith fun r => { r with window := .settle }).chip
     c.quiescent ∧ (c.fan 2).window = .settle) ∧
    (let c := (fanWith fun r => { r with window := .count, state := .pinned, stallCount := 3, windowBand := 8 }).chip
     c.quiescent ∧ (c.fan 2).windowBand = 8 ∧ (c.fan 2).window = .count ∧ (c.fan 2).state = .pinned ∧ (c.fan 2).stallCount + 1 < 5) ∧
    (let c := (fanWith fun r => { r with state := .locked, releaseTimer := true, band := 20, reservedBand := 40 }).chip
     (c.fan 2).state = .locked ∧ (c.fan 2).releaseTimer = true) := by decide

/-- A BOOST fan of 15000 rpm in a window driven at band 63: 46 and 47 pulses are 13800 and 14100 rpm, 8 % and 6 % below. -/
theorem test_hyps_FanPeriodsAndRelease_boost :
    ∀ n ∈ [0, 9],
      (let c := (fanWith fun r => { r with
          window := .count, state := .boost, windowBand := 63, band := 63, target := 15000, pulses := 1, weakCount := n }).chip
       let r := c.fan 2
       r.window = .count ∧ r.state = .boost ∧ r.windowBand = 63 ∧ r.weakCount = n ∧
       (46 * 300 / r.pulses < r.target ∧ 6 * r.target < (r.target - 46 * 300 / r.pulses) * 100) ∧
       ¬ 6 * r.target < (r.target - 47 * 300 / r.pulses) * 100) := by decide

/-- Fan 2 in TRACKING at band 20 of 24 reserved, with two pulses a turn and a target of 3000 rpm. -/
def trackingAt (lock : Nat) : State :=
  fanWith fun r => { r with
    state := .tracking, window := .count, band := 20, windowBand := 20, reservedBand := 24, pulses := 2, target := 3000,
    maxSpeed := 16000, lockCount := lock }

/-- Pulses of 20, 19 and 21 in a window are 3000, 2850 and 3150 rpm: within 3 % of 3000 rpm, below and above. -/
theorem test_hyps_SamplesMoveBands :
    (∀ lock ∈ [0, 2, 3], (trackingAt lock).chip.quiescent ∧
      (let r := (trackingAt lock).chip.fan 2
       r.window = .count ∧ r.state = .tracking ∧ r.band < r.reservedBand ∧ r.band < 63 ∧ r.lockCount = lock ∧ 0 < r.band ∧
       r.windowBand = r.band ∧
       20 * 300 / r.pulses = r.target ∧ 3 * r.target < (r.target - 19 * 300 / r.pulses) * 100 ∧
       3 * r.target < (21 * 300 / r.pulses - r.target) * 100)) ∧
    (∀ i ∈ [0, 4], (let c := (fanWith fun r => { r with
        state := .calibrating, window := .count, search := some { index := i, partialResult := 0, trial := 2 ^ (5 - i) },
        pulses := 2, searchTarget := 3000, reservedBand := 63, band := 2 ^ (5 - i) }).chip
      c.quiescent ∧ (c.fan 2).window = .count ∧ (c.fan 2).state = .calibrating ∧
      (c.fan 2).search = some { index := i, partialResult := 0, trial := 2 ^ (5 - i) } ∧ i < 5)) ∧
    (let r := (fanWith fun r => { r with window := .count, windowBand := 8, stallCount := 4 }).chip.fan 2
     r.window = .count ∧ 8 ≤ r.windowBand ∧ r.stallCount = 4) := by decide

/-- Reserved bands at which a raise takes the next step. -/
theorem test_hyps_SamplesMoveBands_reserved :
    ∀ b ∈ [0, 24, 56],
      (let r := (fanWith fun r => { r with
          state := .tracking, window := .count, band := b, windowBand := b, reservedBand := b, pulses := 2, target := 3000 }).chip.fan 2
       r.window = .count ∧ r.state = .tracking ∧ r.band = r.reservedBand ∧ r.band < 63 ∧ r.windowBand = r.band ∧
       3 * r.target < (r.target - 19 * 300 / r.pulses) * 100) := by decide

theorem test_hyps_SamplesMoveBands_lastDecision :
    (let r := (fanWith fun r => { r with
        state := .calibrating, window := .count, search := some { index := 5, partialResult := 62, trial := 63 },
        pulses := 2, searchTarget := 3000 }).chip.fan 2
     r.window = .count ∧ r.state = .calibrating ∧ r.search = some { index := 5, partialResult := 62, trial := 63 } ∧
     20 * 300 / r.pulses ≤ r.searchTarget ∧ ¬ 21 * 300 / r.pulses ≤ r.searchTarget) := by decide

/-- A LOCKED fan of 3000 rpm: 20 pulses are 3000 rpm, 18 pulses 2700 rpm, 10 % below. -/
theorem test_hyps_SamplesMoveBands_locked :
    ∀ n ∈ [0, 2, 3],
      (let c := (fanWith fun r => { r with
          state := .locked, window := .count, windowBand := 62, pulses := 2, target := 3000, unlockCount := n }).chip
       let r := c.fan 2
       c.quiescent ∧ r.window = .count ∧ r.state = .locked ∧ r.windowBand < 63 ∧ r.unlockCount = n ∧
       20 * 300 / r.pulses = r.target ∧ 6 * r.target < (r.target - 18 * 300 / r.pulses) * 100) := by decide

/-- Zone 0 in a grace period, slot 3 RUNNING. -/
def graceIn (n : Nat) (cause : EmergencyCause) : State :=
  built fun c => c |> modZone 0 (fun r => { r with grace := some n, graceTimer := true, cause := some cause })
    |> modSlot 3 (fun s => { s with state := .running })

theorem test_hyps_GraceRunsOut :
    (graceIn 2 .fans).chip.quiescent ∧ ((graceIn 2 .fans).chip.zone 0).grace = some (0 + 2) ∧
    ((graceIn 2 .fans).chip.zone 0).graceTimer = true ∧ (graceIn 1 .fans).chip.slotZone 3 = 0 ∧
    ((graceIn 1 .fans).chip.slot 3).state = .running ∧ ((graceIn 1 .fans).chip.zone 0).cause = some .fans ∧
    (graceIn 1 .fans).chip.fans.drainSent.read 3 = false ∧ ¬ (graceIn 1 .fans).chip.slotZone 4 = 0 := by decide

/-- Zone 1 with a demand, in an emergency or not, fan 2 in a state, its neighbour fan 3 ABSENT. -/
def zoneWith (emergency : Bool) (demand : Option Nat) (x : FanState) : Chip :=
  modZone 1 (fun r => { r with emergency := emergency, demand := demand })
    (modFan 2 (fun r => { r with state := x }) State.reset.chip)

/-- The critical margin is 3, so an emergency begins at 3 and ends at 8, or with no demand. -/
theorem test_hyps_GraceRunsOut_zone :
    firstFan 1 = 2 ∧ secondFan 1 = 3 ∧
    (∀ x ∈ [FanState.calibrating, .tracking, .locked, .pinned, .boost, .failed], ∀ e : Bool,
      ∀ d ∈ [none, some 3, some 4, some 7, some 8],
        ((zoneWith e d x).zone 1).emergency = e ∧ ((zoneWith e d x).zone 1).demand = d ∧
        ((zoneWith e d x).fan 2).state = x ∧ ((zoneWith e d x).fan 3).state = .absent) ∧
    State.reset.chip.settings.criticalMargin = 3 := by decide

theorem test_hyps_GraceRunsOut_bays :
    fanZone 3 = fanZone 2 ∧ (3 : Fin 8) ≠ 2 ∧
    (let c := (fanBayWith false .pinned).chip
     (c.fan 3).state = .absent ∧ (c.zone (fanZone 2)).emergency = false) ∧
    (let c := modZone 1 (fun r => { r with emergency := true }) (fanBayWith true .absent).chip
     (c.zone (fanZone 2)).emergency = true ∧ (c.zone (fanZone 2)).demand = none ∧ (c.modules.fans.read 2).pin = true) := by
  decide

/-- Uplink 0 receiving a frame, channel 5 in a state with a frame of three cells stored, the lane busy or not. -/
def receivingWith (x : ChannelState) : State :=
  built fun c => c |> setChannel 5 (some { someChannel with state := x, down := [384] })
    |> modUplink 0 (fun r => { r with link := true, receiving := true })
    |> modLane 3 (fun r => { r with sending := some (.stored 5) })

theorem test_hyps_UplinkFramesAreTaken :
    (let r := (built (modUplink 0 fun r => { r with link := true })).chip.uplink 0
     r.link = true ∧ r.admin = true) ∧ (State.reset.chip.uplink 0).link = false ∧
    (∀ x ∈ [ChannelState.pass, .hold, .bar],
      (let c := (receivingWith x).chip
       c.quiescent ∧ (c.uplink 0).receiving = true ∧ (c.uplink 0).link = true ∧ (c.uplink 0).admin = true ∧
       c.channelFor 100 (fun ch => decide (ch.active = 0)) = some (5, { someChannel with state := x, down := [384] }) ∧
       c.channelFor 120 (fun ch => decide (ch.active = 0)) = some (5, { someChannel with state := x, down := [384] }) ∧
       frameCells 1024 + ({ someChannel with state := x, down := [384] } : Channel).cellsInUse ≤ 20 ∧
       c.channelFor 99 (fun ch => decide (ch.active = 0)) = none ∧ (c.lane 3).sending.isSome = true)) := by decide

/-- The lane of the frame's slot idle. -/
theorem test_hyps_UplinkFramesAreTaken_lane :
    (let c := (channelIn .running true fun ch => { ch with state := .pass }).chip
     (c.lane 3).sending = none ∧ c.channelFor 100 (fun ch => decide (ch.active = 0)) = some (5, { someChannel with state := .pass }) ∧
     384 ≤ someChannel.maxFrame ∧ frameCells 384 + someChannel.cellsInUse ≤ someChannel.cellCount) := by decide

/-- Seventeen cells free, or two, for a frame of three; and a frame longer than the max frame. -/
theorem test_hyps_UplinkFramesAreTaken_cells :
    (let ch := { someChannel with down := [384], cellCount := 5 }
     ch.cellCount < frameCells 384 + ch.cellsInUse ∧ 0 < frameCells 384 ∧ 384 ≤ ch.maxFrame) ∧
    (someChannel.maxFrame < 1025 ∧ 1025 ≤ 1536) := by decide

/-- Slot 3 RUNNING with channel 5, uplink 0 busy. -/
def laneWith (x : ChannelState) (cells : Nat) : State :=
  built fun c => c |> modSlot 3 (fun s => { s with state := .running })
    |> setChannel 5 (some { someChannel with state := x, cellCount := cells })
    |> modUplink 0 (fun r => { r with link := true, sending := some (.stored 5) })

theorem test_hyps_LaneFramesAreTaken :
    State.reset.chip.quiescent ∧ (State.reset.chip.slot 3).state.isCounted = false ∧
    (∀ x ∈ [(ChannelState.hold, 8), (.pass, 7), (.pass, 8), (.bar, 8)],
      (let c := (laneWith x.1 x.2).chip
       let ch := { someChannel with state := x.1, cellCount := x.2 }
       c.quiescent ∧ (c.slot 3).state.isCounted = true ∧
       c.channelFor 100 (fun ch => decide (ch.slot = 3) && ch.granted) = some (5, ch) ∧
       c.channelFor 99 (fun ch => decide (ch.slot = 3) && ch.granted) = none ∧
       ch.cellsInUse = 0 ∧ frameCells 1024 = 8 ∧ ch.maxFrame = 1024 ∧ (c.uplink 0).sending.isSome = true)) ∧
    (1025 ≤ 1536 ∧ someChannel.maxFrame < 1025 ∧ 1536 < 1537) := by decide

/-- Channel 5 with a frame stored each way, both lines sending it or a detached one. -/
def sendingWith (x : Sending) : State :=
  built fun c => c |> setChannel 5 (some { someChannel with up := [64], down := [64] })
    |> modUplink 0 (fun r => { r with link := true, sending := some x, egress := [(5, 64)] })
    |> modLane 3 (fun r => { r with sending := some x })

theorem test_hyps_TransmitCompletions :
    ∀ x ∈ [Sending.stored 5, .detached 5],
      (let c := (sendingWith x).chip
       c.quiescent ∧ c.channel 5 = some { someChannel with up := [64], down := [64] } ∧ (c.uplink 0).sending = some x ∧
       (c.uplink 0).egress = [(5, 64)] ∧ 0 < cellsOf [64] ∧ (c.lane 3).sending = some x ∧
       someChannel.active = someChannel.preferred) := by decide

/-- Slot 3 with the channels 2, 5 and 9, the first `n` of which have a down frame, and a transmit pointer. -/
def ringWith (n : Nat) (pointer : Option (Fin 32)) : State :=
  built fun c => c
    |> setChannel 2 (some { someChannel with down := if 0 < n then [64] else [] })
    |> setChannel 5 (some { someChannel with down := if 1 < n then [64] else [] })
    |> setChannel 9 (some { someChannel with down := if 2 < n then [64] else [] })
    |> modLane 3 (fun r => { r with pointer := pointer })

/-- The lane takes the lowest handle, the next one, wraps round to the lowest, comes round to the pointer's own, or none. -/
theorem test_hyps_TransmitCompletions_lane :
    (ringWith 3 none).chip.takesDown 3 none 2 ∧ (ringWith 3 (some 2)).chip.takesDown 3 (some 2) 5 ∧
    (ringWith 3 (some 9)).chip.takesDown 3 (some 9) 2 ∧ (ringWith 1 (some 2)).chip.takesDown 3 (some 2) 2 ∧
    ¬ (ringWith 3 (some 2)).chip.takesDown 3 (some 2) 2 ∧ ¬ (ringWith 3 (some 2)).chip.takesDown 3 (some 2) 9 ∧
    (∀ h, ¬ (ringWith 0 none).chip.readyDown 3 h) := by decide

/-- Channel 5 away from its preferred uplink 1, its last frame being sent up or down, uplink 1 usable or not. -/
theorem test_hyps_TransmitCompletions_revert :
    ∀ usable up : Bool,
      (let ch := { someChannel with preferred := 1, up := if up then [64] else [], down := if up then [] else [64] }
       let c := (built fun c => c |> setChannel 5 (some ch)
          |> modUplink 0 (fun r => { r with link := true, sending := some (.stored 5), egress := [(5, 64)] })
          |> modUplink 1 (fun r => { r with link := usable })
          |> modLane 3 (fun r => { r with sending := some (.stored 5) })).chip
       c.quiescent ∧ c.channel 5 = some ch ∧ ch.active = 0 ∧ ch.active ≠ ch.preferred ∧ ch.detachedDown = none ∧
       ch.detachedUp = none ∧ (c.uplink 0).sending = some (.stored 5) ∧ (c.lane 3).sending = some (.stored 5) ∧
       (c.uplink ch.preferred).link = usable ∧ (c.uplink ch.preferred).admin = true) := by decide

/-- Channel 5 held for UPLINK on uplink 1, down or disabled, that it prefers, as uplink 0 comes up; it may fall back or not. -/
theorem test_hyps_LinkChangesMoveChannels_takeOver :
    ∀ link fallback : Bool,
      (let ch := { someChannel with holdCause := some .uplink, active := 1, preferred := 1, fallback := fallback }
       let c := (built fun _ => (channelIn .running false fun _ => ch).chip
         |> modUplink 1 (fun r => { r with link := link, admin := !link })).chip
       (c.uplink 0).link = false ∧ (c.uplink 0).admin = true ∧
       ((c.uplink (otherUplink 0)).link = false ∨ (c.uplink (otherUplink 0)).admin = false) ∧ c.channel 5 = some ch ∧
       ch.active ≠ 0 ∧ ch.preferred ≠ 0 ∧ ch.state = .hold ∧ ch.granted = true ∧ (c.slot ch.slot).state.isCounted = true) := by
  decide

/-- Channel 5 in PASS on uplink 1, preferring uplink 0 that is down, idle or busy. -/
theorem test_hyps_LinkChangesMoveChannels_revert :
    ∀ l ∈ [[], [64]],
      (let ch := { someChannel with state := .pass, active := 1, up := l }
       let c := (channelIn .running false fun _ => ch).chip
       (c.uplink 0).link = false ∧ (c.uplink 0).admin = true ∧ c.channel 5 = some ch ∧ ch.active ≠ 0 ∧ ch.preferred = 0 ∧
       ch.busy = !l.isEmpty) := by decide

theorem test_hyps_LinkChangesMoveChannels :
    (let c := (channelIn .running true fun ch => { ch with state := .pass }).chip
     (c.uplink 0).link = true ∧ (c.uplink 0).admin = true ∧ (c.channel 5).all fun ch => decide (ch.state = .pass ∧ ch.active = 0)) ∧
    (let c := (channelIn .running false fun ch => { ch with holdCause := some .uplink }).chip
     (c.uplink 0).link = false ∧ (c.uplink 0).admin = true ∧
     c.channel 5 = some { someChannel with holdCause := some .uplink } ∧ (c.slot 3).state.isCounted = true) ∧
    (let c := (built (modUplink 0 fun r => { r with admin := false })).chip
     c.quiescent ∧ (c.uplink 0).link = false ∧ (c.uplink 0).admin = false) ∧
    (let c := (built (modUplink 0 fun r => { r with link := true, admin := false })).chip
     c.quiescent ∧ (c.uplink 0).link = true ∧ (c.uplink 0).admin = false) := by decide

/-- The port with a response READY. -/
def readyWith (waiting : Bool) : State :=
  built (modPort fun p => { p with response := some [0, 3, 0, 1, 1], restartWaiting := waiting })

/-- A record of a unit at slot 3, PRESENT or DEPARTED, at handle 4. -/
def unitAt (present : Bool) : State :=
  built (setInvHandle 4 { generation := 255, record := some { InvRecord.create (.slot 3)
    { vendor := 7, model := 9, revision := 3, serial := [65], capacity := none, fanDraw := none, fanSpeed := none,
      fanPulses := none } with present := present } })

theorem test_hyps_PutRequestIsTaken :
    State.reset.chip.quiescent ∧ State.reset.chip.port.request = none ∧ State.reset.chip.port.response = none ∧
    (readyWith false).chip.port.response.isSome = true ∧
    (∀ m ∈ [([0, 6, 1, 1, 0, 2, 0] : List Byte), [0, 3, 1, 1, 0]], byteSum m ≠ 0 ∧ m.drop 2 = 1 :: 1 :: m.drop 4 ∧ m.drop 4 ≠ []) :=
  by decide

/-- A message of seven bytes with a length, a verb and a table. -/
def headed (length verb table : Byte) : List Byte := checked [0, length, verb, table, 0, 5]

/-- A length of six bytes, and verbs and tables below the smallest and above the largest. -/
theorem test_hyps_PutRequestIsTaken_form :
    (byteSum (headed 6 1 1) = 0 ∧ byteSum (headed 5 0 1) = 0 ∧ byteSum (headed 5 7 1) = 0 ∧ byteSum (headed 5 1 0) = 0 ∧
      byteSum (headed 5 1 12) = 0 ∧ (headed 6 1 1).length = 7) ∧
    number ((headed 6 1 1).take 2) + 2 ≠ 7 ∧ (0 : Byte).toNat = 0 ∧ 6 < (7 : Byte).toNat ∧ 11 < (12 : Byte).toNat := by decide

/-- Record numbers past the end of each table. -/
theorem test_hyps_PutRequestIsTaken_range :
    ∀ x ∈ [(TableId.slot, (16 : Byte)), (.supply, 6), (.zone, 4), (.fan, 8), (.channel, 32), (.uplink, 2), (.lane, 16)],
      x.1 ≠ .inventory ∧ x.1 ≠ .alert ∧ tableSize x.1 ≤ x.2.toNat := by decide

/-- Rows whose key names a record, names none, and is stale: the RETIRE that is refused, a channel, and a handle. -/
theorem test_hyps_PutRequestIsTaken_keys :
    (∀ i ∈ [Instr.unacceptedVerb .retire .zone (.record 2), .unacceptedVerb .define .inventory (.inv .epoch),
        .unacceptedVerb .define .slot .noKey, .fetchChannel 5, .fetchInventory (.handle 4 0),
        .retireInventory (.handle 4 9), .fetchInventory (.location (.slot 3)), .orderRestart],
      i.wellFormed = true ∧ (requestHeader i).isSome = true ∧ (requestMessage i).length ≤ 256) ∧
    (let c := State.reset.chip
     c.keyNames .zone (.record 2) = true ∧ c.keyNames .channel (.record 5) = false ∧
     c.resolve (.location (.slot 3)) = .noRecord ∧ c.resolve (.handle 4 9) = .stale 0 false) ∧
    (unitAt true).chip.resolve (.handle 4 0) = .stale 255 true ∧ (unitAt true).chip.keyNames .inventory (.inv .epoch) = true := by
  decide

theorem test_hyps_PortReadsReturnStatusAndResponse :
    (readyWith false).chip.quiescent ∧ (readyWith false).chip.port.response = some [0, 3, 0, 1, 1] ∧
    4 < ([0, 3, 0, 1, 1] : List Byte).length ∧ ([0, 3, 0, 1, 1] : List Byte).length ≤ 5 ∧
    (readyWith false).chip.port.restartWaiting = false ∧ State.reset.chip.port.response = none ∧
    ((0 : Byte).toNat = 0 ∧ 3 < (4 : Byte).toNat) := by decide

theorem test_hyps_WarmRestartMapsSlots :
    (readyWith true).chip.port.response = some [0, 3, 0, 1, 1] ∧ (readyWith true).chip.port.restartWaiting = true := by decide

/-- No fan raises its reservation, and the chassis is over-committed after the restart, with a slot to shed and with none. -/
theorem test_hyps_WarmRestartMapsSlots_shed :
    (∀ f, ((twoRunning 100).chip.fan f).state ≠ .tracking ∧ ((twoRunning 100).chip.fan f).state ≠ .locked ∧
      ((twoRunning 100).chip.fan f).state ≠ .boost) ∧
    (let c := warmRestart (twoRunning 100).chip
     c.overCommitted = true ∧ c.projectionWalk none = [⟨6, .off, false⟩]) ∧
    (let c := warmRestart State.reset.chip
     c.overCommitted = true ∧ c.projectionWalk none = [] ∧ c.totalGrants = 0) := by decide

/-- A supply and a fan in IDENTIFYING, both present, and a channel with frames both ways. -/
theorem test_hyps_WarmRestartMapsSlots_units :
    (let c := (built fun _ => (sendingWith (.stored 5)).chip
        |> modSupply 2 (fun p => { p with state := .identifying }) |> modFan 1 (fun r => { r with state := .identifying })
        |> modModules (fun m => (m.putBay (.supply 2) { (m.bay (.supply 2)) with field := true }).putBay (.fan 1)
            { (m.bay (.fan 1)) with field := true })).chip
     (c.supply 2).state = .identifying ∧ (c.modules.supplies.read 2).field = true ∧ (c.fan 1).state = .identifying ∧
     (c.modules.fans.read 1).field = true ∧ c.channel 5 = some { someChannel with up := [64], down := [64] } ∧
     c.channel 6 = none) := by decide

theorem test_hyps_FetchAnswersRecords :
    State.reset.chip.quiescent ∧ (∀ k, State.reset.chip.takes (.fetchSlot k)) ∧
    (channelIn .held true id).chip.channel 5 = some someChannel ∧ State.reset.chip.channel 5 = none ∧
    State.reset.chip.takes (.fetchInventory (.handle 4 0)) ∧ (State.reset.chip.invHandle 4).generation = 0 ∧
    (State.reset.chip.invHandle 4).record = none ∧ (supplyBeingRead.chip.invHandle 4).record.isSome := by decide

theorem test_hyps_FetchAnswersRecords_keys :
    (let c := (unitAt true).chip
     c.takes (.fetchInventory (.location (.slot 3))) ∧ c.boundAt (.slot 3) = some 4 ∧ (c.invHandle 4).record.isSome = true ∧
     c.takes (.fetchInventory (.serial .blade [65])) ∧ c.bySerial .blade [65] = some 4) ∧
    State.reset.chip.boundAt (.slot 3) = none ∧ State.reset.chip.bySerial .blade [65] = none := by decide

theorem test_hyps_RefusedAndDiscardedRequests :
    (∀ i ∈ [Instr.unacceptedVerb .retire .zone (.record 2), .unacceptedVerb .ack .channel (.record 5),
        .unacceptedVerb .ack .inventory (.inv (.handle 4 9)), .unacceptedVerb .ack .inventory (.inv (.location (.slot 3))),
        .unacceptedVerb .ack .inventory (.inv .epoch), .unacceptedVerb .define .inventory (.inv .epoch)], i.wellFormed = true ∧ State.reset.chip.takes i) ∧
    (let c := State.reset.chip
     c.keyNames .zone (.record 2) = true ∧ c.keyNames .channel (.record 5) = false ∧
     c.resolve (.handle 4 9) = .stale 0 false ∧ c.resolve (.location (.slot 3)) = .noRecord ∧
     c.keyNames .inventory (.inv .epoch) = true) ∧ (readyWith false).chip.quiescent ∧
    (requestHeader .fetchPower).isSome = true ∧ (readyWith false).chip.port.request ≠ some .fetchPower ∧
    (readyWith false).chip.port.response.isSome = true := by decide

theorem test_hyps_AmendsOfSlotInventoryAndZone :
    State.reset.chip.quiescent ∧ State.reset.chip.queueEntry 3 = none ∧ State.reset.chip.takes (.amendSlot 3 []) ∧
    (7 : Byte).toNat ≤ 7 ∧ 7 < (8 : Byte).toNat ∧ itemWellFormed .slot { field := 1, value := some [1] } = true ∧
    ((unitAt true).chip.invHandle 4).record.isSome ∧ (List.replicate 32 (65 : Byte)).all printable = true ∧
    32 < (List.replicate 33 (65 : Byte)).length ∧ ([31] : List Byte).all printable = false ∧
    (∀ j : Fin 6, ((readCurve (List.replicate 18 116)).read j).margin ≤ 127 ∧
      ((readCurve (List.replicate 18 116)).read j).speed ≤ 30000) := by decide

/-- Slot 3 waits between two others, with nothing to serve them; its override is set and removed. -/
theorem test_hyps_AmendsOfSlotInventoryAndZone_queue :
    (let q : List QueueEntry := [⟨5, .admission, 400, 4, false⟩, ⟨3, .uplift, 200, 3, false⟩, ⟨9, .admission, 300, 2, false⟩]
     let c := setQueue q (grantIn .running id).chip
     c.quiescent ∧ c.queueEntry 3 = some ⟨3, .uplift, 200, 3, false⟩ ∧ c.available < 0 ∧ c.power.shed = [] ∧
     (∀ x ∈ c.power.queue, c.available < x.need ∧ (x.kind = .admission → c.available < c.floorDraw x.slot)) ∧
     c.power.queue.Pairwise (fun x y => y.priority ≤ x.priority) ∧
     c.takes (.amendSlot 3 []) ∧ (7 : Byte).toNat ≤ 7 ∧ (c.slot 3).terms.map Terms.priority = some 2) := by decide

theorem test_hyps_AmendsOfChannelAndSettings :
    (∀ x ∈ [(ChannelState.hold, []), (.hold, [64]), (.pass, []), (.bar, [])],
      (let ch := { someChannel with state := x.1, down := x.2 }
       let c := (channelIn .running true fun _ => ch).chip
       c.quiescent ∧ c.channel 5 = some ch ∧ ch.busy = !x.2.isEmpty ∧ c.takes (.amendChannel 5 []))) ∧
    (∀ n ∈ [100, 2000], 100 ≤ n ∧ n ≤ 2000 ∧ n % 5 = 0) ∧ (∀ n ∈ [95, 2005, 101], n < 100 ∨ 2000 < n ∨ n % 5 ≠ 0) := by decide

/-- A value of one byte or two of each setting, that its field takes; its range is Table 68's. -/
theorem test_hyps_AmendsOfChannelAndSettings_values :
    (∀ f ∈ [1, 2, 5, 9, 10, 12, 13, 16], itemWellFormed .settings { field := f, value := some [1] } = true) ∧
    (∀ f ∈ [3, 4, 7, 8, 11, 14, 15], itemWellFormed .settings { field := f, value := some [3, 232] } = true) ∧
    (number [1] = 1 ∧ number [3, 232] = 1000 ∧ number [255, 255] = 65535) ∧ State.reset.chip.takes (.amendSettings []) := by decide

/-- One supply of 1000 W ONLINE, a base draw of 150 W, and a grant queue. -/
def suppliedWith (q : List QueueEntry) (shed : List ShedEntry) : State :=
  built fun c => c |> modSupply 1 (fun p => { p with state := .online, capacity := 1000 })
    |> setSettings { c.settings with policy := .none } |> setQueue q |> setShed shed

/-- Base draws of 1000 W and 1001 W, and a fall to 0 W that an admission of 1000 W waits for. -/
theorem test_hyps_AmendsOfChannelAndSettings_power :
    (let c := (suppliedWith [] []).chip
     c.quiescent ∧ c.overCommitted = false ∧ c.power.shed = [] ∧ c.power.queue = [] ∧ c.totalGrants = 0 ∧
     (setSettings { c.settings with baseDraw := 1000 } c).overCommitted = false ∧
     (setSettings { c.settings with baseDraw := 1001 } c).overCommitted = true ∧
     (setSettings { c.settings with baseDraw := 1001 } c).projectionWalk none = [] ∧
     (setSettings { c.settings with policy := .nPlus1 } c).overCommitted = true) ∧
    (let c := (suppliedWith [⟨3, .admission, 1000, 2, false⟩] []).chip
     c.quiescent ∧ c.power.queue = [⟨3, .admission, 1000, 2, false⟩] ∧ c.available = 850 ∧
     (setSettings { c.settings with baseDraw := 0 } c).available = 1000) ∧
    (let c := setSettings { (twoRunning 0).chip.settings with baseDraw := 400 } (twoRunning 0).chip
     (twoRunning 0).chip.overCommitted = false ∧ c.overCommitted = true ∧
     c.projectionWalk none = [⟨6, .cap, false⟩, ⟨3, .cap, false⟩] ∧ (c.grant 6).capRequest = none) ∧
    (let c := setShed [⟨6, .cap, false⟩] (twoRunning 100).chip
     c.overCommitted = true ∧ (setSettings { c.settings with baseDraw := 0 } c).overCommitted = false ∧
     c.power.shed = [⟨6, .cap, false⟩]) := by decide

/-- Slot 3 RUNNING with a margin of 10 in zone 0, whose fan 0 turns; zone 1 has no fan that works. -/
def warmSlot (emergency : Bool) : State :=
  built fun _ => (grantIn .running fun g => { g with grant := 500, level := .full }).chip
    |> modSlot 3 (fun s => { s with lastStatus := some { margin := 10, measured := 400, fault := .none, halted := false } })
    |> modFan 0 (fun r => { r with state := .pinned })
    |> modZone 0 (fun r => { r with emergency := emergency })

/-- Critical margins at which an emergency begins, goes on and ends, and a map that moves slot 3 to zone 1. -/
theorem test_hyps_AmendsOfChannelAndSettings_zones :
    ∀ e : Bool,
      (let c := (warmSlot e).chip
       c.quiescent ∧ c.demandOf 0 = some 10 ∧ (c.zone 0).emergency = e ∧ c.slotZone 3 = 0 ∧ c.canCap 3 = true ∧
       c.queueEntry 3 = none ∧ c.fanCondition 0 = false ∧ c.fanCondition 1 = true ∧
       c.emergencyAfter 0 (some 10) 9 = e ∧ c.emergencyAfter 0 (some 10) 10 = true ∧ c.emergencyAfter 0 (some 10) 5 = false ∧
       c.emergencyAfter 1 none 3 = true) := by decide

theorem test_hyps_AmendsOfChannelAndSettings_map :
    (16 ≤ (16 : Byte).toNat ∧ 4 ≤ (4 : Byte).toNat) ∧ (0 : Fin 4) ≠ 1 := by decide

/-- Channel 5 of slot 3, not granted, idle and held, beside channel 6, whose window begins at 125 and whose cells begin at 60. -/
def twoChannels : State :=
  built fun c => c |> setChannel 5 (some { someChannel with granted := false })
    |> setChannel 6 (some { someChannel with base := 125, limit := 130, firstCell := 60 })

/-- The definitions to either side of each refusal of an AMEND: a field of the hub, a code that names nothing, 15 and 16 cells for
a frame of 1024 bytes, a limit of 125 and of 124, 37 and 36 cells, and a preferred uplink. -/
theorem test_hyps_AmendsOfChannelAndSettings_channel :
    (let ch := { someChannel with granted := false }
     let d := ch.definition
     twoChannels.chip.quiescent ∧ twoChannels.chip.channel 5 = some ch ∧ twoChannels.chip.takes (.amendChannel 5 []) ∧
     ch.state = .hold ∧ ch.busy = false ∧ amendWellFormed .channel [⟨11, some [0]⟩, ⟨7, some [1]⟩] = true ∧
     (∃ f ∈ [5, 6, 7], ∃ n, numberOf [⟨7, some [2]⟩] f = some n ∧ 2 ≤ n) ∧
     (∀ n : Byte, n = 15 ∨ n = 16 → amendWellFormed .channel [⟨10, some [n]⟩] = true ∧
       ch.amendedTo [⟨10, some [n]⟩] { d with cellCount := n.toNat }) ∧
     Definition.breaksRange { d with cellCount := 15 } ∧ ¬ { d with cellCount := 16 }.breaksRange ∧
     ch.amendedTo [⟨4, some [0, 125]⟩] { d with limit := 125 } ∧ { d with limit := 125 }.sharesWith twoChannels.chip (some 5) ∧
     { d with cellCount := 37 }.sharesWith twoChannels.chip (some 5) ∧
     ¬ { d with limit := 124, cellCount := 36 }.sharesWith twoChannels.chip (some 5) ∧
     ch.amendedTo [⟨5, some [1]⟩] { d with preferred := 1 } ∧ twoChannels.chip.slotFull 3 = false) := by
  refine ⟨by decide, by decide, by decide, by decide, by decide, by decide, ⟨7, by decide, 2, by decide⟩, ?_, by decide⟩
  rintro n (rfl | rfl) <;> decide

/-- Channel 5 of slot 3, not granted, and four channels of slot 4. -/
def fullBeside : State :=
  built fun c => forEach [0, 1, 2, 3] (fun h => setChannel h (some { someChannel with slot := 4 }))
    (setChannel 5 (some { someChannel with granted := false }) c)

/-- A move to slot 4, which has four records. -/
theorem test_hyps_AmendsOfChannelAndSettings_full :
    (let ch := { someChannel with granted := false }
     let c := fullBeside.chip
     c.channel 5 = some ch ∧ ch.amendedTo [⟨2, some [4]⟩] { ch.definition with slot := 4 } ∧ c.slotFull 4 = true ∧
     ¬ { ch.definition with slot := 4 }.breaksRange) := by decide

/-- An over-commit that a fall of the base draw ends, with a head ACTING. -/
theorem test_hyps_AmendsOfChannelAndSettings_acting :
    (let c := setShed [⟨6, .cap, true⟩, ⟨3, .off, false⟩] (modSlot 6 (fun s => { s with switchClosed := true }) (twoRunning 100).chip)
     c.overCommitted = true ∧ (setSettings { c.settings with baseDraw := 0 } c).overCommitted = false ∧
     c.power.shed = [⟨6, .cap, true⟩, ⟨3, .off, false⟩] ∧ (c.slot 6).switchClosed = true) := by decide

/-- The nine fields of a channel of slot 3 as DEFINE gives them. -/
def defineItems : List Item :=
  [⟨2, some [3]⟩, ⟨3, some (byte2 100)⟩, ⟨4, some (byte2 120)⟩, ⟨5, some [0]⟩, ⟨6, some [0]⟩, ⟨7, some [1]⟩,
   ⟨8, some (byte2 1024)⟩, ⟨9, some (byte2 24)⟩, ⟨10, some [20]⟩]

/-- The part with every channel handle taken. -/
def channelsFull : State := built fun c => { c with hub := { c.hub with channels := .fill 32 (some someChannel) } }

theorem test_hyps_DefineAndRetireChannel :
    defineWellFormed defineItems = true ∧ (∀ x ∈ defineItems, x.field ≠ 1 ∧ x.field ≤ 10) ∧
    Definition.blank.with defineItems = some someChannel.definition ∧ someChannel.definition.inRange = true ∧
    someChannel.definition.slot = (3 : Fin 16).val ∧ State.reset.chip.takes (.defineChannel defineItems) ∧
    State.reset.chip.freeChannel = some 0 ∧ State.reset.chip.slotFull 3 = false ∧
    State.reset.chip.overlaps none someChannel.definition = false ∧ channelsFull.chip.freeChannel = none ∧
    channelsFull.chip.slotFull 3 = true ∧ (channelIn .held true id).chip.takes (.retireChannel 5) := by decide

/-- A record that shares a tag, a definition of slot 16, and a code that names no uplink. -/
theorem test_hyps_DefineAndRetireChannel_refused :
    (channelIn .held true id).chip.freeChannel = some 0 ∧ (channelIn .held true id).chip.slotFull 3 = false ∧
    someChannel.definition.sharesWith (channelIn .held true id).chip none ∧
    { someChannel.definition with slot := 16 }.breaksRange ∧ ¬ { someChannel.definition with slot := 15 }.breaksRange ∧
    (let items := ⟨2, some [16]⟩ :: defineItems.tail
     defineWellFormed items = true ∧ Definition.blank.with items = some { someChannel.definition with slot := 16 }) ∧
    (let items := ⟨5, some [2]⟩ :: defineItems.filter fun x => x.field ≠ 5
     defineWellFormed items = true ∧ numberOf items 5 = some 2) := by decide

theorem test_hyps_RetireInventoryByState :
    ∀ present, (unitAt present).chip.quiescent ∧ (unitAt present).chip.takes (.retireInventory (.handle 4 255)) ∧
      ((unitAt present).chip.resolve (.handle 4 255) = .found 4 { InvRecord.create (.slot 3)
        { vendor := 7, model := 9, revision := 3, serial := [65], capacity := none, fanDraw := none, fanSpeed := none,
          fanPulses := none } with present := present }) ∧
      (unitAt present).chip.resolve (.location (.slot 4)) = .noRecord := by decide

/-- An alert index of two entries. -/
def twoAlerts : List AlertEntry := [⟨.slot 3, 17⟩, ⟨.chassis, 1⟩]

theorem test_hyps_AckRemovesCauses :
    (built (setAlerts twoAlerts)).chip.quiescent ∧ (built (setAlerts twoAlerts)).chip.takes (.ack (.slot 3) 1) := by decide

theorem test_hyps_AckRemovesCauses_index : alertsWellFormed twoAlerts ∧ (built (setAlerts twoAlerts)).chip.port.alerts = twoAlerts :=
  ⟨⟨by decide, by decide⟩, rfl⟩

theorem test_hyps_AckRemovesCauses_sets : causesBelong (.slot 3) 1 = true ∧ causesBelong (.slot 3) 511 = true := by decide

theorem test_hyps_AdmitByState :
    ∀ x ∈ [SlotState.awaitingAdmit, .running], (slotIn x).chip.quiescent ∧ ((slotIn x).chip.slot 3).state = x ∧
      (slotIn x).chip.takes (.orderAdmit 3) := by decide

theorem test_hyps_ReadmitEvictAndForceOff :
    (∀ closed, (let c := (slotWith fun s => { s with state := .held, latch := ⟨closed, closed, false⟩ }).chip
      c.quiescent ∧ (c.slot 3).state = .held ∧ (c.slot 3).latch.field = closed ∧ c.takes (.orderReadmit 3))) ∧
    (∀ x ∈ slotStates, (slotIn x).chip.takes (.orderEvict 3) ∧ ((slotIn x).chip.slot 3).state = x) ∧
    (let c := (slotWith fun s => { s with state := .draining, powerGood := true }).chip
     (c.slot 3).state.powered = true ∧ (c.slot 3).powerGood = true ∧ c.takes (.orderForceOff 3)) ∧
    (∀ closed, (let c := (slotWith fun s => { s with state := .powering, latch := ⟨closed, closed, false⟩ }).chip
     (c.slot 3).state.powered = true ∧ (c.slot 3).powerGood = false ∧ (c.slot 3).latch.field = closed ∧
     c.takes (.orderForceOff 3))) ∧
    ((slotIn .held).chip.slot 3).state.powered = false := by decide

theorem test_hyps_RenegotiateStartsOrWaits :
    (slotIn .running).chip.quiescent ∧ (slotIn .running).chip.takes (.orderRenegotiate 3) ∧
    ((slotIn .running).chip.engine 3).free ∧
    (let e := (exchangeIn .running .poll false).chip.engine 3
     e.renegRequest = false ∧ e.phase ≠ .renegotiation ∧ e.inFlight.isSome = true) ∧
    ((linkIn .running fun e => { e with renegRequest := true }).chip.engine 3).renegRequest = true ∧
    ((linkIn .running fun e => { e with phase := .renegotiation }).chip.engine 3).phase = .renegotiation := by decide

theorem test_hyps_CapAndUncapOrders :
    (∀ x ∈ [SlotState.running, .draining],
      (let c := (grantIn x fun g => { g with grant := 500, level := .full }).chip
       c.quiescent ∧ c.queueEntry 3 = none ∧ c.takes (.orderCap 3) ∧ (c.slot 3).state = x ∧ 0 < c.floorDraw 3 ∧
       c.floorDraw 3 < (c.grant 3).grant ∧ (c.grant 3).level = .full ∧ (c.grant 3).capSet = .empty ∧
       (c.grant 3).capRequest = none)) ∧
    (let c := (grantIn .running fun g => { g with grant := 500, level := .full, capSet := .only .host }).chip
     (c.grant 3).capSet.host = true ∧ (c.grant 3).level ≠ .floor ∧ c.takes (.orderUncap 3)) ∧
    (let c := (grantIn .running fun g => { g with level := .full }).chip
     (c.grant 3).grant = 0 ∧ (c.grant 3).capSet.host = false ∧ c.floorDraw 3 = 300) ∧
    State.reset.chip.floorDraw 3 = 0 ∧ (State.reset.chip.grant 3).capSet.host = false := by decide

/-- Slot 3 at FLOOR with HOST alone, 200 W short of its run draw, on a supply with the draw to spare or one watt less. -/
def cappedAtFloor (spare : Nat) (state : SlotState) (caps : CapSet) : State :=
  built fun _ => (grantIn state fun g => { g with grant := 300, level := .floor, capSet := caps }).chip
    |> modSupply 1 (fun p => { p with state := .online, capacity := 450 + spare })
    |> (fun c => setSettings { c.settings with policy := .none } c)

theorem test_hyps_CapAndUncapOrders_floor :
    (∀ spare ∈ [200, 199],
      (let c := (cappedAtFloor spare .running (.only .host)).chip
       c.quiescent ∧ c.queueEntry 3 = none ∧ c.takes (.orderUncap 3) ∧ (c.grant 3).capSet = .only .host ∧
       (c.grant 3).level = .floor ∧ (c.slot 3).state = .running ∧ c.power.queue = [] ∧ c.power.shed = [] ∧
       c.runDraw 3 - (c.grant 3).grant = 200 ∧ c.available = (spare : Int))) ∧
    (let c := (cappedAtFloor 0 .running { CapSet.empty with host := true, thermal := true }).chip
     (c.grant 3).capSet.host = true ∧ (c.grant 3).capSet.thermal = true) ∧
    (let c := (cappedAtFloor 0 .draining { CapSet.empty with host := true, budget := true }).chip
     (c.grant 3).capSet.host = true ∧ (c.grant 3).capSet.budget = true ∧ (c.slot 3).state ≠ .running) := by decide

theorem test_hyps_RetrySupplyByReason :
    (∀ x ∈ [SupplyFail.noOutput, .lost, .unread],
      (let c := (built fun c => modSupply 1 (fun p => { p with state := .failed, failReason := some x })
          (setModules (c.modules.putBay (.supply 1) ⟨true, true, false⟩) c)).chip
       c.quiescent ∧ c.takes (.orderRetrySupply 1) ∧ (c.supply 1).state = .failed ∧ (c.supply 1).failReason = some x ∧
       (c.modules.supplies.read 1).field = true ∧ c.modules.queue = [] ∧ c.modules.reading = none ∧ c.modules.quiet = false)) ∧
    (State.reset.chip.supply 1).state ≠ .failed := by decide

/-- Zone 1 with a staged curve of six points. -/
def stagedWith (margins speeds : Fin 6 → Nat) : State :=
  built (modZone 1 fun r => { r with staged := .gen fun j => { margin := margins j, speed := speeds j } })

theorem test_hyps_CommitCurveChecksStaged :
    (let q := ((stagedWith (fun j => 5 - j.val) fun j => if j.val = 5 then 30000 else 500).chip.zone 1).staged
     (∀ j : Fin 6, 500 ≤ (q.read j).speed ∧ (q.read j).speed ≤ 30000) ∧
     ∀ j : Fin 5, (q.read j.succ).margin < (q.read j.castSucc).margin ∧ (q.read j.castSucc).speed ≤ (q.read j.succ).speed) ∧
    (let q := ((stagedWith (fun _ => 5) fun _ => 499).chip.zone 1).staged
     ¬ (∀ j : Fin 6, 500 ≤ (q.read j).speed ∧ (q.read j).speed ≤ 30000)) ∧
    State.reset.chip.takes (.orderCommitCurve 1) := by decide

theorem test_hyps_FanOrdersByState :
    (∀ x ∈ [FanState.absent, .identifying, .calibrating, .tracking, .locked, .pinned, .boost, .failed],
      (let c := (fanWith fun r => { r with state := x, pinnedBand := some 63 }).chip
       c.quiescent ∧ (c.fan 2).state = x ∧ (c.fan 2).pinnedBand = some 63 ∧ c.takes (.orderPin 2 63) ∧
       c.takes (.orderUnpin 2) ∧ c.takes (.orderRetryFan 2) ∧ c.marginCondition (fanZone 2) = false)) ∧
    (63 ≤ 63 ∧ 63 < 64) ∧
    (let c := (built fun c => modZone 1 (fun r => { r with emergency := true, demand := some 7 })
        (modFan 2 (fun r => { r with state := .failed }) c)).chip
     (c.zone (fanZone 2)).emergency = true ∧ (c.zone (fanZone 2)).demand = some 7 ∧ 7 < c.settings.criticalMargin + 5) := by
  decide

/-- Fan 2 FAILED in a zone clear of its emergency, by five degrees or without demand, and in one whose demand is critical. -/
theorem test_hyps_FanOrdersByState_retry :
    ∀ x ∈ [(true, none), (true, some 8), (false, some 3)],
      (let c := (built fun c => modZone 1 (fun r => { r with emergency := x.1, demand := x.2 })
          (modFan 2 (fun r => { r with state := .failed }) c)).chip
       c.quiescent ∧ c.takes (.orderRetryFan 2) ∧ (c.fan 2).state = .failed ∧ (c.fan 2).pinnedBand = none ∧
       (c.zone (fanZone 2)).emergency = x.1 ∧ (c.zone (fanZone 2)).demand = x.2 ∧ c.settings.criticalMargin = 3) := by decide

theorem test_hyps_PassAndHoldByState :
    (∀ x ∈ [ChannelState.hold, .pass, .bar], ∀ link : Bool, ∀ slot ∈ [SlotState.running, .draining, .held],
      (let c := (channelIn slot link fun ch => { ch with state := x }).chip
       c.quiescent ∧ c.channel 5 = some { someChannel with state := x } ∧ c.takes (.orderPass 5) ∧ c.takes (.orderHold 5) ∧
       (c.uplink 0).link = link ∧ (c.uplink 0).admin = true ∧ (c.slot 3).state = slot)) ∧
    ((built (modUplink 1 fun r => { r with link := true })).chip.uplink (otherUplink 0)).link = true := by decide

theorem test_hyps_BarAndFlushByState :
    ∀ x ∈ [ChannelState.hold, .pass, .bar], ∀ l ∈ [[], [64]],
      (let ch := { someChannel with state := x, down := l, up := l }
       let c := (channelIn .running true fun _ => ch).chip
       c.quiescent ∧ c.channel 5 = some ch ∧ c.takes (.orderBar 5) ∧ c.takes (.orderFlush 5) ∧
       (c.lane 3).sending ≠ some (.stored 5) ∧ (c.uplink 0).sending ≠ some (.stored 5) ∧ (c.uplink 0).egress = []) := by decide

theorem test_hyps_AdminAndRestartOrders :
    ∀ link admin : Bool, (let c := (built (modUplink 0 fun r => { r with link := link, admin := !admin })).chip
      c.quiescent ∧ c.takes (.orderEnable 0) ∧ c.takes (.orderDisable 0) ∧ c.takes .orderRestart ∧
      (c.uplink 0).link = link ∧ (c.uplink 0).admin = !admin) := by decide

theorem test_hyps_DecodeOfRequestMessage :
    (Instr.orderPin 2 63).wellFormed = true ∧ requestHeader (.orderPin 2 63) = some (.order, .fan, .record 2) ∧
    (requestMessage (.orderPin 2 63)).length ≤ 256 ∧ (Instr.amendInventory (.handle 47 255)
      [{ field := 14, value := some (List.replicate 32 65) }]).wellFormed = true := by decide

theorem test_hyps_StepKeepsSlotsCoherent :
    State.reset.chip.slotsCoherent ∧ State.reset.chip.fansBanded ∧ State.reset.chip.portExclusive ∧
    alertsWellFormed State.reset.chip.port.alerts ∧ State.reset.chip.quiescent := by decide

theorem test_hyps_StepKeepsFansBanded : State.reset.chip.fansBanded := by decide

theorem test_hyps_StepKeepsPort :
    State.reset.chip.portExclusive ∧ alertsWellFormed State.reset.chip.port.alerts ∧ State.reset.chip.quiescent := by decide

theorem test_hyps_StepKeepsChannelsInCells : State.reset.chip.channelsFit := fun h ch e => by
  simp [State.reset, Chip.reset, Chip.channel, Hub.reset] at e

/-! ## Requests a host writes out, byte by byte (Table 72) -/

/-- FETCH of slot 5: length 5, verb 1, table 1, key form 0, slot 5, check byte. -/
theorem test_decode_fetch_slot :
    decodeRequest [0, 5, 1, 1, 0, 5, 244] = .request 1 1 (.record 5) (.fetchSlot 5) := by decide

/-- ORDER PIN of fan 2 at band 63: verb 5, table 6, key form 0, fan 2, order 0, band 63. -/
theorem test_decode_pin : decodeRequest [0, 7, 5, 6, 0, 2, 0, 63, 173] = .request 5 6 (.record 2) (.orderPin 2 63) := by decide

/-- ACK of HELD and OVERDRAW on slot 3: verb 6, table 11, key form 6, object kind 0, slot 3, the causes 0 and 4. -/
theorem test_decode_ack :
    decodeRequest [0, 8, 6, 11, 6, 0, 3, 0, 17, 205] = .request 6 11 (.alert (.object (.slot 3))) (.ack (.slot 3) 17) := by decide

/-- AMEND of the drain timeout to 60 s: verb 2, table 10, key form 0, record 0, field 9, one byte. -/
theorem test_decode_amend :
    decodeRequest [0, 8, 2, 10, 0, 0, 9, 1, 60, 166] =
      .request 2 10 (.record 0) (.amendSettings [{ field := 9, value := some [60] }]) := by decide

/-- DEFINE and RETIRE with the epoch key: verb, table 2, key form 4, check byte; a DEFINE with a handle is no request (log 47). -/
theorem test_decode_epoch_key :
    decodeRequest [0, 4, 3, 2, 4, 243] = .request 3 2 (.inv .epoch) (.unacceptedVerb .define .inventory (.inv .epoch)) ∧
    decodeRequest [0, 4, 4, 2, 4, 242] = .request 4 2 (.inv .epoch) (.retireInventory .epoch) ∧
    decodeRequest [0, 6, 3, 2, 1, 4, 0, 240] = .bad .badForm 3 2 := by decide

/-- The check byte of FETCH of slot 5 is wrong. -/
theorem test_decode_bad_check : decodeRequest [0, 5, 1, 1, 0, 5, 243] = .bad .badCheck 1 1 := by decide

/-- Port command 3 with two bytes clocked reads two bytes of the response; 4 is no command. -/
theorem test_transfers : transferOf 3 [0, 0] = .getResponse 2 ∧ transferOf 4 [0] = .unknownPortCommand 4 := by decide

/-- The GRANT page of 500 W at level FULL, toggle 1: kind 4, flags 1, length 3, the draw, the level, the check byte. -/
theorem test_grant_page :
    Exchange.page { request := .grant 500 .full, toggle := true, second := false } = [4, 1, 3, 1, 244, 2, 1] := by decide

/-- The table gives no row bits. -/
theorem test_no_word_spells_a_command : decodeTableWord 16 5 = none := by decide

/-! ## Commands on small states -/

/-- What a command makes of a chip. -/
def after (i : Instr) (s : State) : Chip :=
  match exec i s with | .next t => t.chip | .fault _ => s.chip | .refused _ => s.chip

theorem test_latch_opens_in_running :
    ((after (.latchDebounceExpiry 3) (slotWith fun s => { s with state := .running, latch := ⟨false, true, true⟩ })).slot 3).state
      = .draining := by decide

theorem test_power_good_in_powering :
    ((after (.pwrGoodChange 3 true) (slotIn .powering)).slot 3).state = .starting := by decide

theorem test_fetch_of_a_slot_is_answered :
    (after (.fetchSlot 3) State.reset).port.response.isSome = true := by decide

theorem test_put_then_taken :
    (after (.putRequest (requestMessage .fetchPower)) State.reset).port.request = some .fetchPower := by decide

/-- CAP of a RUNNING slot with grant 0 is refused with STATE (R101). -/
theorem test_cap_at_grant_0 :
    (capSlot 3 (grantIn .running fun g => { g with level := .full }).chip).2 = .state := by decide

/-- The read of supply bay 5 goes to address 69, that of fan bay 7 to address 79; command byte 1. -/
theorem test_module_read_requests :
    Bay.readRequest (.supply 5) = (69, [1]) ∧ Bay.readRequest (.fan 7) = (79, [1]) := by decide

theorem test_uplink_comes_up : causesOf (.uplink 0) (after (.uplLinkChange 0 true) State.reset).port.alerts = Cause.linkUp.mask := by
  decide

/-- R64: the inventory unit refuses a DEFINE with the epoch key with STATE. -/
theorem test_define_with_the_epoch_key_answers_state :
    (after (.unacceptedVerb .define .inventory (.inv .epoch)) State.reset).port.response =
      some (responseMessage .state 3 2 [4] []) := by decide

end Sys2Proof.Tests
end

/-!
PROOF. The taking of a request by its owner (R181), once for every request row: what the port holds while the owner
judges, and the part after an answer that moves nothing else.
-/

namespace Sys2Proof.Machine

/-- The part as the owner of a request row finds it: overrun is cleared if the row is put with its taking (log 3). -/
def Chip.opened (c : Chip) (i : Instr) : Chip :=
  setPort { c.port with overrun := if c.port.request = some i then c.port.overrun else false } c

/-- R181: a request that is taken is judged on the opened part, and its answer is written. -/
theorem takeRequest_of_takes {c : Chip} {i : Instr} (owner : Chip → Chip × Answer) (h : c.takes i) :
    takeRequest i owner c = writeAnswer i (owner (c.opened i)) := by
  by_cases hp : c.port.request = some i
  · have ho : c.opened i = c := by rw [Chip.opened, if_pos hp]; rfl
    rw [takeRequest, if_pos hp, ho]
  · have he := h.resolve_left hp
    have ho : c.opened i = modPort (fun p => { p with overrun := false }) c := by rw [Chip.opened, if_neg hp]; rfl
    rw [takeRequest, if_neg hp, if_pos he, ho]

/-- A request that is taken: its owner's judgment, the answer, and the queue service at the event's end. -/
theorem taken_of_takes {s : State} {i : Instr} (owner : Chip → Chip × Answer) (h : s.chip.takes i) :
    taken (takeRequest i owner) s = .next (s.onChip (queueService (writeAnswer i (owner (s.chip.opened i))))) := by
  rw [← takeRequest_of_takes owner h]
  rfl

/-- A request whose owner leaves the part between events ends in that part, answered. -/
theorem taken_answered {s : State} {i : Instr} {owner : Chip → Chip × Answer} {c : Chip} {a : Answer}
    (h : s.chip.takes i) (hq : c.quiescent) (ho : owner (s.chip.opened i) = (c.opened i, a)) :
    taken (takeRequest i owner) s = .next (s.onChip (c.answered i a)) := by
  have hs : queueService (c.answered i a) = c.answered i a := queueService_of_settled hq.1 hq.2
  have hw : writeAnswer i (c.opened i, a) = c.answered i a := rfl
  rw [taken_of_takes owner h, ho, hw, hs]

end Sys2Proof.Machine

/-!
PROOF. What the power unit's operations leave alone, as a relation between the part before and after: they write its own
records, alert causes and messages.
-/

namespace Sys2Proof.Machine

/-- The second part differs from the first in the power unit's records, the alert index and the messages alone. -/
structure Chip.SameButPower (c c' : Chip) : Prop where
  slots : c'.slots = c.slots
  engines : c'.engines = c.engines
  modules : c'.modules = c.modules
  inventory : c'.inventory = c.inventory
  fans : c'.fans = c.fans
  hub : c'.hub = c.hub
  port : c'.port = { c.port with alerts := c'.port.alerts }
  statusPages : c'.statusPages = c.statusPages

theorem Chip.SameButPower.refl (c : Chip) : c.SameButPower c := ⟨rfl, rfl, rfl, rfl, rfl, rfl, rfl, rfl⟩

theorem Chip.SameButPower.request {c c' : Chip} (h : c.SameButPower c') : c'.port.request = c.port.request := by
  rw [h.port]

theorem Chip.SameButPower.response {c c' : Chip} (h : c.SameButPower c') : c'.port.response = c.port.response := by
  rw [h.port]

/-- R182: the same answer written to both parts. -/
theorem Chip.SameButPower.writeAnswer {c c' : Chip} (h : c.SameButPower c') (i : Instr) (a : Answer) :
    (writeAnswer i (c, a)).SameButPower (writeAnswer i (c', a)) :=
  ⟨h.slots, h.engines, h.modules, h.inventory, h.fans, h.hub,
    congrArg (fun p : Port => { p with request := none, response := some (answerMessage i a) }) h.port, h.statusPages⟩

/-- No operation of the power unit writes more than `Chip.SameButPower` allows. -/
theorem Chip.sameButPower_keeps (c : Chip) : PowerKeeps c.SameButPower where
  power _ _ h := ⟨h.slots, h.engines, h.modules, h.inventory, h.fans, h.hub, h.port, h.statusPages⟩
  raise o x c' h :=
    ⟨h.slots, h.engines, h.modules, h.inventory, h.fans, h.hub,
      congrArg (fun p : Port => { p with alerts := raiseIn o x.mask c'.port.alerts }) h.port, h.statusPages⟩
  messages _ _ h := ⟨h.slots, h.engines, h.modules, h.inventory, h.fans, h.hub, h.port, h.statusPages⟩

end Sys2Proof.Machine

/-!
PROOF. The writing of settings (R185, R186): an AMEND that leaves the zone map, the policy, the base draw and the critical
margin alone hands nothing on.
-/

namespace Sys2Proof

@[simp] theorem Bank.gen_read {n : Nat} {α : Type} (b : Bank n α) : Bank.gen (fun i => b.read i) = b :=
  Vector.ext fun j hj => by
    show (Vector.ofFn fun i : Fin n => b[i.val])[j] = b[j]
    simp

namespace Machine

@[simp] theorem number_singleton (b : Byte) : number [b] = b.toNat := by simp [number]

@[simp] theorem writePairs_nil (m : Bank 16 (Fin 4)) : writePairs m [] = m := Bank.gen_read m

/-- Operations that each leave the part as it is leave it so together. -/
theorem forEach_eq_self {α : Type} {f : α → Chip → Chip} {c : Chip} :
    ∀ l : List α, (∀ a ∈ l, f a c = c) → forEach l f c = c
  | [], _ => rfl
  | a :: l, h => by
    have ha : f a c = c := h a List.mem_cons_self
    have hl : forEach l f c = c := forEach_eq_self l fun b hb => h b (List.mem_cons_of_mem a hb)
    rw [forEach, List.foldl_cons, ha]
    exact hl

/-- R143, R186: with the zone map as it was and the critical margin not named, the fan controller does nothing. -/
theorem fanSettings_of_zoneMap {old c : Chip} (h : c.settings.zoneMap = old.settings.zoneMap) :
    fanSettings old false c = c := by
  have hz : ∀ k, old.slotZone k = c.slotZone k := fun k => by simp [Chip.slotZone, h]
  have hzones : forEach ((keys 4).filter fun z => (false : Bool) ∨ zoneTouched old c z) refreshZone c = c := by
    refine forEach_eq_self _ fun z hm => ?_
    simp [zoneTouched, hz] at hm
  have hslots : forEach (keys 16) (followMove old) c = c :=
    forEach_eq_self _ fun k _ => by simp [followMove, hz k]
  rw [fanSettings, hzones, hslots]

/-- The items of an AMEND that names admission mode alone (Table 68 field 1). -/
abbrev admissionMode (v : Byte) : List Item := [{ field := 1, value := some [v] }]

/-- R11: the settings with the admission mode alone named: code 0 is AUTO, 1 is HOST. -/
theorem writeSettings_admissionMode (v : Byte) (t : Settings) :
    writeSettings (admissionMode v) t = { t with autoAdmission := decide (v.toNat = 0) } := by
  cases hf : t.floorAdmission <;> simp [writeSettings, numberOf, valueOf, readPairs, hf]

/-- R11: an AMEND of admission mode to AUTO or HOST writes the setting and is answered OK. -/
theorem amendSettingsOwner_admissionMode {v : Byte} (hv : v.toNat ≤ 1) (c : Chip) :
    amendSettingsOwner (admissionMode v) c =
      (setSettings { c.settings with autoAdmission := decide (v.toNat = 0) } c, { status := .ok, result := [] }) := by
  have hr : (admissionMode v).all settingInRange = true := by
    simp [settingInRange, stepped, hv, Nat.mod_one]
  have ha : applySettings (admissionMode v) c =
      setSettings { c.settings with autoAdmission := decide (v.toNat = 0) } c := by
    rw [applySettings, writeSettings_admissionMode]
    exact fanSettings_of_zoneMap rfl
  rw [amendSettingsOwner, if_pos hr, ha]
  rfl

theorem amendWellFormed_admissionMode (v : Byte) :
    amendWellFormed .settings (admissionMode v) = true := by
  simp [amendWellFormed, itemsWellFormed, itemWellFormed, fieldShape, shapes, Shape.accepts, allDistinct]

theorem exec_amendSettings (items : List Item) (s : State) :
    exec (.amendSettings items) s = taken (takeRequest (.amendSettings items)
      (onItems (amendWellFormed .settings items) (amendSettingsOwner items))) s := rfl

/-- R11: an AMEND of admission mode moves no slot: the part after it is the part before with the setting written. -/
theorem exec_amendSettings_admissionMode {s : State} {v : Byte} (hq : s.chip.quiescent) (hv : v.toNat ≤ 1)
    (ht : s.chip.takes (.amendSettings (admissionMode v))) :
    exec (.amendSettings (admissionMode v)) s =
      .next (s.onChip ((setSettings { s.chip.settings with autoAdmission := decide (v.toNat = 0) } s.chip).answered
        (.amendSettings (admissionMode v)) { status := .ok, result := [] })) := by
  rw [exec_amendSettings]
  refine taken_answered ht hq ?_
  rw [onItems, if_pos (amendWellFormed_admissionMode v), amendSettingsOwner_admissionMode hv]
  rfl

end Machine

end Sys2Proof

/-!
PROOF. ORDER ADMIT (R11): the entry to AWAITING_GRANT reaches no block but the slot controller and the power unit.
-/

namespace Sys2Proof.Machine

/-- R11: a slot that leaves AWAITING_ADMIT for AWAITING_GRANT has its record written and is reported to the power unit; the
engine, the fan controller and the hub have no part in it. -/
theorem enterState_awaitingGrant {k : Fin 16} {c : Chip} (h : (c.slot k).state = .awaitingAdmit) :
    enterState k .awaitingGrant id c = powerOnSlot k .awaitingGrant (modSlot k (Slot.enter .awaitingGrant) c) := by
  have hengine : ∀ c, engineOnSlot k .awaitingAdmit .awaitingGrant c = c := fun c => by
    simp [engineOnSlot, SlotState.keepsListEmpty]
  have hgrant : ∀ c, grantOnSlot k .awaitingAdmit .awaitingGrant c = c := fun c => by
    simp [grantOnSlot, SlotState.holdsGrant, SlotState.powered]
  have hfan : ∀ c, fanOnSlot k .awaitingAdmit .awaitingGrant c = c := fun c => by
    simp [fanOnSlot, SlotState.isCounted]
  have hhub : ∀ c, hubOnSlot k .awaitingAdmit .awaitingGrant c = c := fun c => by
    simp [hubOnSlot, SlotState.powered]
  simp only [enterState, h, hengine, hgrant, reportSlot, hfan, hhub, id_eq]

/-- What the admission of a slot leaves: its record entered to AWAITING_GRANT, and else the power unit's writes. -/
theorem enterState_awaitingGrant_sameButPower {k : Fin 16} {c : Chip} (h : (c.slot k).state = .awaitingAdmit) :
    (modSlot k (Slot.enter .awaitingGrant) c).SameButPower (enterState k .awaitingGrant id c) := by
  rw [enterState_awaitingGrant h]
  exact (Chip.sameButPower_keeps _).powerOnSlot k .awaitingGrant (.refl _)

/-- R3, R7: an entry to AWAITING_GRANT keeps the terms and has the switch OPEN. -/
theorem Slot.enter_awaitingGrant (s : Slot) :
    (s.enter .awaitingGrant).state = .awaitingGrant ∧ (s.enter .awaitingGrant).terms = s.terms ∧
    (s.enter .awaitingGrant).switchClosed = false := ⟨rfl, rfl, rfl⟩

theorem admitSlot_of_awaitingAdmit {k : Fin 16} {c : Chip} (h : (c.slot k).state = .awaitingAdmit) :
    admitSlot k c = (enterState k .awaitingGrant id c, .ok) := if_pos h

theorem admitSlot_of_ne {k : Fin 16} {c : Chip} (h : (c.slot k).state ≠ .awaitingAdmit) :
    admitSlot k c = (c, .state) := if_neg h

theorem exec_orderAdmit (k : Fin 16) (s : State) :
    exec (.orderAdmit k) s = taken (takeRequest (.orderAdmit k) fun c => statusOnly (admitSlot k c)) s := rfl

/-- R11: ADMIT of a slot in AWAITING_ADMIT: the answer is OK, the port is as the answer leaves it, and the rest of the part
is as the entry to AWAITING_GRANT leaves it, but for the power unit's writes. -/
theorem exec_orderAdmit_ok {s : State} {k : Fin 16} (ht : s.chip.takes (.orderAdmit k))
    (h : (s.chip.slot k).state = .awaitingAdmit) :
    ∃ t, exec (.orderAdmit k) s = .next t ∧
      ((modSlot k (Slot.enter .awaitingGrant) s.chip).answered (.orderAdmit k)
        { status := .ok, result := [] }).SameButPower t.chip := by
  rw [exec_orderAdmit, taken_of_takes _ ht, admitSlot_of_awaitingAdmit (c := s.chip.opened (.orderAdmit k)) h]
  refine ⟨_, rfl, (Chip.sameButPower_keeps _).queueService ?_⟩
  exact (enterState_awaitingGrant_sameButPower (c := s.chip.opened (.orderAdmit k)) h).writeAnswer _ _

/-- R11: ADMIT of a slot in any other state is refused with STATE and changes nothing but the port. -/
theorem exec_orderAdmit_refused {s : State} {k : Fin 16} (hq : s.chip.quiescent) (ht : s.chip.takes (.orderAdmit k))
    (h : (s.chip.slot k).state ≠ .awaitingAdmit) :
    exec (.orderAdmit k) s = .next (s.onChip (s.chip.answered (.orderAdmit k) { status := .state, result := [] })) := by
  rw [exec_orderAdmit]
  refine taken_answered ht hq ?_
  rw [admitSlot_of_ne (c := s.chip.opened (.orderAdmit k)) h]
  rfl

/-- Settles O45, from the frame of the entry to AWAITING_GRANT, the refusal, and the AMEND of admission mode. -/
theorem admitByState : Obligations.AdmitByState := by
  refine fun s k hq => ⟨fun ht => ⟨fun h => ?_, exec_orderAdmit_refused hq ht⟩,
    fun v hv ht => exec_amendSettings_admissionMode hq hv ht⟩
  obtain ⟨t, hx, hf⟩ := exec_orderAdmit_ok ht h
  have hslot : ∀ j, t.chip.slot j = if j = k then (s.chip.slot k).enter .awaitingGrant else s.chip.slot j := fun j =>
    (congrArg (·.read j) hf.slots).trans (slot_setSlot k j _ _)
  have hk : t.chip.slot k = (s.chip.slot k).enter .awaitingGrant := by rw [hslot, if_pos rfl]
  have hother : ∀ j, j ≠ k → t.chip.slot j = s.chip.slot j := fun j hj => by rw [hslot, if_neg hj]
  obtain ⟨hstate, hterms, hswitch⟩ := Slot.enter_awaitingGrant (s.chip.slot k)
  rw [← hk] at hstate hterms hswitch
  exact ⟨t, hx, hstate, hterms, hswitch, hf.response, hf.request, hother, hf.engines, hf.hub, hf.inventory⟩

end Sys2Proof.Machine

/-!
PROOF. The frame of the judging of a draw (R52): the overdraw count and the OVERDRAW cause of a slot, and the grant the
draw is judged against. One lemma for each operation that a STATUS page or a failed POLL can reach says that it leaves
them alone. `PowerKeeps`, `FanKeeps` and `HubKeeps` do not serve here, as they allow the raising of any cause.
-/

namespace Sys2Proof.Machine

/-- What R52 judges and writes for a slot: the overdraw count and the OVERDRAW bit of its causes, and its grant. -/
def Chip.judged (c : Chip) (k : Fin 16) : (Nat × CauseSet) × Nat :=
  (((c.slot k).overdraw, causesOf (.slot k) c.port.alerts &&& Cause.overdraw.mask), (c.grant k).grant)

/-! ## The writes -/

/-- R187, R189: the cause set of an object after a raise into the index. -/
theorem causesOf_raiseIn (o o' : AlertObject) (m : CauseSet) (l : List AlertEntry) :
    causesOf o' (raiseIn o m l) = if o = o' then causesOf o' l ||| m else causesOf o' l := by
  induction l with
  | nil => by_cases h : o = o' <;> simp [raiseIn, causesOf, h]
  | cons e l ih =>
    by_cases he : e.object = o
    · subst he
      by_cases h : e.object = o' <;> simp [raiseIn, causesOf, h]
    · by_cases he' : e.object = o'
      · subst he'
        simp [raiseIn, causesOf, he, Ne.symm he]
      · simp [raiseIn, causesOf, he, he', ih]

/-- Table 69: no other cause of any object has the bit of OVERDRAW. -/
theorem Cause.mask_and_overdraw {x : Cause} (hx : x ≠ .overdraw) : x.mask &&& Cause.overdraw.mask = 0#16 := by
  cases x
  case overdraw => exact absurd rfl hx
  all_goals rfl

variable {k : Fin 16} {c : Chip}

/-- A raise of any cause but OVERDRAW. -/
@[simp] theorem raise_judged (o : AlertObject) {x : Cause} (hx : x ≠ .overdraw) :
    (raise o x c).judged k = c.judged k := by
  have hcauses : causesOf (.slot k) (raiseIn o x.mask c.port.alerts) &&& Cause.overdraw.mask =
      causesOf (.slot k) c.port.alerts &&& Cause.overdraw.mask := by
    rw [causesOf_raiseIn]
    split
    · rw [BitVec.and_comm, BitVec.and_or_distrib_left, BitVec.and_comm _ x.mask, Cause.mask_and_overdraw hx,
        BitVec.or_zero, BitVec.and_comm]
    · rfl
  exact congrArg (fun m => (((c.slot k).overdraw, m), (c.grant k).grant)) hcauses

@[simp] theorem setQueue_judged (q : List QueueEntry) : (setQueue q c).judged k = c.judged k := rfl
@[simp] theorem setShed_judged (l : List ShedEntry) : (setShed l c).judged k = c.judged k := rfl
@[simp] theorem setServiceDue_judged (b : Bool) : (setServiceDue b c).judged k = c.judged k := rfl
@[simp] theorem post_judged (m : Instr) : (post m c).judged k = c.judged k := rfl
@[simp] theorem modZone_judged (z : Fin 4) (f : Zone → Zone) : (modZone z f c).judged k = c.judged k := rfl
@[simp] theorem modFan_judged (i : Fin 8) (f : Fan → Fan) : (modFan i f c).judged k = c.judged k := rfl
@[simp] theorem setDrainSent_judged (j : Fin 16) (b : Bool) : (setDrainSent j b c).judged k = c.judged k := rfl
@[simp] theorem setChannel_judged (h : Fin 32) (ch : Option Channel) : (setChannel h ch c).judged k = c.judged k := rfl

/-- A grant record written with its grant as it was. -/
@[simp] theorem setGrant_judged {j : Fin 16} {g : GrantRecord} (hg : g.grant = (c.grant j).grant) :
    (setGrant j g c).judged k = c.judged k := by
  have h : ((setGrant j g c).grant k).grant = (c.grant k).grant := by
    rw [grant_setGrant]
    split
    · rw [hg, ‹k = j›]
    · rfl
  exact congrArg (Prod.mk (c.judged k).1) h

theorem modGrant_judged {j : Fin 16} {f : GrantRecord → GrantRecord} (hf : ∀ g, (f g).grant = g.grant) :
    (modGrant j f c).judged k = c.judged k := setGrant_judged (hf _)

/-- A slot record written with its overdraw count as it was. -/
theorem modSlot_judged {j : Fin 16} {f : Slot → Slot} (hf : ∀ s, (f s).overdraw = s.overdraw) :
    (modSlot j f c).judged k = c.judged k := by
  have h : ((modSlot j f c).slot k).overdraw = (c.slot k).overdraw := by
    rw [modSlot, slot_setSlot]
    split
    · rw [hf, ‹k = j›]
    · rfl
  exact congrArg (fun n => ((n, (c.judged k).1.2), (c.judged k).2)) h

/-- The slot link engine writes neither slot records, nor alerts, nor grants. -/
theorem engineKeeps_judged (c : Chip) (k : Fin 16) : EngineKeeps fun c' => c'.judged k = c.judged k :=
  ⟨fun _ _ h => h, fun _ _ h => h⟩

/-- Operations that each leave the judged figures leave them together. -/
theorem forEach_judged {α : Type} (l : List α) {f : α → Chip → Chip} (hf : ∀ a c, (f a c).judged k = c.judged k) :
    (forEach l f c).judged k = c.judged k :=
  forEach_keeps (P := fun c' => c'.judged k = c.judged k) l f (fun a c' h => (hf a c').trans h) c rfl

/-- Both arms of a choice leave the judged figures. -/
theorem ite_judged {b : Prop} [Decidable b] {x y : Chip} (hx : x.judged k = c.judged k) (hy : y.judged k = c.judged k) :
    (if b then x else y).judged k = c.judged k :=
  ite_keeps (P := fun c' => c'.judged k = c.judged k) hx hy

/-! ## The power unit -/

@[simp] theorem joinQueue_judged (j : Fin 16) (kind : QueueKind) (need : Nat) :
    (joinQueue j kind need c).judged k = c.judged k := rfl

@[simp] theorem leaveQueue_judged (j : Fin 16) : (leaveQueue j c).judged k = c.judged k := by
  unfold leaveQueue
  split <;> rfl

@[simp] theorem alignUplift_judged (j : Fin 16) : (alignUplift j c).judged k = c.judged k := by
  unfold alignUplift
  dsimp only
  split
  · split <;> rfl
  · split
    · split
      · exact leaveQueue_judged j
      · rfl
    · rfl

@[simp] theorem addReason_judged (r : CapReason) (j : Fin 16) : (addReason r j c).judged k = c.judged k := by
  unfold addReason
  dsimp only
  split
  · rfl
  · split
    · split <;> simp
    · simp

@[simp] theorem keepFloorReason_judged (j : Fin 16) : (keepFloorReason j c).judged k = c.judged k :=
  modGrant_judged fun g => by split <;> rfl

@[simp] theorem removeReason_judged (r : CapReason) (j : Fin 16) : (removeReason r j c).judged k = c.judged k := by
  unfold removeReason
  split
  · exact (alignUplift_judged j).trans ((keepFloorReason_judged j).trans (modGrant_judged fun _ => rfl))
  · rfl

@[simp] theorem requestThermal_judged (j : Fin 16) : (requestThermal j c).judged k = c.judged k := by
  unfold requestThermal
  split
  · exact addReason_judged _ _
  · rfl

@[simp] theorem capForShed_judged (j : Fin 16) : (capForShed j c).judged k = c.judged k := by
  unfold capForShed
  dsimp only
  split <;> simp

@[simp] theorem actHead_judged : (actHead c).judged k = c.judged k := by
  unfold actHead
  split
  · rfl
  · dsimp only
    split <;> simp

@[simp] theorem startShedding_judged : (startShedding c).judged k = c.judged k := by
  unfold startShedding
  split
  · split <;> simp
  · simp

/-- R90, R111 to R114: what the power unit does at the end of an event moves no grant. -/
@[simp] theorem settlePower_judged (before : Chip) (report : Bool) :
    (settlePower before report c).judged k = c.judged k := by
  unfold settlePower
  extract_lets c1 emptied more less c2
  have h2 : c2.judged k = c.judged k := ite_judged rfl rfl
  clear_value c2
  rw [← h2]
  split
  · split
    · split
      · split <;> simp
      · simp
    · split <;> simp
  · exact ite_judged rfl rfl

theorem powerEvent_judged (report : Bool) (f : Chip → Chip) : (powerEvent report f c).judged k = (f c).judged k :=
  settlePower_judged _ _

@[simp] theorem giveReservation_judged (f : Fin 8) (band rated : Nat) :
    (giveReservation f band rated c).judged k = c.judged k := powerEvent_judged _ _

@[simp] theorem powerOnSlot_judged (j : Fin 16) (new : SlotState) : (powerOnSlot j new c).judged k = c.judged k := by
  have hcap : (capAgain j c).judged k = c.judged k := by
    unfold capAgain
    dsimp only
    split <;> simp
  unfold powerOnSlot
  rw [powerEvent_judged, alignUplift_judged]
  split
  · exact (joinQueue_judged j _ _).trans (modGrant_judged fun _ => rfl)
  · exact modGrant_judged fun _ => rfl
  · exact hcap
  · rfl

/-- R94: a grant release writes the grant, and leaves the count and the cause. -/
theorem releaseGrant_judged (j : Fin 16) : ((releaseGrant j c).judged k).1 = (c.judged k).1 := by
  unfold releaseGrant
  rw [powerEvent_judged, setShed_judged, leaveQueue_judged]
  rfl

/-- R98, R100: an entry that is served has its grant written; the count and the cause stay. -/
theorem serveHead_judged {e : QueueEntry} {c' : Chip} (h : serveHead e c = some c') :
    (c'.judged k).1 = (c.judged k).1 := by
  unfold serveHead at h
  split at h
  · split at h
    · cases h; rfl
    · split at h
      · cases h; rfl
      · cases h
  · split at h
    · cases h; rfl
    · cases h

theorem serveQueue_judged (q : List QueueEntry) : ∀ c, ((serveQueue q c).judged k).1 = (c.judged k).1 := by
  induction q with
  | nil => exact fun c => rfl
  | cons e rest ih =>
    intro c
    unfold serveQueue
    split
    · rename_i h
      exact (ih _).trans (serveHead_judged h)
    · rfl

/-- R97: the service of the queue at an event's end writes grants, and leaves the count and the cause. -/
theorem queueService_judged (c : Chip) : ((queueService c).judged k).1 = (c.judged k).1 := by
  unfold queueService
  dsimp only
  rw [setServiceDue_judged, setQueue_judged]
  split
  · exact serveQueue_judged _ _
  · rfl

/-! ## The fan controller -/

@[simp] theorem reserve_judged (f : Fin 8) (step : Nat) : (reserve f step c).judged k = c.judged k := by
  unfold reserve
  simp

@[simp] theorem startSearch_judged (f : Fin 8) : (startSearch f c).judged k = c.judged k := rfl

@[simp] theorem enterCalibrating_judged (f : Fin 8) : (enterCalibrating f c).judged k = c.judged k := by
  unfold enterCalibrating
  simp

@[simp] theorem enterBoost_judged (f : Fin 8) : (enterBoost f c).judged k = c.judged k := by
  unfold enterBoost
  simp

@[simp] theorem enterPinned_judged (f : Fin 8) (band : Nat) : (enterPinned f band c).judged k = c.judged k := by
  unfold enterPinned
  simp

@[simp] theorem targetChange_judged (f : Fin 8) (t : Nat) : (targetChange f t c).judged k = c.judged k := by
  unfold targetChange
  dsimp only
  cases (c.fan f).state
  case calibrating | locked => exact ite_judged rfl rfl
  all_goals rfl

@[simp] theorem deliverTarget_judged (f : Fin 8) : (deliverTarget f c).judged k = c.judged k := by
  unfold deliverTarget
  split
  · rfl
  · split <;> simp

@[simp] theorem recomputeTarget_judged (z : Fin 4) : (recomputeTarget z c).judged k = c.judged k := by
  unfold recomputeTarget
  dsimp only
  split <;> simp

@[simp] theorem recomputeDemand_judged (z : Fin 4) : (recomputeDemand z c).judged k = c.judged k := by
  unfold recomputeDemand
  dsimp only
  split <;> simp

@[simp] theorem sendDrains_judged (z : Fin 4) : (sendDrains z c).judged k = c.judged k :=
  forEach_judged _ fun j c => by
    unfold sendDrain
    split <;> simp

@[simp] theorem boostFan_judged (f : Fin 8) : (boostFan f c).judged k = c.judged k := by
  unfold boostFan
  split <;> simp

@[simp] theorem beginEmergency_judged (z : Fin 4) : (beginEmergency z c).judged k = c.judged k := by
  unfold beginEmergency
  simp [forEach_judged]

@[simp] theorem unboostFan_judged (f : Fin 8) : (unboostFan f c).judged k = c.judged k := by
  unfold unboostFan
  split
  · split <;> simp
  · rfl

@[simp] theorem endEmergency_judged (z : Fin 4) : (endEmergency z c).judged k = c.judged k := by
  unfold endEmergency
  simp [forEach_judged]

@[simp] theorem evaluateZone_judged (z : Fin 4) : (evaluateZone z c).judged k = c.judged k := by
  unfold evaluateZone
  split
  · split
    · exact endEmergency_judged z
    · dsimp only
      split <;> simp
  · split
    · exact beginEmergency_judged z
    · rfl

@[simp] theorem refreshZone_judged (z : Fin 4) : (refreshZone z c).judged k = c.judged k := by
  unfold refreshZone
  simp

@[simp] theorem fanOnSlot_judged (j : Fin 16) (old new : SlotState) : (fanOnSlot j old new c).judged k = c.judged k := by
  unfold fanOnSlot
  extract_lets c1 c2
  have h1 : c1.judged k = c.judged k := ite_judged rfl rfl
  have h2 : c2.judged k = c.judged k := (refreshZone_judged _).trans h1
  split
  · split
    · exact (requestThermal_judged j).trans h2
    · exact h2
  · exact h1

/-- R50, R118: the fan controller's reading of a new margin moves no grant. -/
@[simp] theorem fanOnStatus_judged (j : Fin 16) : (fanOnStatus j c).judged k = c.judged k := by
  unfold fanOnStatus
  split <;> simp

/-! ## The uplink hub -/

@[simp] theorem freeing_judged (h : Fin 32) (f : Chip → Chip) : (freeing h f c).judged k = (f c).judged k := by
  unfold freeing
  dsimp only
  split <;> rfl

@[simp] theorem holdForSlot_judged (h : Fin 32) : (holdForSlot h c).judged k = c.judged k := by
  unfold holdForSlot flush
  split
  · rfl
  · exact freeing_judged _ _

@[simp] theorem autoPassChannel_judged (h : Fin 32) : (autoPassChannel h c).judged k = c.judged k := by
  unfold autoPassChannel
  split
  · rfl
  · split <;> simp

@[simp] theorem hubOnSlot_judged (j : Fin 16) (old new : SlotState) : (hubOnSlot j old new c).judged k = c.judged k := by
  have hstop : (hubStop j c).judged k = c.judged k := forEach_judged _ fun h _ => holdForSlot_judged h
  have hclear : ∀ c', (hubClearGrants j c').judged k = c'.judged k := fun _ => forEach_judged _ fun _ _ => rfl
  have hrun : ∀ c', (hubRunning j c').judged k = c'.judged k := fun _ =>
    forEach_judged _ fun h _ => autoPassChannel_judged h
  unfold hubOnSlot
  extract_lets c1
  have h1 : c1.judged k = c.judged k := ite_judged hstop rfl
  clear_value c1
  rw [← h1]
  cases new
  case empty | seated | interrogating | negotiating => exact hclear c1
  case running => exact hrun c1
  all_goals rfl

/-! ## The slot controller -/

/-- R3: an entry to any state but EMPTY and POWERING leaves the overdraw count. -/
theorem Slot.enter_overdraw (s : Slot) {new : SlotState} (h : new ≠ .empty ∧ new ≠ .powering) :
    (s.enter new).overdraw = s.overdraw := by
  simp [Slot.enter, h.1, h.2]

/-- A slot that enters a state other than EMPTY and POWERING keeps its overdraw count and OVERDRAW cause. -/
theorem enterState_judged (j : Fin 16) {new : SlotState} {own : Slot → Slot} (hn : new ≠ .empty ∧ new ≠ .powering)
    (ho : ∀ s, (own s).overdraw = s.overdraw) : ((enterState j new own c).judged k).1 = (c.judged k).1 := by
  have hgrant : ∀ old c', ((grantOnSlot j old new c').judged k).1 = (c'.judged k).1 := fun old c' => by
    unfold grantOnSlot
    split
    · exact releaseGrant_judged j
    · rfl
  have hengine : ∀ old c', (engineOnSlot j old new c').judged k = c'.judged k := fun old c' =>
    ite_judged ((engineKeeps_judged c' k).emptyEngine j rfl) (ite_judged rfl rfl)
  unfold enterState reportSlot
  dsimp only
  rw [hubOnSlot_judged, fanOnSlot_judged, powerOnSlot_judged, hgrant, hengine,
    modSlot_judged fun s => (ho _).trans (s.enter_overdraw hn)]

theorem toHeld_judged (j : Fin 16) (r : HoldReason) : ((toHeld j r c).judged k).1 = (c.judged k).1 :=
  (congrArg Prod.fst (raise_judged _ (by decide))).trans (enterState_judged j (by decide) fun _ => rfl)

theorem toInterrogating_judged (j : Fin 16) : ((toInterrogating j c).judged k).1 = (c.judged k).1 :=
  (congrArg Prod.fst ((engineKeeps_judged _ k).startInterrogation j rfl)).trans
    (enterState_judged j (by decide) fun _ => rfl)

theorem toOutcome_judged (j : Fin 16) (o : PdOutcome) : ((toOutcome j o c).judged k).1 = (c.judged k).1 := by
  cases o
  case interrogating => exact toInterrogating_judged j
  all_goals exact toHeld_judged j _

/-- Table 10: a power-down that completes raises no OVERDRAW. -/
theorem PdOutcome.alert_ne_overdraw {o : PdOutcome} {x : Cause} (h : o.alert = some x) : x ≠ .overdraw := by
  rintro rfl
  cases o <;> cases h

theorem completePowerDown_judged (j : Fin 16) : ((completePowerDown j c).judged k).1 = (c.judged k).1 := by
  unfold completePowerDown
  extract_lets o c1
  have h1 : (c1.judged k).1 = (c.judged k).1 :=
    ite_keeps (P := fun c' => (c'.judged k).1 = (c.judged k).1) (toOutcome_judged j o)
      (enterState_judged j (new := .seated) (by decide) fun _ => rfl)
  split
  · rename_i x hx
    rw [raise_judged _ (PdOutcome.alert_ne_overdraw hx), h1]
  · exact h1

/-- R17, R18: the end of a drain leaves the overdraw count and the OVERDRAW cause. -/
theorem endDrain_judged (j : Fin 16) : ((endDrain j c).judged k).1 = (c.judged k).1 := by
  unfold endDrain toPoweringDown
  extract_lets cause c1
  have h1 : (c1.judged k).1 = (c.judged k).1 := enterState_judged j (by decide) fun _ => rfl
  split
  · exact h1
  · exact (completePowerDown_judged j).trans h1

end Sys2Proof.Machine

/-!
PROOF. The overdraw count (R52): what an answered POLL makes of it, and that a failed one leaves it.
-/

namespace Sys2Proof.Machine

variable {k : Fin 16} {c : Chip}

/-- R52: the count and the OVERDRAW bit after a draw is judged against a grant. -/
def judgedAfter (draw : Nat) (j : (Nat × CauseSet) × Nat) : Nat × CauseSet :=
  (judgeDraw j.2 draw j.1.1,
    if j.1.1 = 2 ∧ judgeDraw j.2 draw j.1.1 = 3 then Cause.overdraw.mask else j.1.2)

/-- R52: a draw taken against the slot's grant. -/
theorem takeDraw_judged (draw : Nat) : ((takeDraw k draw c).judged k).1 = judgedAfter draw (c.judged k) := by
  have hcount : ∀ x, ((modSlot k (fun s => { s with overdraw := x }) c).slot k).overdraw = x := fun x => by
    rw [modSlot, slot_setSlot_self]
  have hraised : ∀ c', causesOf (.slot k) (raise (.slot k) .overdraw c').port.alerts &&& Cause.overdraw.mask =
      Cause.overdraw.mask := fun c' => by
    show causesOf (.slot k) (raiseIn (.slot k) Cause.overdraw.mask c'.port.alerts) &&& _ = _
    rw [causesOf_raiseIn, if_pos rfl]
    ext i
    simp +contextual
  unfold takeDraw
  extract_lets old new c1
  by_cases h : old = 2 ∧ new = 3
  · rw [if_pos h]
    exact congrArg₂ Prod.mk (hcount new) ((hraised c1).trans (if_pos h).symm)
  · rw [if_neg h]
    exact congrArg₂ Prod.mk (hcount new) (if_neg h).symm

/-- R50, R52: of an answered POLL only the draw bears on the overdraw count and the OVERDRAW cause: neither the fan
controller's part, nor the fault code, nor the end of a drain. -/
theorem takeStatus_judged (st : BladeStatus) :
    ((takeStatus k st c).judged k).1 = judgedAfter st.measured (c.judged k) := by
  unfold takeStatus
  extract_lets c1 c2
  have h1 : (c1.judged k).1 = judgedAfter st.measured (c.judged k) :=
    (takeDraw_judged st.measured).trans
      (congrArg _ ((fanOnStatus_judged k).trans (modSlot_judged fun _ => rfl)))
  have h2 : (c2.judged k).1 = (c1.judged k).1 :=
    ite_keeps (P := fun c' => (c'.judged k).1 = (c1.judged k).1) (congrArg Prod.fst (raise_judged _ (by decide))) rfl
  refine Eq.trans ?_ (h2.trans h1)
  split
  · exact endDrain_judged k
  · rfl

/-- R51, R52: a failed POLL leaves the overdraw count. -/
theorem takeSilence_judged : (takeSilence k c).judged k = c.judged k := by
  unfold takeSilence
  extract_lets old c1
  have h1 : c1.judged k = c.judged k := modSlot_judged fun _ => rfl
  split
  · rw [fanOnStatus_judged, raise_judged _ (by decide)]
    refine (modSlot_judged ?_).trans h1
    exact fun _ => rfl
  · exact h1

/-- R33: a POLL that fails, for whatever reason, leaves the overdraw count. -/
theorem pollFailed_judged {x : PageRequest} (hx : x = .poll) (r : HoldReason) :
    (c |> endExchange k true |> exchangeFailed k x r).judged k = c.judged k := by
  subst hx
  exact takeSilence_judged.trans ((engineKeeps_judged c k).endExchange k true rfl)

theorem exec_slotPageReceived (k : Fin 16) (page : List Byte) (s : State) :
    exec (.slotPageReceived k page) s = .next (s.onChip (queueService (slotPage k page s.chip))) := rfl

theorem exec_slotResponseTimeout (k : Fin 16) (s : State) :
    exec (.slotResponseTimeout k) s = .next (s.onChip (queueService (slotTimeout k s.chip))) := rfl

/-- The link's next choice and the queue service, which end every event of a link, leave the count and the cause. -/
theorem eventEnd_judged (c : Chip) : ((queueService (arbitrate k c)).judged k).1 = (c.judged k).1 := by
  rw [queueService_judged, (engineKeeps_judged c k).arbitrate k rfl]

/-- R191: the check of a received message passes when its bytes sum to 0. -/
theorem checkPasses_iff {page : List Byte} : checkPasses page = true ↔ byteSum page = 0 := decide_eq_true_iff

theorem slotPage_of_inFlight {x : Exchange} (page : List Byte) (hx : (c.engine k).inFlight = some x) :
    slotPage k page c =
      arbitrate k (if checkPasses page then takePage k x (readPage page) c else takeTimeout k x c) := by
  unfold slotPage
  rw [hx]
  dsimp only
  split <;> rfl

theorem slotTimeout_of_inFlight {x : Exchange} (hx : (c.engine k).inFlight = some x) :
    slotTimeout k c = arbitrate k (takeTimeout k x c) := by
  unfold slotTimeout
  rw [hx]

/-- R31, R52: an attempt 2 that is not answered fails the POLL. -/
theorem takeTimeout_poll_judged {x : Exchange} (hp : x.request = .poll) (hs : x.second = true) :
    (takeTimeout k x c).judged k = c.judged k := by
  unfold takeTimeout
  rw [if_pos hs]
  exact pollFailed_judged hp _

theorem takePage_poll {x : Exchange} (hp : x.request = .poll) (p : Page) : takePage k x p c = statusPage k x p c := by
  unfold takePage
  rw [hp]

/-- R32: a page of another kind or length is no STATUS page. -/
theorem Page.status_eq_none {p : Page} (n : Nat) (h : p.kind ≠ 20 ∨ p.payload.length ≠ 4) : p.status n = none := by
  unfold Page.status
  split
  · rename_i hl
    exact if_neg (h.resolve_right fun hn => hn (by rw [hl]; rfl))
  · rfl

/-- R32, R52: a page of another kind or length fails the POLL. -/
theorem statusPage_none_judged {x : Exchange} {p : Page} (hp : x.request = .poll) (h : p.status c.statusPages = none) :
    (statusPage k x p c).judged k = c.judged k := by
  unfold statusPage
  rw [h]
  exact pollFailed_judged hp _

theorem statusPage_some_judged {x : Exchange} {p : Page} {st : BladeStatus} (h : p.status c.statusPages = some st) :
    ((statusPage k x p c).judged k).1 = judgedAfter st.measured (c.judged k) := by
  unfold statusPage
  rw [h]
  exact takeStatus_judged st

/-- R50, Table 73: the draw that a STATUS page of eight bytes carries, when it is in its range. -/
theorem status_measured (n : Nat) (flags margin halted check : Byte) {d1 d0 : Byte}
    (h : d1.toNat * 256 + d0.toNat ≤ 4095) :
    ∃ st, (readPage [20, flags, 4, margin, d1, d0, halted, check]).status n = some st ∧
      st.measured = d1.toNat * 256 + d0.toNat := by
  have hn : number [d1, d0] = d1.toNat * 256 + d0.toNat := by simp [number]
  refine ⟨_, rfl, ?_⟩
  show (if number [d1, d0] ≤ 4095 then number [d1, d0] else _) = _
  rw [hn, if_pos h]

/-- R52: an answered POLL. -/
theorem slotPage_status_judged {x : Exchange} (hx : (c.engine k).inFlight = some x) (hp : x.request = .poll)
    (flags margin halted check : Byte) {d1 d0 : Byte} (hd : d1.toNat * 256 + d0.toNat ≤ 4095)
    (hsum : byteSum [20, flags, 4, margin, d1, d0, halted, check] = 0) :
    ((queueService (slotPage k [20, flags, 4, margin, d1, d0, halted, check] c)).judged k).1 =
      judgedAfter (d1.toNat * 256 + d0.toNat) (c.judged k) := by
  obtain ⟨st, hst, hm⟩ := status_measured c.statusPages flags margin halted check hd
  rw [slotPage_of_inFlight _ hx, eventEnd_judged, if_pos (checkPasses_iff.2 hsum), takePage_poll hp,
    statusPage_some_judged hst, hm]

/-- R31, R52: a POLL that expires at attempt 2. -/
theorem slotTimeout_poll_judged {x : Exchange} (hx : (c.engine k).inFlight = some x) (hp : x.request = .poll)
    (hs : x.second = true) : ((queueService (slotTimeout k c)).judged k).1 = (c.judged k).1 := by
  rw [slotTimeout_of_inFlight hx, eventEnd_judged, takeTimeout_poll_judged hp hs]

/-- R31, R52: a POLL that fails its check at attempt 2. -/
theorem slotPage_badCheck_judged {x : Exchange} {page : List Byte} (hx : (c.engine k).inFlight = some x)
    (hp : x.request = .poll) (hs : x.second = true) (hsum : byteSum page ≠ 0) :
    ((queueService (slotPage k page c)).judged k).1 = (c.judged k).1 := by
  rw [slotPage_of_inFlight _ hx, eventEnd_judged, if_neg (mt checkPasses_iff.1 hsum), takeTimeout_poll_judged hp hs]

/-- R32, R52: a POLL answered by a page of another kind or length. -/
theorem slotPage_otherPage_judged {x : Exchange} {page : List Byte} (hx : (c.engine k).inFlight = some x)
    (hp : x.request = .poll) (hsum : byteSum page = 0)
    (hpage : (readPage page).kind ≠ 20 ∨ (readPage page).payload.length ≠ 4) :
    ((queueService (slotPage k page c)).judged k).1 = (c.judged k).1 := by
  rw [slotPage_of_inFlight _ hx, eventEnd_judged, if_pos (checkPasses_iff.2 hsum), takePage_poll hp,
    statusPage_none_judged hp (Page.status_eq_none _ hpage)]

/-! ## The three rows of R52 -/

section Rows

variable {draw grant count : Nat} {cause : CauseSet}

theorem judgedAfter_within (h : draw ≤ grant) : judgedAfter draw ((count, cause), grant) = (0, cause) := by
  simp [judgedAfter, judgeDraw, h]

theorem judgedAfter_tolerated (h : grant < draw) (h' : draw * 10 ≤ grant * 11) :
    judgedAfter draw ((count, cause), grant) = (count, cause) := by
  have hj : judgeDraw grant draw count = count := by rw [judgeDraw, if_neg (Nat.not_le.2 h), if_pos h']
  have hc : ¬ (count = 2 ∧ count = 3) := by omega
  rw [judgedAfter, hj, if_neg hc]

theorem judgedAfter_beyond (h : grant * 11 < draw * 10) :
    judgedAfter draw ((count, cause), grant) =
      (min 3 (count + 1), if count = 2 then Cause.overdraw.mask else cause) := by
  have hj : judgeDraw grant draw count = min 3 (count + 1) := by
    rw [judgeDraw, if_neg (by omega), if_neg (by omega)]
  have hc : (count = 2 ∧ min 3 (count + 1) = 3) ↔ count = 2 := by omega
  simp only [judgedAfter, hj, hc]

end Rows

/-- Settles O19, from the frame of the judged figures and the three rows of R52. -/
theorem overdrawIsCounted : Obligations.OverdrawIsCounted := by
  intro s k x _ hx hp
  refine ⟨fun flags margin d1 d0 halted check hsum hd => ⟨_, exec_slotPageReceived .., ?_⟩,
    fun hs => ⟨_, exec_slotResponseTimeout .., congrArg Prod.fst (slotTimeout_poll_judged hx hp hs)⟩,
    fun page hs hsum => ⟨_, exec_slotPageReceived .., congrArg Prod.fst (slotPage_badCheck_judged hx hp hs hsum)⟩,
    fun page hsum hpage =>
      ⟨_, exec_slotPageReceived .., congrArg Prod.fst (slotPage_otherPage_judged hx hp hsum hpage)⟩⟩
  have hj := slotPage_status_judged hx hp flags margin halted check hd hsum
  refine ⟨fun h => Prod.mk.inj (hj.trans (judgedAfter_within h)),
    fun h h' => Prod.mk.inj (hj.trans (judgedAfter_tolerated h h')), fun h => ?_⟩
  obtain ⟨hcount, hcause⟩ := Prod.mk.inj (hj.trans (judgedAfter_beyond h))
  exact ⟨hcount, fun h2 => hcause.trans (if_pos h2), fun h2 => hcause.trans (if_neg h2)⟩

end Sys2Proof.Machine

/-!
PROOF. RETIRE of an inventory record (R63): what the inventory unit makes of a key that names a record, and the handle's
old generation after the record has gone.
-/

namespace Sys2Proof.Machine

variable {c : Chip} {key : InvKey} {h : Fin 48} {r : InvRecord}

/-- R56: the epoch key names no record. -/
theorem ne_epoch_of_resolve_found (hf : c.resolve key = .found h r) : key ≠ .epoch := by
  rintro rfl
  cases hf

/-- R56: a key is resolved by the inventory alone, so the taking of its request does not bear on it. -/
theorem resolve_opened (c : Chip) (i : Instr) (key : InvKey) : (c.opened i).resolve key = c.resolve key := by
  cases key <;> rfl

/-- R56: a handle key with another generation than the handle's own is stale. -/
theorem resolve_handle_stale {g : Byte} (hg : (c.invHandle h).generation ≠ g) :
    c.resolve (.handle h g) = .stale (c.invHandle h).generation (c.invHandle h).record.isSome := if_pos hg

/-- R63: RETIRE by a key that names a record, by the record's state. -/
theorem retireInventoryOwner_of_found (hf : c.resolve key = .found h r) :
    retireInventoryOwner key c =
      if r.present then refuse .state c else (retireHandle h c, Status.alone .ok) := by
  rw [retireInventoryOwner, if_neg (ne_epoch_of_resolve_found hf), hf]

/-- R63: the handle of a retired record is free, with the next generation. -/
theorem invHandle_retireHandle_self (h : Fin 48) (c : Chip) :
    (retireHandle h c).invHandle h = { generation := (c.invHandle h).generation + 1, record := none } :=
  invHandle_setInvHandle_self ..

/-- R56, R63: a handle key with the generation before the retirement is stale after it. -/
theorem resolve_retireHandle_old (h : Fin 48) (c : Chip) :
    (retireHandle h c).resolve (.handle h (c.invHandle h).generation) =
      .stale ((c.invHandle h).generation + 1) false := by
  have hnext : (c.invHandle h).generation + 1 ≠ (c.invHandle h).generation := by bv_omega
  rw [resolve_handle_stale (by rwa [invHandle_retireHandle_self]), invHandle_retireHandle_self]
  rfl

theorem exec_retireInventory (key : InvKey) (s : State) :
    exec (.retireInventory key) s = taken (takeRequest (.retireInventory key) (retireInventoryOwner key)) s := rfl

/-- R63: a DEPARTED record is retired and the answer is OK. -/
theorem exec_retireInventory_departed {s : State} (hq : s.chip.quiescent) (ht : s.chip.takes (.retireInventory key))
    (hf : s.chip.resolve key = .found h r) (hp : r.present = false) :
    exec (.retireInventory key) s = .next (s.onChip ((retireHandle h s.chip).answered (.retireInventory key)
      { status := .ok, result := [] })) := by
  rw [exec_retireInventory]
  refine taken_answered ht hq ?_
  rw [retireInventoryOwner_of_found ((resolve_opened ..).trans hf), hp]
  rfl

/-- R63: a PRESENT record cannot be retired: the answer is STATE, and nothing but the port changes. -/
theorem exec_retireInventory_present {s : State} (hq : s.chip.quiescent) (ht : s.chip.takes (.retireInventory key))
    (hf : s.chip.resolve key = .found h r) (hp : r.present = true) :
    exec (.retireInventory key) s =
      .next (s.onChip (s.chip.answered (.retireInventory key) { status := .state, result := [] })) := by
  rw [exec_retireInventory]
  refine taken_answered ht hq ?_
  rw [retireInventoryOwner_of_found ((resolve_opened ..).trans hf), hp]
  rfl

/-- Settles O43, by the record's state, and for a retired one by its handle's old generation. -/
theorem retireInventoryByState : Obligations.RetireInventoryByState := by
  intro s key h r hq hf i ht
  refine ⟨exec_retireInventory_departed hq ht hf, fun hp t hx => ?_, exec_retireInventory_present hq ht hf⟩
  cases (exec_retireInventory_departed hq ht hf hp).symm.trans hx
  exact resolve_retireHandle_old h s.chip

end Sys2Proof.Machine

/-!
PROOF. COMMIT_CURVE (R117): the checks on the staged curve as the rule words them, and what the recomputation of a zone's
target (R120, R121) reaches: the zone's own record, and fan records of which one in BOOST keeps its band.
-/

namespace Sys2Proof

/-- Of two writes to one key the last stands. -/
@[simp] theorem Bank.put_put {n : Nat} {α : Type} (b : Bank n α) (i : Fin n) (x y : α) :
    (b.put i x).put i y = b.put i y := Vector.set_set ..

namespace Machine

variable {c c' c'' : Chip} {f : Fin 8} {z : Fin 4}

@[simp] theorem setZone_zone (z : Fin 4) (c : Chip) : setZone z (c.zone z) c = c := by
  show { c with fans := { c.fans with zones := c.fans.zones.put z (c.fans.zones.read z) } } = c
  rw [Bank.put_read]

@[simp] theorem setZone_setZone (z : Fin 4) (x y : Zone) (c : Chip) : setZone z y (setZone z x c) = setZone z y c := by
  show { c with fans := { c.fans with zones := (c.fans.zones.put z x).put z y } } = _
  rw [Bank.put_put]
  rfl

/-! ## The checks -/

/-- R117: the speeds are from 500 to 30000 rpm, and from point to point the margins fall and the speeds do not. -/
theorem Curve.committable_iff {q : Curve} :
    q.committable = true ↔ (∀ j : Fin 6, 500 ≤ (q.read j).speed ∧ (q.read j).speed ≤ 30000) ∧
      ∀ j : Fin 5, (q.read j.succ).margin < (q.read j.castSucc).margin ∧
        (q.read j.castSucc).speed ≤ (q.read j.succ).speed := by
  simp [Curve.committable, keys, List.mem_finRange]

/-! ## What a new target reaches -/

/-- The second part differs from the first in fan records alone, and a fan in BOOST stays in it with its band. -/
structure Chip.Retargeted (c c' : Chip) : Prop where
  frame : c' = { c with fans := { c.fans with fans := c'.fans.fans } }
  boost : ∀ f, (c.fan f).state = .boost → (c'.fan f).state = .boost ∧ (c'.fan f).band = (c.fan f).band

namespace Chip.Retargeted

theorem refl (c : Chip) : c.Retargeted c := ⟨rfl, fun _ h => ⟨h, rfl⟩⟩

theorem trans (h : c.Retargeted c') (h' : c'.Retargeted c'') : c.Retargeted c'' where
  frame := by rw [h'.frame, h.frame]
  boost f hf := by
    obtain ⟨hstate, hband⟩ := h.boost f hf
    obtain ⟨hstate', hband'⟩ := h'.boost f hstate
    exact ⟨hstate', hband'.trans hband⟩

theorem zone (h : c.Retargeted c') (z : Fin 4) : c'.zone z = c.zone z := by rw [h.frame]; rfl
theorem slots (h : c.Retargeted c') : c'.slots = c.slots := by rw [h.frame]
theorem power (h : c.Retargeted c') : c'.power = c.power := by rw [h.frame]

end Chip.Retargeted

/-- A write of one fan's record that leaves BOOST and its band. -/
theorem modFan_retargeted {g : Fan → Fan} (hg : (c.fan f).state = .boost →
    (g (c.fan f)).state = .boost ∧ (g (c.fan f)).band = (c.fan f).band) : c.Retargeted (modFan f g c) := by
  refine ⟨rfl, fun f' hb => ?_⟩
  rw [modFan, fan_setFan]
  split
  · subst f'
    exact hg hb
  · exact ⟨hb, rfl⟩

/-- Any write of the record of a fan that is not in BOOST. -/
theorem modFan_retargeted_of_ne (g : Fan → Fan) (h : (c.fan f).state ≠ .boost) : c.Retargeted (modFan f g c) :=
  modFan_retargeted fun hb => absurd hb h

/-- R121, R135: a target change writes the fan's record alone, and in BOOST its target alone. -/
theorem targetChange_retargeted (f : Fin 8) (t : Nat) (c : Chip) : c.Retargeted (targetChange f t c) := by
  unfold targetChange
  extract_lets old c1
  have h1 : c.Retargeted c1 := modFan_retargeted fun hb => ⟨hb, rfl⟩
  have hstate : (c1.fan f).state = old.state := by simp [c1, old, modFan]
  have hwrite : ∀ g : Fan → Fan, old.state ≠ .boost → c.Retargeted (modFan f g c1) := fun g hne =>
    h1.trans (modFan_retargeted_of_ne g (hstate ▸ hne))
  cases hs : old.state with
  | calibrating => exact ite_keeps (hwrite _ (by simp [hs])) h1
  | tracking => exact hwrite _ (by simp [hs])
  | locked => exact ite_keeps (hwrite _ (by simp [hs])) h1
  | absent | identifying | pinned | boost | failed => exact h1

theorem deliverTarget_retargeted (f : Fin 8) (c : Chip) : c.Retargeted (deliverTarget f c) :=
  ite_keeps (.refl c) (ite_keeps (.refl c) (targetChange_retargeted ..))

/-- R120: the zone's target is the one its demand and active curve give, delivered or held already. -/
theorem recomputeTarget_retargeted (z : Fin 4) (c : Chip) :
    (modZone z (fun r => { r with target := targetFor r.active r.demand }) c).Retargeted (recomputeTarget z c) := by
  by_cases h : targetFor (c.zone z).active (c.zone z).demand = (c.zone z).target
  · have hheld : modZone z (fun r => { r with target := targetFor r.active r.demand }) c = c := by
      rw [modZone, h, setZone_zone]
    rw [recomputeTarget, if_pos h, hheld]
    exact .refl c
  · rw [recomputeTarget, if_neg h]
    exact (deliverTarget_retargeted (firstFan z) _).trans (deliverTarget_retargeted (secondFan z) _)

/-! ## The order -/

/-- R117: a zone whose staged curve is made the active one, with the target that follows it. -/
def Zone.committed (r : Zone) : Zone := { r with active := r.staged, target := targetFor r.staged r.demand }

/-- R117: a curve that passes the checks is committed, and the new target is delivered. -/
theorem commitCurve_of_committable (h : (c.zone z).staged.committable = true) :
    (modZone z Zone.committed c).Retargeted (commitCurve z c).1 ∧ (commitCurve z c).2 = .ok := by
  rw [commitCurve, if_pos h]
  have hr := recomputeTarget_retargeted z (modZone z (fun r => { r with active := r.staged }) c)
  rw [modZone, modZone, setZone_setZone, zone_setZone_self] at hr
  exact ⟨hr, rfl⟩

theorem commitCurve_of_not_committable (h : ¬ (c.zone z).staged.committable = true) :
    commitCurve z c = (c, .invalid) := if_neg h

theorem exec_orderCommitCurve (z : Fin 4) (s : State) :
    exec (.orderCommitCurve z) s =
      taken (takeRequest (.orderCommitCurve z) fun c => statusOnly (commitCurve z c)) s := rfl

/-- R117: the accepted order ends in the committed zone and fans that took its target, answered OK. -/
theorem exec_orderCommitCurve_ok {s : State} (hq : s.chip.quiescent) (ht : s.chip.takes (.orderCommitCurve z))
    (h : (s.chip.zone z).staged.committable = true) :
    ∃ t, exec (.orderCommitCurve z) s = .next t ∧
      ((modZone z Zone.committed s.chip).answered (.orderCommitCurve z) { status := .ok, result := [] }).Retargeted
        t.chip := by
  obtain ⟨hr, hok⟩ := commitCurve_of_committable (c := s.chip.opened (.orderCommitCurve z)) h
  rw [exec_orderCommitCurve, taken_of_takes _ ht, statusOnly, hok]
  generalize (commitCurve z (s.chip.opened (.orderCommitCurve z))).1 = c' at hr
  have hp : c'.power = s.chip.power := hr.power
  rw [queueService_of_settled (c := writeAnswer _ (c', _)) (hp ▸ hq.1) (hp ▸ hq.2)]
  refine ⟨_, rfl, ?_, hr.boost⟩
  rw [hr.frame]
  rfl

/-- R117: a curve that fails a check is refused with INVALID, and nothing but the port changes. -/
theorem exec_orderCommitCurve_invalid {s : State} (hq : s.chip.quiescent) (ht : s.chip.takes (.orderCommitCurve z))
    (h : ¬ (s.chip.zone z).staged.committable = true) :
    exec (.orderCommitCurve z) s =
      .next (s.onChip (s.chip.answered (.orderCommitCurve z) { status := .invalid, result := [] })) := by
  rw [exec_orderCommitCurve]
  refine taken_answered ht hq ?_
  rw [commitCurve_of_not_committable (c := s.chip.opened (.orderCommitCurve z)) h]
  rfl

/-- Settles O50, by the checks of R117: the frame of an accepted commit, and the refusal. -/
theorem commitCurveChecksStaged : Obligations.CommitCurveChecksStaged := by
  refine fun s z hq ht => ⟨fun hgood => ?_, fun hbad =>
    exec_orderCommitCurve_invalid hq ht (mt Curve.committable_iff.1 hbad)⟩
  obtain ⟨t, hx, hr⟩ := exec_orderCommitCurve_ok hq ht (Curve.committable_iff.2 hgood)
  have hzone : ∀ z', t.chip.zone z' = if z' = z then (s.chip.zone z).committed else s.chip.zone z' := fun z' =>
    (hr.zone z').trans (zone_setZone z z' _ _)
  have hresponse : t.chip.port.response = some (answerMessage (.orderCommitCurve z) { status := .ok, result := [] }) := by
    rw [hr.frame]
    rfl
  exact ⟨t, hx, (hzone z).trans (if_pos rfl), hresponse, fun z' hz => (hzone z').trans (if_neg hz), hr.slots, hr.power,
    hr.boost⟩

end Machine

end Sys2Proof

/-!
PROOF. ORDER PASS and ORDER HOLD (R157): what the hub judges of a channel, one equation for each row of the rule's table,
and the orders answered on it.
-/

namespace Sys2Proof.Machine

/-! ## The parts of the judgment -/

/-- Writing a channel's own record back changes nothing. -/
theorem setChannel_of_channel {h : Fin 32} {x : Option Channel} {c : Chip} (hc : c.channel h = x) : setChannel h x c = c := by
  subst hc
  show { c with hub := { c.hub with channels := c.hub.channels.put h (c.hub.channels.read h) } } = c
  rw [Bank.put_read]

/-- R168: an uplink is usable with its link up and its admin field ENABLED. -/
theorem Chip.usable_iff {c : Chip} {u : Fin 2} :
    c.usable u = true ↔ (c.uplink u).link = true ∧ (c.uplink u).admin = true := by
  rw [Chip.usable, Uplink.usable, Bool.and_eq_true]

/-- R156: a channel may be in PASS when it is granted and its slot is RUNNING or DRAINING. -/
theorem Chip.mayCarry_iff {c : Chip} {ch : Channel} :
    c.mayCarry ch = true ↔
      ch.granted = true ∧ ((c.slot ch.slot).state = .running ∨ (c.slot ch.slot).state = .draining) := by
  rw [Chip.mayCarry, SlotState.isCounted, Bool.and_eq_true, decide_eq_true_eq]

section

variable {c : Chip} {h : Fin 32} {ch : Channel}

theorem passUplink_of_usable (hu : c.usable ch.active = true) : c.passUplink ch = some ch.active := if_pos hu

theorem passUplink_of_fallback (hu : ¬ c.usable ch.active = true) (hf : ch.fallback = true)
    (ho : c.usable (otherUplink ch.active) = true) : c.passUplink ch = some (otherUplink ch.active) := by
  rw [Chip.passUplink, if_neg hu, if_pos (Bool.and_eq_true_iff.2 ⟨hf, ho⟩)]

theorem passUplink_eq_none (hu : ¬ c.usable ch.active = true)
    (ho : ¬ (ch.fallback = true ∧ c.usable (otherUplink ch.active) = true)) : c.passUplink ch = none := by
  rw [Chip.passUplink, if_neg hu, if_neg (mt Bool.and_eq_true_iff.1 ho)]

/-! ## The rows of R157 -/

theorem passChannel_of_pass (hc : c.channel h = some ch) (hs : ch.state = .pass) : passChannel h c = (c, .ok) := by
  simp only [passChannel, hc, hs]

theorem passChannel_of_bar (hc : c.channel h = some ch) (hs : ch.state = .bar) : passChannel h c = (c, .state) := by
  simp only [passChannel, hc, hs]

theorem passChannel_of_hold (hc : c.channel h = some ch) (hs : ch.state = .hold) {u : Fin 2}
    (hm : c.mayCarry ch = true) (hu : c.passUplink ch = some u) :
    passChannel h c = (setChannel h (some (ch.passOn u)) c, .ok) := by
  simp only [passChannel, hc, hs, hm, hu, if_true]

/-- R157: a channel in HOLD that may not be in PASS, or has no uplink to pass on, stays as it is. -/
theorem passChannel_of_hold_refused (hc : c.channel h = some ch) (hs : ch.state = .hold)
    (hr : c.mayCarry ch = true → c.passUplink ch = none) : passChannel h c = (c, .state) := by
  by_cases hm : c.mayCarry ch = true
  · simp only [passChannel, hc, hs, hm, hr hm, if_true]
  · simp only [passChannel, hc, hs, if_neg hm]

theorem holdChannel_of_channel (hc : c.channel h = some ch) :
    holdChannel h c = (setChannel h (some (ch.hold .host)) c, .ok) := by
  simp only [holdChannel, hc]

end

/-! ## The orders, answered -/

section

variable {s : State} {h : Fin 32} {ch : Channel}

/-- An order whose owner leaves the part between events ends in that part, answered with the status alone. -/
theorem takenOrder_answered {i : Instr} {owner : Chip → Chip × Status} {c : Chip} {x : Status} (ht : s.chip.takes i)
    (hq : c.quiescent) (ho : owner (s.chip.opened i) = (c.opened i, x)) :
    takenOrder i owner s = .next (s.onChip (c.answered i { status := x, result := [] })) := by
  refine taken_answered ht hq ?_
  rw [ho]
  rfl

/-- R157: PASS of a channel in HOLD that may be in PASS, on the uplink found for it. -/
theorem exec_orderPass_ok {u : Fin 2} (hq : s.chip.quiescent) (ht : s.chip.takes (.orderPass h))
    (hc : s.chip.channel h = some ch) (hs : ch.state = .hold) (hm : s.chip.mayCarry ch = true)
    (hu : s.chip.passUplink ch = some u) :
    exec (.orderPass h) s = .next (s.onChip
      ((setChannel h (some (ch.passOn u)) s.chip).answered (.orderPass h) { status := .ok, result := [] })) :=
  takenOrder_answered (c := setChannel h (some (ch.passOn u)) s.chip) ht hq
    (passChannel_of_hold (c := s.chip.opened (.orderPass h)) hc hs hm hu)

/-- R157: PASS that leaves the channel as it is changes nothing but the port. -/
theorem exec_orderPass_unchanged {x : Status} (hq : s.chip.quiescent) (ht : s.chip.takes (.orderPass h))
    (hx : passChannel h (s.chip.opened (.orderPass h)) = (s.chip.opened (.orderPass h), x)) :
    exec (.orderPass h) s = .next (s.onChip (s.chip.answered (.orderPass h) { status := x, result := [] })) :=
  takenOrder_answered ht hq hx

/-- R157: HOLD of a channel in any state. -/
theorem exec_orderHold (hq : s.chip.quiescent) (ht : s.chip.takes (.orderHold h)) (hc : s.chip.channel h = some ch) :
    exec (.orderHold h) s = .next (s.onChip
      ((setChannel h (some (ch.hold .host)) s.chip).answered (.orderHold h) { status := .ok, result := [] })) :=
  takenOrder_answered (c := setChannel h (some (ch.hold .host)) s.chip) ht hq
    (holdChannel_of_channel (c := s.chip.opened (.orderHold h)) hc)

end

/-- Settles O52, row by row of the table of R157. -/
theorem passAndHoldByState : Obligations.PassAndHoldByState := by
  intro s h ch hq hc
  simp only [← Chip.usable_iff, ← Chip.mayCarry_iff]
  have hrefused (ht : s.chip.takes (.orderPass h)) (hs : ch.state = .hold)
      (hr : s.chip.mayCarry ch = true → s.chip.passUplink ch = none) :=
    exec_orderPass_unchanged hq ht (passChannel_of_hold_refused (c := s.chip.opened (.orderPass h)) hc hs hr)
  refine ⟨fun ht => ⟨fun hs hm hu => ?own, fun hs hm hu hf ho => ?other, fun hs hm => ?mayNot, fun hs hm hu ho => ?noUplink,
    fun hs => ?pass, fun hs => ?bar⟩, fun ht => exec_orderHold hq ht hc⟩
  case own => exact exec_orderPass_ok hq ht hc hs hm (passUplink_of_usable hu)
  case other => exact exec_orderPass_ok hq ht hc hs hm (passUplink_of_fallback hu hf ho)
  case mayNot => exact hrefused ht hs fun hm' => absurd hm' hm
  case noUplink => exact hrefused ht hs fun _ => passUplink_eq_none hu ho
  case pass =>
    rw [setChannel_of_channel hc]
    exact exec_orderPass_unchanged hq ht (passChannel_of_pass (c := s.chip.opened (.orderPass h)) hc hs)
  case bar => exact exec_orderPass_unchanged hq ht (passChannel_of_bar (c := s.chip.opened (.orderPass h)) hc hs)

end Sys2Proof.Machine

/-!
PROOF. The keeping of a property by a block's operations, where it is not kept by every write of the block: a property that
the fan controller's, the hub's and the port's own operations keep, and the writes of the other blocks do not disturb, is
kept by every command. The invariants of the fans, the channels and the port are of this kind.
-/

namespace Sys2Proof.Machine

/-- The operations of the fan controller that events reach. -/
structure FanOpsKeep (P : Chip → Prop) : Prop where
  fanOnSlot : ∀ k old new c, P c → P (fanOnSlot k old new c)
  fanOnStatus : ∀ k c, P c → P (fanOnStatus k c)
  fanArrival : ∀ f c, P c → P (fanArrival f c)
  fanIdentity : ∀ f r rated speed pulses c, P c → P (fanIdentity f r rated speed pulses c)
  fanReadFailed : ∀ f c, P c → P (fanReadFailed f c)
  fanRemoval : ∀ f c, P c → P (fanRemoval f c)
  settleEnded : ∀ f c, P c → P (settleEnded f c)
  windowEnded : ∀ f pulses c, P c → P (windowEnded f pulses c)
  releaseExpired : ∀ f c, P c → P (releaseExpired f c)
  modZone : ∀ z g c, P c → P (modZone z g c)
  graceExpired : ∀ z c, P c → P (graceExpired z c)
  commitCurve : ∀ z c, P c → P (commitCurve z c).1
  pinFan : ∀ f band c, P c → P (pinFan f band c).1
  unpinFan : ∀ f c, P c → P (unpinFan f c).1
  retryFan : ∀ f c, P c → P (retryFan f c).1
  fanSettings : ∀ old every c, P c → P (fanSettings old every c)
  restartFans : ∀ c, P c → P (restartFans c)

/-- The operations of the uplink hub that events reach. -/
structure HubOpsKeep (P : Chip → Prop) : Prop where
  hubOnSlot : ∀ k old new c, P c → P (hubOnSlot k old new c)
  takeMatch : ∀ k l c, P c → P (takeMatch k l c)
  uplinkStart : ∀ u c, P c → P (uplinkStart u c)
  uplinkCompletion : ∀ u x c, P c → P (uplinkCompletion u x c)
  laneCompletion : ∀ k x c, P c → P (laneCompletion k x c)
  uplinkTransmitted : ∀ u c, P c → P (uplinkTransmitted u c)
  laneTransmitted : ∀ k c, P c → P (laneTransmitted k c)
  linkChanged : ∀ u level c, P c → P (linkChanged u level c)
  adminOrder : ∀ u admin c, P c → P (adminOrder u admin c).1
  passChannel : ∀ h c, P c → P (passChannel h c).1
  holdChannel : ∀ h c, P c → P (holdChannel h c).1
  barChannel : ∀ h c, P c → P (barChannel h c).1
  flushChannel : ∀ h c, P c → P (flushChannel h c).1
  dropChannel : ∀ h c, P c → P (setChannel h none c)
  defineRecord : ∀ d c, P c → P (defineRecord d c).1
  amendChannelOwner : ∀ h items c, P c → P (amendChannelOwner h items c).1
  restartHub : ∀ c, P c → P (restartHub c)

/-- The operations of the request port. -/
structure PortOpsKeep (P : Chip → Prop) : Prop where
  returning : ∀ l c, P c → P (returning l c)
  putMessage : ∀ m c, P c → P (putMessage m c)
  responseTaken : ∀ c, P c → P (modPort (fun p => { p with response := none }) c)
  restartPort : ∀ c, P c → P (restartPort c)
  takeRequest : ∀ i owner c, (∀ c, P c → P (owner c).1) → P c → P (takeRequest i owner c)
  settings : ∀ t c, P c → P (setSettings t c)
  dropObject : ∀ o c, P c → P (dropObject o c)
  ackOwner : ∀ o m c, P c → P (ackOwner o m c).1
  restartOrder : ∀ c, P c → P (restartOrder c).1

/-- A property of the chip that the operations of the fan controller, the hub and the port keep, and that no write of the
other blocks, no raised cause and no message disturbs. -/
structure OpsKeep (P : Chip → Prop) : Prop
    extends PowerKeeps P, FanOpsKeep P, HubOpsKeep P, PortOpsKeep P where
  slots : ∀ b c, P c → P { c with slots := b }
  engines : ∀ b c, P c → P { c with engines := b }
  inventory : ∀ i c, P c → P { c with inventory := i }
  modules : ∀ m c, P c → P (setModules m c)
  statusPages : ∀ n c, P c → P (setStatusPages n c)
  reset : ∀ c, P c → P (coldReset c)

/-- A property that no write of the fan controller disturbs is kept by its operations. -/
theorem FanKeeps.toOps {P : Chip → Prop} (h : FanKeeps P) : FanOpsKeep P where
  fanOnSlot _ _ _ _ hc := h.fanOnSlot _ _ _ hc
  fanOnStatus _ _ hc := h.fanOnStatus _ hc
  fanArrival _ _ hc := h.fanArrival _ hc
  fanIdentity _ _ _ _ _ _ hc := h.fanIdentity _ _ _ _ _ hc
  fanReadFailed _ _ hc := h.fanReadFailed _ hc
  fanRemoval _ _ hc := h.fanRemoval _ hc
  settleEnded _ _ hc := h.modFan _ _ hc
  windowEnded _ _ _ hc := ite_keeps (h.takeSample _ _ hc) hc
  releaseExpired _ _ hc := ite_keeps (h.releaseLocked _ hc) hc
  modZone _ _ _ hc := h.modZone _ _ hc
  graceExpired _ _ hc := ite_keeps (h.sendDrains _ (h.modZone _ _ hc)) hc
  commitCurve _ _ hc := h.commitCurve _ hc
  pinFan _ _ _ hc := h.pinFan _ _ hc
  unpinFan _ _ hc := h.unpinFan _ hc
  retryFan _ _ hc := h.retryFan _ hc
  fanSettings _ _ _ hc := h.fanSettings _ _ hc
  restartFans _ hc := h.restartFans hc

/-- R154: an AMEND of a channel changes what the checked amendment of its record changes. -/
theorem amendChannelOwner_keeps {P : Chip → Prop} {c : Chip} (h : Fin 32) (items : List Item)
    (ha : ∀ ch d b, c.channel h = some ch → ch.busy = false → P (checkedAmend h ch d b c).1) (hc : P c) :
    P (amendChannelOwner h items c).1 := by
  unfold amendChannelOwner
  split
  · exact hc
  · rename_i ch hch
    split
    · exact hc
    · split
      · rename_i hbar
        split
        · refine ha _ _ _ hch ?_
          by_contra hb
          rw [Bool.not_eq_false] at hb
          by_cases hs : ch.state = .hold <;> simp [Channel.amendBar, hb, hs] at hbar
        · exact hc
      · exact hc

/-- A property that no write of the hub disturbs is kept by its operations. -/
theorem HubKeeps.toOps {P : Chip → Prop} (h : HubKeeps P) : HubOpsKeep P where
  hubOnSlot _ _ _ _ hc := h.hubOnSlot _ _ _ hc
  takeMatch _ _ _ hc := h.takeMatch _ _ hc
  uplinkStart _ _ hc := h.uplinkStart _ hc
  uplinkCompletion _ _ _ hc := h.uplinkCompletion _ _ hc
  laneCompletion _ _ _ hc := h.laneCompletion _ _ hc
  uplinkTransmitted _ _ hc := h.uplinkTransmitted _ hc
  laneTransmitted _ _ hc := h.laneTransmitted _ hc
  linkChanged _ _ _ hc := h.linkChanged _ _ hc
  adminOrder _ _ _ hc := h.changeUplink _ _ hc
  passChannel _ _ hc := h.passChannel _ hc
  holdChannel _ _ hc := h.holdChannel _ hc
  barChannel _ _ hc := h.barChannel _ hc
  flushChannel _ _ hc := h.flushChannel _ hc
  dropChannel _ _ hc := h.setChannel _ _ hc
  defineRecord _ _ hc := h.defineRecord _ hc
  amendChannelOwner _ _ _ hc := amendChannelOwner_keeps _ _ (fun _ _ _ _ _ => h.checkedAmend _ _ _ _ hc) hc
  restartHub _ hc := h.restartHub hc

/-- A property that no write of the port disturbs is kept by its operations. -/
theorem PortOpsKeep.of_port {P : Chip → Prop} (h : ∀ p c, P c → P (setPort p c)) (hm : ∀ l c, P c → P (setMessages l c)) :
    PortOpsKeep P where
  returning _ c hc := h _ c hc
  putMessage m c hc := by
    have hm (f : Port → Port) (c : Chip) (hc : P c) : P (modPort f c) := h _ _ hc
    unfold Machine.putMessage
    extract_lets c1
    have h1 : P c1 := hm _ _ hc
    refine ite_keeps ?_ (hm _ _ h1)
    have h2 := hm (fun p => { p with overrun := false }) _ h1
    unfold decodePut
    dsimp only
    split
    · exact hm _ _ h2
    · exact hm _ _ h2
    · split <;> exact hm _ _ h2
  responseTaken c hc := h _ c hc
  restartPort c hc := h { (setMessages [] c).port with
      request := none, response := none, overrun := false, restartWaiting := false,
      alerts := raiseIn .chassis Cause.restarted.mask [] } (setMessages [] c) (hm [] c hc)
  takeRequest _ _ _ ho hc := ite_keeps (h _ _ (ho _ hc)) (ite_keeps (h _ _ (ho _ (h _ _ hc))) (h _ _ hc))
  settings t c hc := h { c.port with settings := t } c hc
  dropObject o c hc := h { c.port with alerts := c.port.alerts.filter fun e => e.object ≠ o } c hc
  ackOwner o m c hc := by
    unfold Machine.ackOwner
    split
    · exact h { c.port with alerts := ackIn o m c.port.alerts } c hc
    · exact hc
  restartOrder c hc := h { c.port with restartWaiting := true } c hc

namespace OpsKeep

variable {P : Chip → Prop} (h : OpsKeep P) {c : Chip}
include h

theorem modSlot (k : Fin 16) (f : Slot → Slot) (hc : P c) : P (modSlot k f c) := h.slots _ _ hc
theorem toEngineKeeps : EngineKeeps P := ⟨h.engines, h.messages⟩
theorem toInvKeeps : InvKeeps P := ⟨h.inventory, h.raise⟩

/-! ## The slot controller -/

theorem reportSlot (k : Fin 16) (old new : SlotState) (hc : P c) : P (reportSlot k old new c) :=
  h.hubOnSlot _ _ _ _ (h.fanOnSlot _ _ _ _ (h.toPowerKeeps.powerOnSlot _ _ hc))

theorem enterState (k : Fin 16) (new : SlotState) (own : Slot → Slot) (hc : P c) : P (enterState k new own c) := by
  have he : ∀ old c, P c → P (engineOnSlot k old new c) := fun _ _ hc =>
    ite_keeps (h.toEngineKeeps.emptyEngine _ hc) (ite_keeps (h.toEngineKeeps.clearRenegotiation _ hc) hc)
  have hg : ∀ old c, P c → P (grantOnSlot k old new c) := fun _ _ hc => ite_keeps (h.toPowerKeeps.releaseGrant _ hc) hc
  exact h.reportSlot _ _ _ (hg _ _ (he _ _ (h.modSlot _ _ hc)))

theorem toHeld (k : Fin 16) (r : HoldReason) (hc : P c) : P (toHeld k r c) := h.raise _ _ _ (h.enterState _ _ _ hc)
theorem toInterrogating (k : Fin 16) (hc : P c) : P (toInterrogating k c) :=
  h.toEngineKeeps.startInterrogation _ (h.enterState _ _ _ hc)
theorem toNegotiating (k : Fin 16) (hc : P c) : P (toNegotiating k c) :=
  h.toEngineKeeps.startNegotiation _ (h.enterState _ _ _ hc)
theorem toPowering (k : Fin 16) (hc : P c) : P (toPowering k c) :=
  have h1 := h.enterState k .powering (fun s => { s with powerUpDelay := some c.settings.powerUpDelay }) hc
  ite_keeps (h.enterState _ _ _ h1) h1
theorem toDraining (k : Fin 16) (cause : DrainCause) (hc : P c) : P (toDraining k cause c) := by
  unfold Machine.toDraining
  extract_lets poll
  exact h.toEngineKeeps.requestShutdown _ (h.enterState _ _ _ hc)

theorem toOutcome (k : Fin 16) (o : PdOutcome) (hc : P c) : P (toOutcome k o c) := by
  cases o
  case interrogating => exact h.toInterrogating k hc
  all_goals exact h.toHeld k _ hc

theorem completePowerDown (k : Fin 16) (hc : P c) : P (completePowerDown k c) := by
  unfold Machine.completePowerDown
  extract_lets o c1
  have h1 : P c1 := ite_keeps (h.toOutcome _ _ hc) (h.enterState _ _ _ hc)
  clear_value c1
  split
  · exact h.raise _ _ _ h1
  · exact h1

theorem toPoweringDown (k : Fin 16) (cause : Option DrainCause) (o : PdOutcome) (hc : P c) :
    P (toPoweringDown k cause o c) := by
  unfold Machine.toPoweringDown
  extract_lets c1
  have h1 : P c1 := h.enterState _ _ _ hc
  exact ite_keeps h1 (h.completePowerDown _ h1)

theorem endDrain (k : Fin 16) (hc : P c) : P (endDrain k c) := h.toPoweringDown _ _ _ hc

theorem powerFault (k : Fin 16) (hc : P c) : P (powerFault k c) :=
  h.raise _ _ _ (h.raise _ _ _ (h.enterState _ _ _ hc))

theorem contactLost (k : Fin 16) (hc : P c) : P (contactLost k c) := by
  have h1 : P (toEmpty k c) :=
    have h2 := h.enterState k .empty id hc
    ite_keeps (h.toInvKeeps.vacate _ h2) h2
  exact ite_keeps hc (ite_keeps (h.raise _ _ _ h1) h1)

theorem contactMade (k : Fin 16) (hc : P c) : P (contactMade k c) :=
  ite_keeps (ite_keeps (h.toInterrogating _ hc) (h.enterState _ _ _ hc)) hc

theorem drainAdopting (k : Fin 16) (cause : DrainCause) (hc : P c) : P (drainAdopting k cause c) :=
  h.toDraining _ _ (h.toEngineKeeps.emptyEngine _ hc)

theorem latchOpened (k : Fin 16) (hc : P c) : P (latchOpened k c) := by
  unfold Machine.latchOpened
  cases (c.slot k).state
  case powering | starting => exact h.toPoweringDown k _ _ hc
  case running => exact h.toDraining k _ hc
  case adopting => exact h.drainAdopting k _ hc
  case empty | seated | draining | poweringDown => exact hc
  all_goals exact h.enterState k .seated id hc

theorem shedOff (k : Fin 16) (hc : P c) : P (shedOff k c) := by
  unfold Machine.shedOff
  cases (c.slot k).state
  case powering | starting => exact h.toPoweringDown k _ _ hc
  case running => exact h.toDraining k _ hc
  case adopting => exact h.drainAdopting k _ hc
  all_goals exact hc

theorem thermalDrain (k : Fin 16) (hc : P c) : P (thermalDrain k c) := by
  unfold Machine.thermalDrain
  cases (c.slot k).state
  case running => exact h.toDraining k _ hc
  case adopting => exact h.drainAdopting k _ hc
  all_goals exact hc

theorem slotDebounced (k : Fin 16) (i : SlotInput) {made lost : Chip → Chip} (hm : ∀ c, P c → P (made c))
    (hl : ∀ c, P c → P (lost c)) (hc : P c) : P (slotDebounced k i made lost c) := by
  have h1 := h.modSlot k (fun s => s.putInput i ((c.slot k).input i).expire) hc
  exact ite_keeps (ite_keeps h1 (ite_keeps (hm _ h1) (hl _ h1))) hc

theorem pwrGoodChanged (k : Fin 16) (level : Bool) (hc : P c) : P (pwrGoodChanged k level c) := by
  unfold Machine.pwrGoodChanged
  extract_lets c1
  have h1 : P c1 := h.modSlot _ _ hc
  clear_value c1
  refine ite_keeps hc ?_
  split
  · exact h.enterState _ _ _ h1
  · exact h.powerFault _ h1
  · exact h.powerFault _ h1
  · exact h.powerFault _ h1
  · exact h.powerFault _ h1
  · exact h.completePowerDown _ h1
  · exact h1

theorem powerUpExpired (k : Fin 16) (together : Bool) (hc : P c) : P (powerUpExpired k together c) :=
  ite_keeps (h.toPoweringDown _ _ _ (h.raise _ _ _ (h.modSlot _ _ hc))) hc

theorem readmitSlot (k : Fin 16) (hc : P c) : P (readmitSlot k c).1 := by
  unfold Machine.readmitSlot
  split
  · exact ite_keeps (h.toInterrogating _ hc) (h.toNegotiating _ hc)
  · exact hc

theorem evictSlot (k : Fin 16) (hc : P c) : P (evictSlot k c).1 := by
  unfold Machine.evictSlot
  cases (c.slot k).state
  case interrogating | negotiating | awaitingAdmit | awaitingGrant => exact h.toHeld k _ hc
  case powering | starting => exact h.toPoweringDown k _ _ hc
  case running => exact h.toDraining k _ hc
  all_goals exact hc

theorem admitSlot (k : Fin 16) (hc : P c) : P (admitSlot k c).1 := by
  unfold Machine.admitSlot
  split
  · exact h.enterState k .awaitingGrant id hc
  · exact hc

theorem forceOffSlot (k : Fin 16) (hc : P c) : P (forceOffSlot k c).1 := by
  unfold Machine.forceOffSlot
  split
  · exact h.toPoweringDown _ _ _ hc
  · exact hc

theorem renegotiateSlot (k : Fin 16) (hc : P c) : P (renegotiateSlot k c).1 := by
  unfold Machine.renegotiateSlot
  extract_lets e
  split
  · exact h.toEngineKeeps.arbitrate _ (h.toEngineKeeps.modEngine _ _ hc)
  · exact hc

theorem takeOffer (k : Fin 16) (a : OfferAnswer) (hc : P c) : P (takeOffer k a c) := by
  cases a
  case bound | revived | created => exact h.toNegotiating _ (h.modSlot _ _ hc)
  case duplicate | full => exact h.toHeld _ _ hc

theorem endAdoption (k : Fin 16) (hc : P c) : P (endAdoption k c) := by
  unfold Machine.endAdoption
  split
  · exact h.enterState _ _ _ hc
  · exact h.toDraining _ _ hc

theorem takeIdentity (k : Fin 16) (id : Identity) (hc : P c) : P (takeIdentity k id c) := by
  unfold Machine.takeIdentity
  split
  · exact h.takeOffer _ _ (h.toInvKeeps.offer _ _ hc)
  · exact ite_keeps (h.endAdoption _ hc) (h.toDraining _ _ hc)
  · exact hc

theorem takeNoIdentity (k : Fin 16) (hc : P c) : P (takeNoIdentity k c) := by
  unfold Machine.takeNoIdentity
  split
  · exact h.toHeld _ _ hc
  · exact h.endAdoption _ (h.raise _ _ _ (h.modSlot _ _ hc))
  · exact hc

theorem takeDraw (k : Fin 16) (measured : Nat) (hc : P c) : P (takeDraw k measured c) :=
  ite_keeps (h.raise _ _ _ (h.modSlot _ _ hc)) (h.modSlot _ _ hc)

theorem takeStatus (k : Fin 16) (st : BladeStatus) (hc : P c) : P (takeStatus k st c) := by
  unfold Machine.takeStatus
  extract_lets c1 c2
  have h1 : P c1 := h.takeDraw _ _ (h.fanOnStatus _ _ (h.modSlot _ _ hc))
  have h2 : P c2 := ite_keeps (h.raise _ _ _ h1) h1
  exact ite_keeps (h.endDrain _ h2) h2

theorem takeSilence (k : Fin 16) (hc : P c) : P (takeSilence k c) := by
  unfold Machine.takeSilence
  extract_lets old c1
  have h1 : P c1 := h.modSlot _ _ hc
  exact ite_keeps (h.fanOnStatus _ _ (h.raise _ _ _ (h.modSlot _ _ h1))) h1

/-! ## The slot link -/

theorem endPhase (k : Fin 16) (hc : P c) : P (endPhase k c) := h.toEngineKeeps.modEngine _ _ hc
theorem answerPhase (k : Fin 16) (hc : P c) : P (answerPhase k c) :=
  h.toEngineKeeps.modEngine _ _ (h.toEngineKeeps.endExchange _ _ hc)
theorem failInterrogation (k : Fin 16) (hc : P c) : P (failInterrogation k c) := h.takeNoIdentity _ (h.endPhase _ hc)

theorem failNegotiation (k : Fin 16) (r : HoldReason) (hc : P c) : P (failNegotiation k r c) := by
  unfold Machine.failNegotiation
  extract_lets phase c1
  have h1 : P c1 := h.endPhase _ hc
  clear_value c1 phase
  split
  · exact h.toHeld _ _ h1
  · exact h.raise _ _ _ h1
  · exact h1

theorem failSettlement (k : Fin 16) (hc : P c) : P (failSettlement k c) :=
  have h1 := h.toPowerKeeps.post (.settlementReport k .failed)
    (h.toEngineKeeps.modEngine k (fun e => { e with settlement := none }) hc)
  ite_keeps (h.raise _ _ _ h1) h1

theorem exchangeFailed (k : Fin 16) (x : PageRequest) (r : HoldReason) (hc : P c) : P (exchangeFailed k x r c) := by
  cases x
  case interrogate => exact h.failInterrogation _ hc
  case negotiate => exact h.failNegotiation _ _ hc
  case next => exact ite_keeps (h.failInterrogation _ hc) (h.failNegotiation _ _ hc)
  case grant | channelGrant => exact h.failSettlement _ hc
  case cap | uncap => exact h.toPowerKeeps.post _ hc
  case shutdown => exact hc
  case poll => exact h.takeSilence _ hc

theorem rejectPage (k : Fin 16) (x : PageRequest) (r : HoldReason) (hc : P c) : P (rejectPage k x r c) :=
  h.exchangeFailed _ _ _ (h.toEngineKeeps.endExchange _ _ hc)

theorem raiseDegraded (k : Fin 16) (f : FaultCode) (hc : P c) : P (raiseDegraded k f c) := ite_keeps (h.raise _ _ _ hc) hc

theorem endInterrogation (k : Fin 16) (v m : BitVec 16) (r : Byte) (l : List Byte) (hc : P c) :
    P (endInterrogation k v m r l c) := h.takeIdentity _ _ (h.endPhase _ hc)

theorem gather (k : Fin 16) (d : Draft) (hc : P c) : P (gather k d c) := h.toEngineKeeps.modEngine _ _ hc

theorem interrogationPage (k : Fin 16) (x : Exchange) (p : Page) (hc : P c) : P (interrogationPage k x p c) := by
  have h1 := h.raiseDegraded k p.fault hc
  have h2 := h.answerPhase k h1
  unfold Machine.interrogationPage
  split
  · split
    · exact h.rejectPage _ _ _ hc
    · exact ite_keeps (h.rejectPage _ _ _ h1) (ite_keeps (h.failInterrogation _ h2) (h.endInterrogation _ _ _ _ _ h2))
  · split
    · exact h.rejectPage _ _ _ hc
    · exact ite_keeps (h.rejectPage _ _ _ h1)
        (ite_keeps (h.failInterrogation _ h2) (ite_keeps (h.gather _ _ h2) (h.endInterrogation _ _ _ _ _ h2)))

theorem resolve (k : Fin 16) (run floor priority : Nat) (l : List Nat) (hc : P c) : P (resolve k run floor priority l c) := by
  unfold Machine.resolve
  split
  · exact h.failNegotiation _ _ hc
  · unfold resolved
    extract_lets phase handles short terms written c1
    have hw : ∀ x, P x → P (written x) := fun x hx =>
      have h1 := h.toPowerKeeps.post (.matchHandoff k handles) (h.modSlot k (fun s => { s with terms := some terms }) hx)
      ite_keeps (h.raise _ _ _ h1) h1
    have h1 : P c1 := h.endPhase _ hc
    clear_value c1 phase written
    split
    · exact h.enterState _ _ _ (hw _ h1)
    · exact h.toPowerKeeps.settleTerms _ (hw _ h1)
    · exact h1

theorem negotiationPage (k : Fin 16) (x : Exchange) (p : Page) (hc : P c) : P (negotiationPage k x p c) := by
  unfold Machine.negotiationPage
  extract_lets c1
  have h1 : P c1 := h.raiseDegraded _ _ hc
  clear_value c1
  split
  · exact h.rejectPage _ _ _ h1
  · have h2 := h.answerPhase k h1
    have hf := fun r => h.failNegotiation k r h2
    exact ite_keeps (h.rejectPage _ _ _ h1) (ite_keeps (hf _)
      (ite_keeps (hf _) (ite_keeps (ite_keeps (hf _) (h.gather _ _ h2)) (ite_keeps (h.resolve _ _ _ _ _ h2) (hf _)))))

theorem ackPage (k : Fin 16) (x : Exchange) (p : Page) (hc : P c) : P (ackPage k x p c) := by
  have h1 := h.raiseDegraded k p.fault (h.toEngineKeeps.endExchange k false hc)
  refine ite_keeps ?_ (h.rejectPage _ _ _ hc)
  unfold takeAck
  cases x.request
  case grant | channelGrant => exact ite_keeps h1 (h.failSettlement _ h1)
  case cap | uncap => exact h.toPowerKeeps.post _ h1
  all_goals exact h1

theorem statusPage (k : Fin 16) (x : Exchange) (p : Page) (hc : P c) : P (statusPage k x p c) := by
  unfold Machine.statusPage
  split
  · exact h.takeStatus _ _ (h.toEngineKeeps.endExchange _ _ (h.statusPages _ _ hc))
  · exact h.rejectPage _ _ _ hc

theorem takePage (k : Fin 16) (x : Exchange) (p : Page) (hc : P c) : P (takePage k x p c) := by
  unfold Machine.takePage
  cases x.request
  case interrogate => exact h.interrogationPage _ _ _ hc
  case negotiate => exact h.negotiationPage _ _ _ hc
  case next => exact ite_keeps (h.interrogationPage _ _ _ hc) (h.negotiationPage _ _ _ hc)
  case poll => exact h.statusPage _ _ _ hc
  all_goals exact h.ackPage _ _ _ hc

theorem takeTimeout (k : Fin 16) (x : Exchange) (hc : P c) : P (takeTimeout k x c) :=
  ite_keeps (h.rejectPage _ _ _ hc) (h.toEngineKeeps.modEngine _ _ hc)

theorem slotPage (k : Fin 16) (page : List Byte) (hc : P c) : P (slotPage k page c) := by
  unfold Machine.slotPage
  split
  · exact hc
  · refine h.toEngineKeeps.arbitrate _ ?_
    split
    · exact h.takePage _ _ _ hc
    · exact h.takeTimeout _ _ hc

theorem slotTimeout (k : Fin 16) (hc : P c) : P (slotTimeout k c) := by
  unfold Machine.slotTimeout
  split
  · exact hc
  · exact h.toEngineKeeps.arbitrate _ (h.takeTimeout _ _ hc)

/-! ## The module link -/

theorem modModules (f : ModuleLink → ModuleLink) (hc : P c) : P (modModules f c) := h.modules _ _ hc
theorem askRead (bay : Bay) (hc : P c) : P (askRead bay c) := h.modModules _ hc

theorem failRead (bay : Bay) (hc : P c) : P (failRead bay c) := by
  have h1 := h.modModules (ModuleLink.endRead true) hc
  cases bay
  case supply => exact h.toPowerKeeps.supplyReadFailed _ h1
  case fan => exact h.fanReadFailed _ _ h1

theorem takeResponse (bay : Bay) (m : List Byte) (hc : P c) : P (takeResponse bay m c) := by
  refine ite_keeps ?_ (h.failRead _ hc)
  have h1 := h.toInvKeeps.offer (Bay.location bay) (readModule bay m).identity (h.modModules (ModuleLink.endRead false) hc)
  cases bay
  case supply => exact h.toPowerKeeps.supplyIdentity _ _ _ h1
  case fan => exact h.fanIdentity _ _ _ _ _ _ h1

theorem readExpired (bay : Bay) (second : Bool) (hc : P c) : P (readExpired bay second c) :=
  ite_keeps (h.failRead _ hc) (h.modModules _ hc)

theorem moduleAnswered (m : List Byte) (hc : P c) : P (moduleAnswered m c) := by
  unfold Machine.moduleAnswered
  split
  · exact hc
  · refine h.modModules _ ?_
    split
    · exact h.takeResponse _ _ hc
    · exact h.readExpired _ _ hc

theorem moduleTimedOut (hc : P c) : P (moduleTimedOut c) := by
  unfold Machine.moduleTimedOut
  split
  · exact hc
  · exact h.modModules _ (h.readExpired _ _ hc)

theorem moduleDebounced (bay : Bay) (hc : P c) : P (moduleDebounced bay c) := by
  have h1 := h.modModules (fun m => m.putBay bay (c.modules.bay bay).expire) hc
  have ha : P (moduleArrival bay (Machine.modModules (fun m => m.putBay bay (c.modules.bay bay).expire) c)) := by
    refine h.modModules _ ?_
    cases bay
    case supply => exact h.toPowerKeeps.supplyArrival _ h1
    case fan => exact h.fanArrival _ _ h1
  have hr : P (moduleRemoval bay (Machine.modModules (fun m => m.putBay bay (c.modules.bay bay).expire) c)) := by
    refine h.toInvKeeps.vacate _ (h.modModules _ ?_)
    cases bay
    case supply => exact h.toPowerKeeps.supplyRemoval _ h1
    case fan => exact h.fanRemoval _ _ h1
  exact ite_keeps (ite_keeps h1 (ite_keeps ha hr)) hc

theorem retrySupply (b : Fin 6) (hc : P c) : P (retrySupply b c).1 := by
  unfold Machine.retrySupply
  split
  · split
    · dsimp only
      exact h.askRead _ (h.toPowerKeeps.modSupply _ _ hc)
    · dsimp only
      exact h.toPowerKeeps.startSupply b hc
  · exact hc

/-! ## The port and the owners of requests -/

theorem warmRestart (hc : P c) : P (warmRestart c) := by
  have hm : ∀ c, P c → P (restartModules c) := fun _ hc => forEach_keeps _ _ (fun _ _ hx => h.modModules _ hx) _ (h.modModules _ hc)
  have hi : ∀ c, P c → P (restartInterrogations c) := fun _ hc =>
    forEach_keeps _ _ (fun _ _ hx => ite_keeps (h.toEngineKeeps.startInterrogation _ hx) hx) _ hc
  refine hi _ (h.restartFans _ (h.toPowerKeeps.restartPower (hm _ ?_)))
  refine forEach_keeps _ _ (fun _ _ hx => h.toPowerKeeps.modSupply _ _ hx) _ (h.restartHub _ (h.slots _ _ ?_))
  exact h.engines _ _ (h.restartPort _ hc)

theorem getMessage (n : Nat) (hc : P c) : P (getMessage n c) := by
  have h1 := h.returning ((c.port.response.getD [] ++ List.replicate n 0).take n) c hc
  have h2 := h.responseTaken _ h1
  exact ite_keeps (ite_keeps (h.warmRestart h2) h2) h1

theorem portTransfer (x : Byte) (l : List Byte) (hc : P c) : P (portTransfer x l c) := by
  unfold Machine.portTransfer
  split
  · exact h.putMessage _ _ hc
  · exact h.getMessage _ hc
  · exact h.returning _ _ hc

theorem writeOverride (k : Fin 16) (p : Option Nat) (hc : P c) : P (writeOverride k p c) :=
  h.toPowerKeeps.replaceEntry _ (h.modSlot _ _ hc)

theorem amendSlotOwner (k : Fin 16) (l : List Item) (hc : P c) : P (amendSlotOwner k l c).1 := by
  unfold Machine.amendSlotOwner
  split
  · exact hc
  · split
    · exact h.writeOverride k _ hc
    · split
      · exact h.writeOverride k _ hc
      · exact hc

theorem amendInventoryOwner (key : InvKey) (l : List Item) (hc : P c) : P (amendInventoryOwner key l c).1 := by
  unfold Machine.amendInventoryOwner
  split
  · exact hc
  · split
    · split
      · exact hc
      · split
        · exact h.toInvKeeps.writeRecord _ _ hc
        · exact hc
    · exact hc

theorem amendZoneOwner (z : Fin 4) (l : List Item) (hc : P c) : P (amendZoneOwner z l c).1 := by
  unfold Machine.amendZoneOwner
  split
  · exact hc
  · dsimp only
    split
    · dsimp only
      exact h.modZone _ _ _ hc
    · exact hc

theorem amendSettingsOwner (l : List Item) (hc : P c) : P (amendSettingsOwner l c).1 := by
  unfold Machine.amendSettingsOwner
  split
  · unfold applySettings
    extract_lets write c1
    have hw : P (write c) := h.settings _ _ hc
    exact h.fanSettings _ _ _ (ite_keeps (h.toPowerKeeps.powerEvent _ hw) hw)
  · exact hc

theorem defineOwner (l : List Item) (hc : P c) : P (defineOwner l c).1 := by
  unfold Machine.defineOwner
  split
  · exact hc
  · split
    · exact h.defineRecord _ _ hc
    · exact hc

theorem retireInventoryOwner (key : InvKey) (hc : P c) : P (retireInventoryOwner key c).1 := by
  unfold Machine.retireInventoryOwner
  split
  · exact hc
  · split
    · split
      · exact hc
      · exact h.toInvKeeps.retireHandle _ hc
    · exact hc

theorem retireRecord (i : Fin 32) (hc : P c) : P (retireRecord i c).1 := by
  unfold Machine.retireRecord
  split
  · exact hc
  · split
    · exact hc
    · split
      · exact hc
      · exact h.dropObject _ _ (h.dropChannel _ _ hc)

theorem capSlot (k : Fin 16) (hc : P c) : P (capSlot k c).1 := by
  unfold Machine.capSlot
  split
  · exact h.toPowerKeeps.addReason _ _ hc
  · exact hc

theorem uncapSlot (k : Fin 16) (hc : P c) : P (uncapSlot k c).1 := by
  unfold Machine.uncapSlot
  split
  · exact h.toPowerKeeps.removeReason _ _ hc
  · exact hc

theorem takeSettlement (k : Fin 16) (o : SettleOutcome) (hc : P c) : P (takeSettlement k o c) := by
  unfold Machine.takeSettlement
  refine ite_keeps ?_ hc
  cases o
  case settled =>
    exact ite_keeps (h.toPowerKeeps.requeueAdmission _ hc) (h.toPowerKeeps.post _ (h.toPowerKeeps.modGrant _ _ hc))
  case failed =>
    have h1 := h.toPowerKeeps.failAdmission k hc
    unfold settlementFailed
    exact ite_keeps (h.toHeld _ _ h1) h1
  case abandoned => exact hc

theorem takeCloseOrder (k : Fin 16) (hc : P c) : P (takeCloseOrder k c) :=
  ite_keeps (ite_keeps (h.toPowering _ hc) (h.toPowerKeeps.releaseGrant _ hc)) hc

/-! ## Every command -/

theorem taken {event : Chip → Chip} {s t : State} (he : P (event s.chip)) (hs : taken event s = .next t) : P t.chip := by
  cases hs
  exact h.toPowerKeeps.queueService he

theorem takenMessage {m : Instr} {event : Chip → Chip} {s t : State} (he : ∀ c, P c → P (event c)) (hp : P s.chip)
    (hs : takenMessage m event s = .next t) : P t.chip :=
  h.taken (event := fun c => event (deliver m c)) (he _ (h.messages _ _ hp)) hs

theorem takenRequest {i : Instr} {owner : Chip → Chip × Answer} {s t : State} (ho : ∀ c, P c → P (owner c).1) (hp : P s.chip)
    (hs : Machine.taken (Machine.takeRequest i owner) s = .next t) : P t.chip :=
  h.taken (h.takeRequest _ _ _ ho hp) hs

theorem takenOrder {i : Instr} {owner : Chip → Chip × Status} {s t : State} (ho : ∀ c, P c → P (owner c).1) (hp : P s.chip)
    (hs : takenOrder i owner s = .next t) : P t.chip :=
  h.takenRequest (owner := fun c => statusOnly (owner c)) ho hp hs

/-- What the operations of the fan controller, the hub and the port keep, every command keeps. -/
theorem exec (i : Instr) {s t : State} (hp : P s.chip) (hs : exec i s = .next t) : P t.chip := by
  cases i
  case coldReset => exact h.taken (h.reset _ hp) hs
  case slotInputEdge => exact h.taken (h.modSlot _ _ hp) hs
  case contactDebounceExpiry =>
    exact h.taken (h.slotDebounced _ _ (fun _ hx => h.contactMade _ hx) (fun _ hx => h.contactLost _ hx) hp) hs
  case latchDebounceExpiry =>
    exact h.taken (h.slotDebounced _ _ (fun _ hx => ite_keeps (h.toInterrogating _ hx) hx)
      (fun _ hx => h.latchOpened _ hx) hp) hs
  case pwrGoodChange => exact h.taken (h.pwrGoodChanged _ _ hp) hs
  case powerUpDelayExpiry => exact h.taken (h.powerUpExpired _ _ hp) hs
  case resetHoldExpiry => exact h.taken (ite_keeps (h.enterState _ _ _ hp) hp) hs
  case pollTimerExpiry => exact h.taken (ite_keeps (h.toEngineKeeps.requestPoll _ (h.modSlot _ _ hp)) hp) hs
  case drainTimerExpiry => exact h.taken (ite_keeps (h.endDrain _ hp) hp) hs
  case powerDownTimerExpiry => exact h.taken (ite_keeps (h.powerFault _ hp) hp) hs
  case closeOrder => exact h.takenMessage (fun _ hx => h.takeCloseOrder _ hx) hp hs
  case shedOffAction => exact h.takenMessage (fun _ hx => h.shedOff _ hx) hp hs
  case thermalDrainRequest => exact h.takenMessage (fun _ hx => h.thermalDrain _ hx) hp hs
  case slotPageReceived => exact h.taken (h.slotPage _ _ hp) hs
  case slotResponseTimeout => exact h.taken (h.slotTimeout _ hp) hs
  case slotQuietEnd =>
    exact h.taken (ite_keeps (h.toEngineKeeps.arbitrate _ (h.toEngineKeeps.modEngine _ _ hp)) hp) hs
  case capRequest => exact h.takenMessage (fun _ hx => h.toEngineKeeps.requestCap _ _ hx) hp hs
  case uncapRequest => exact h.takenMessage (fun _ hx => h.toEngineKeeps.requestUncap _ _ hx) hp hs
  case grantRequest => exact h.takenMessage (fun _ hx => h.toEngineKeeps.requestGrant _ _ _ hx) hp hs
  case matchHandoff => exact h.takenMessage (fun _ hx => h.takeMatch _ _ _ hx) hp hs
  case settlementReport => exact h.takenMessage (fun _ hx => h.takeSettlement _ _ hx) hp hs
  case capOutcome => exact h.takenMessage (fun _ hx => h.toPowerKeeps.takeCapOutcome _ _ hx) hp hs
  case uncapOutcome => exact h.takenMessage (fun _ hx => h.toPowerKeeps.takeUncapOutcome _ _ hx) hp hs
  case modulePresenceEdge => exact h.taken (h.modModules _ hp) hs
  case modulePresenceDebounceExpiry => exact h.taken (h.moduleDebounced _ hp) hs
  case moduleResponse => exact h.taken (h.moduleAnswered _ hp) hs
  case moduleResponseTimeout => exact h.taken (h.moduleTimedOut hp) hs
  case moduleQuietEnd => exact h.taken (ite_keeps (h.modModules _ hp) hp) hs
  case psuPgChange => exact h.taken (h.toPowerKeeps.psuPgChanged _ _ hp) hs
  case supplyStartDelayExpiry => exact h.taken (ite_keeps (h.toPowerKeeps.failSupply _ _ hp) hp) hs
  case settlePeriodEnd => exact h.taken (h.settleEnded _ _ hp) hs
  case countWindowEnd => exact h.taken (h.windowEnded _ _ _ hp) hs
  case releaseTimerExpiry => exact h.taken (h.releaseExpired _ _ hp) hs
  case graceSecondTick => exact h.taken (h.modZone _ _ _ hp) hs
  case graceTimerExpiry => exact h.taken (h.graceExpired _ _ hp) hs
  case uplinkFrameStart => exact h.taken (h.uplinkStart _ _ hp) hs
  case uplinkFrameCompletion => exact h.taken (h.uplinkCompletion _ _ _ hp) hs
  case laneFrameCompletion => exact h.taken (h.laneCompletion _ _ _ hp) hs
  case uplinkTransmitCompletion => exact h.taken (h.uplinkTransmitted _ _ hp) hs
  case laneTransmitCompletion => exact h.taken (h.laneTransmitted _ _ hp) hs
  case uplLinkChange => exact h.taken (h.linkChanged _ _ _ hp) hs
  case readStatus => exact h.taken (h.returning _ _ hp) hs
  case putRequest => exact h.taken (h.putMessage _ _ hp) hs
  case getResponse => exact h.taken (h.getMessage _ hp) hs
  case unknownPortCommand => exact h.taken (h.portTransfer _ _ hp) hs
  case unacceptedVerb | fetchSlot | fetchInventory | fetchSupply | fetchPower | fetchZone | fetchFan | fetchChannel
    | fetchUplink | fetchLane | fetchSettings | fetchAlert => exact h.takenRequest (fun _ hx => hx) hp hs
  case amendSlot => exact h.takenRequest (fun _ hx => onItems_keeps _ (h.amendSlotOwner _ _ hx) hx) hp hs
  case amendInventory => exact h.takenRequest (fun _ hx => onItems_keeps _ (h.amendInventoryOwner _ _ hx) hx) hp hs
  case amendZone => exact h.takenRequest (fun _ hx => onItems_keeps _ (h.amendZoneOwner _ _ hx) hx) hp hs
  case amendChannel => exact h.takenRequest (fun _ hx => onItems_keeps _ (h.amendChannelOwner _ _ _ hx) hx) hp hs
  case amendSettings => exact h.takenRequest (fun _ hx => onItems_keeps _ (h.amendSettingsOwner _ hx) hx) hp hs
  case defineChannel => exact h.takenRequest (fun _ hx => onItems_keeps _ (h.defineOwner _ hx) hx) hp hs
  case retireInventory => exact h.takenRequest (fun _ hx => h.retireInventoryOwner _ hx) hp hs
  case retireChannel => exact h.takenOrder (fun _ hx => h.retireRecord _ hx) hp hs
  case ack => exact h.takenRequest (fun _ hx => h.ackOwner _ _ _ hx) hp hs
  case orderAdmit => exact h.takenOrder (fun _ hx => h.admitSlot _ hx) hp hs
  case orderReadmit => exact h.takenOrder (fun _ hx => h.readmitSlot _ hx) hp hs
  case orderEvict => exact h.takenOrder (fun _ hx => h.evictSlot _ hx) hp hs
  case orderForceOff => exact h.takenOrder (fun _ hx => h.forceOffSlot _ hx) hp hs
  case orderRenegotiate => exact h.takenOrder (fun _ hx => h.renegotiateSlot _ hx) hp hs
  case orderCap => exact h.takenOrder (fun _ hx => h.capSlot _ hx) hp hs
  case orderUncap => exact h.takenOrder (fun _ hx => h.uncapSlot _ hx) hp hs
  case orderRetrySupply => exact h.takenOrder (fun _ hx => h.retrySupply _ hx) hp hs
  case orderCommitCurve => exact h.takenOrder (fun _ hx => h.commitCurve _ _ hx) hp hs
  case orderPin => exact h.takenOrder (fun _ hx => h.pinFan _ _ _ hx) hp hs
  case orderUnpin => exact h.takenOrder (fun _ hx => h.unpinFan _ _ hx) hp hs
  case orderRetryFan => exact h.takenOrder (fun _ hx => h.retryFan _ _ hx) hp hs
  case orderPass => exact h.takenOrder (fun _ hx => h.passChannel _ _ hx) hp hs
  case orderHold => exact h.takenOrder (fun _ hx => h.holdChannel _ _ hx) hp hs
  case orderBar => exact h.takenOrder (fun _ hx => h.barChannel _ _ hx) hp hs
  case orderFlush => exact h.takenOrder (fun _ hx => h.flushChannel _ _ hx) hp hs
  case orderEnable => exact h.takenOrder (fun _ hx => h.adminOrder _ _ _ hx) hp hs
  case orderDisable => exact h.takenOrder (fun _ hx => h.adminOrder _ _ _ hx) hp hs
  case orderRestart => exact h.takenOrder (owner := Machine.restartOrder) (fun _ hx => h.restartOrder _ hx) hp hs

end OpsKeep

/-- A step takes one command, or does nothing. -/
theorem step_cases {s t : State} (h : step s = .next t) : t = s ∨ ∃ i s', s'.chip = s.chip ∧ exec i s' = .next t := by
  unfold step at h
  split at h
  · rename_i i rest _
    exact .inr ⟨i, { s with pending := rest }, rfl, h⟩
  · split at h
    · exact .inr ⟨_, s, rfl, h⟩
    · split at h
      · exact .inr ⟨_, s, rfl, h⟩
      · cases h
        exact .inl rfl

/-- What every command keeps, every step keeps. -/
theorem step_keeps {P : Chip → Prop} (hx : ∀ i (s t : State), P s.chip → exec i s = .next t → P t.chip) {s t : State}
    (hp : P s.chip) (h : step s = .next t) : P t.chip := by
  obtain rfl | ⟨i, s', hs, hi⟩ := step_cases h
  · exact hp
  · exact hx i s' t (hs ▸ hp) hi

end Sys2Proof.Machine

/-!
PROOF. What every step keeps of the slot records, of the port and of the alert index; the step itself; and the state after
reset.
-/

namespace Sys2Proof.Machine

/-! ## The step -/

/-- Settles O1: with a command at the front of the queue the step is that command. -/
theorem stepTakesFrontCommand : Obligations.StepTakesFrontCommand := fun _ _ => rfl

/-- Settles O2, by what waits when no command does. -/
theorem stepWithEmptyQueue : Obligations.StepWithEmptyQueue := by
  intro s hp
  refine ⟨fun m rest hm => ?_, fun i hm hr => ?_, fun hm hr => ?_⟩
  · simp only [step, hp, hm]
  · simp only [step, hp, hm, hr]
  · simp only [step, hp, hm, hr]

/-- A message is taken from those in flight, and its event follows. -/
theorem takenMessage_eq (m : Instr) (event : Chip → Chip) (s : State) :
    takenMessage m event s = taken (fun c => event (deliver m c)) s := rfl

/-- Every command is an event on the chip, and the queue service at its end. -/
theorem exec_eq_taken (i : Instr) (s : State) : ∃ event, exec i s = taken event s := by
  cases i
  case closeOrder | shedOffAction | thermalDrainRequest | capRequest | uncapRequest | grantRequest | matchHandoff
    | settlementReport | capOutcome | uncapOutcome => exact ⟨_, takenMessage_eq ..⟩
  all_goals exact ⟨_, rfl⟩

/-- Settles O3: an event answers the next state, and touches the chip alone. -/
theorem everyCommandAnswersNext : Obligations.EveryCommandAnswersNext := by
  intro i s
  obtain ⟨event, he⟩ := exec_eq_taken i s
  exact ⟨_, he⟩

/-! ## Slots -/

theorem Slot.reset_coherent (early late latch powerGood : Bool) : (Slot.reset early late latch powerGood).coherent := by
  simp [Slot.coherent, Slot.reset, SlotState.powered, SlotState.released]

/-- R28, Table 14: a coherent record stays coherent through the warm restart's mapping. -/
theorem Slot.restart_coherent {s : Slot} (h : s.coherent) : s.restart.coherent := by
  obtain ⟨hsw, hrel, hheld, hdr, hdc, hout⟩ := h
  have hdown : s.restartDown.coherent := by
    unfold Slot.restartDown
    split
    · simp [Slot.coherent, Slot.enter, SlotState.powered, SlotState.released]
    · split
      · exact s.enter_coherent (by decide)
      · exact s.enter_coherent (by decide)
  have hlatch : (if s.latch.field then s.enter .interrogating else s.enter .seated).coherent := by
    split <;> exact s.enter_coherent (by decide)
  unfold Slot.restart
  cases hs : s.state
  case running | draining | adopting => simp [Slot.coherent, Slot.enter, SlotState.powered, SlotState.released]
  case powering | starting => exact hdown
  case poweringDown =>
    simpa [Slot.coherent, Slot.enter, SlotState.powered, SlotState.released] using hout.2 hs
  case held => simpa [Slot.coherent, Slot.enter, SlotState.powered, SlotState.released] using hheld.2 hs
  case empty =>
    have hempty : s.coherent := ⟨hsw, hrel, hheld, hdr, hdc, hout⟩
    have hs' : s.state = .empty := hs
    by_cases hcontacts : (s.early.field && s.late.field) = true
    · rw [if_neg (by simp [hcontacts])]
      exact hlatch
    · rw [if_pos (Bool.not_eq_true' _ ▸ Bool.eq_false_of_not_eq_true hcontacts), if_pos rfl]
      exact hempty
  all_goals
    dsimp only
    split
    · exact s.enter_coherent (by decide)
    · exact hlatch

/-- A write of one slot's record leaves every record coherent when it leaves that one so. -/
theorem slotsCoherent_modSlot {k : Fin 16} {f : Slot → Slot} {c : Chip} (hf : (f (c.slot k)).coherent)
    (hc : c.slotsCoherent) : (modSlot k f c).slotsCoherent := by
  intro j
  rw [modSlot, slot_setSlot]
  split
  · exact hf
  · exact hc j

/-- R3, R6, R7, R17, R18: no write of any block disturbs the agreement of a slot's record with its state. -/
theorem slotsCoherent_keeps : ChipKeeps Chip.slotsCoherent where
  power _ _ hc := hc
  raise _ _ _ hc := hc
  messages _ _ hc := hc
  fans _ _ hc := hc
  engines _ _ hc := hc
  inventory _ _ hc := hc
  hub _ _ hc := hc
  statusPages _ _ hc := hc
  modules _ _ hc := hc
  port _ _ hc := hc
  enter _ _ _ _ ho hc := slotsCoherent_modSlot (ho _) hc
  write k _ _ hf hc := slotsCoherent_modSlot (hf _ (hc k)) hc
  restart c hc k := by
    have : (restartSlots c).slot k = (c.slot k).restart := Bank.read_gen _ _
    rw [this]
    exact Slot.restart_coherent (hc k)
  reset c _ k := by
    have : ∃ a b d e, (coldReset c).slot k = Slot.reset a b d e := ⟨_, _, _, _, Bank.read_gen _ _⟩
    obtain ⟨a, b, d, e, h⟩ := this
    rw [h]
    exact Slot.reset_coherent a b d e

/-- Settles O56: what no write disturbs, no step disturbs. -/
theorem stepKeepsSlotsCoherent : Obligations.StepKeepsSlotsCoherent := fun _ _ hc h =>
  step_keeps (fun i _ _ hp hx => slotsCoherent_keeps.exec i hp hx) hc h

/-! ## The port and the alert index -/

/-- R187: the objects of an index after a raise. -/
theorem mem_objects_raiseIn {o o' : AlertObject} {m : CauseSet} {l : List AlertEntry} :
    o' ∈ (raiseIn o m l).map AlertEntry.object ↔ o' = o ∨ o' ∈ l.map AlertEntry.object := by
  induction l with
  | nil => simp [raiseIn]
  | cons e l ih =>
    rw [raiseIn]
    split
    · subst o
      simp
    · simp only [List.map_cons, List.mem_cons, ih]
      tauto

/-- R187: an index stays well-formed when a set that is not empty is raised into it. -/
theorem alertsWellFormed_raiseIn {o : AlertObject} {m : CauseSet} (hm : m ≠ 0) {l : List AlertEntry}
    (h : alertsWellFormed l) : alertsWellFormed (raiseIn o m l) := by
  induction l with
  | nil => exact ⟨by simp [raiseIn], by simpa [raiseIn] using hm⟩
  | cons e l ih =>
    obtain ⟨hnodup, hcauses⟩ := h
    obtain ⟨hnot, hnodup⟩ := List.nodup_cons.1 hnodup
    obtain ⟨he, hcauses⟩ := List.forall_mem_cons.1 hcauses
    obtain ⟨hnodup', hcauses'⟩ := ih ⟨hnodup, hcauses⟩
    rw [raiseIn]
    split
    · rename_i ho
      subst ho
      refine ⟨List.nodup_cons.2 ⟨hnot, hnodup⟩, List.forall_mem_cons.2 ⟨fun h0 => hm ?_, hcauses⟩⟩
      exact (BitVec.or_eq_zero_iff.1 h0).2
    · rename_i ho
      refine ⟨List.nodup_cons.2 ⟨fun hmem => ?_, hnodup'⟩, List.forall_mem_cons.2 ⟨he, hcauses'⟩⟩
      exact (mem_objects_raiseIn.1 hmem).elim ho hnot

/-- An index with entries left out. -/
theorem alertsWellFormed_sublist {l l' : List AlertEntry} (hl : l'.Sublist l) (h : alertsWellFormed l) : alertsWellFormed l' :=
  ⟨h.1.sublist (hl.map _), fun e he => h.2 e (hl.subset he)⟩

/-- R189: the objects of an index after an ACK are among those before it, in their order. -/
theorem objects_ackIn (o : AlertObject) (m : CauseSet) (l : List AlertEntry) :
    ((ackIn o m l).map AlertEntry.object).Sublist (l.map AlertEntry.object) := by
  induction l with
  | nil => exact .slnil
  | cons e l ih =>
    rw [ackIn]
    split
    · subst o
      split
      · exact List.sublist_cons_self _ _
      · exact .refl _
    · exact ih.cons_cons _

/-- R189: an index stays well-formed after an ACK. -/
theorem alertsWellFormed_ackIn {o : AlertObject} {m : CauseSet} {l : List AlertEntry} (h : alertsWellFormed l) :
    alertsWellFormed (ackIn o m l) := by
  refine ⟨h.1.sublist (objects_ackIn o m l), ?_⟩
  have hcauses := h.2
  clear h
  induction l with
  | nil => exact hcauses
  | cons e l ih =>
    obtain ⟨he, hcauses⟩ := List.forall_mem_cons.1 hcauses
    rw [ackIn]
    split
    · split
      · exact hcauses
      · exact List.forall_mem_cons.2 ⟨by assumption, hcauses⟩
    · exact List.forall_mem_cons.2 ⟨he, ih hcauses⟩

/-- Table 69: the set of one cause is not empty. -/
theorem Cause.mask_ne_zero (x : Cause) : x.mask ≠ 0 := by cases x <;> decide

/-- R187, R189: the port is exclusive and its alert index well-formed. -/
def Chip.portSound (c : Chip) : Prop := c.portExclusive ∧ alertsWellFormed c.port.alerts

/-- R181: decoding leaves a port with both slots EMPTY holding a response or a request. -/
theorem decodePut_portSound {m : List Byte} {c : Chip} (hq : c.port.request = none) (hr : c.port.response = none)
    (ha : alertsWellFormed c.port.alerts) : (decodePut m c).portSound := by
  unfold decodePut
  dsimp only
  split
  · exact ⟨.inl hq, ha⟩
  · exact ⟨.inl hq, ha⟩
  · split
    · exact ⟨.inl hq, ha⟩
    · exact ⟨.inr hr, ha⟩

/-- R180, R181, R189: the port's own operations keep it sound. -/
theorem portSound_portOps : PortOpsKeep Chip.portSound where
  returning _ _ hc := hc
  putMessage m c hc := by
    unfold putMessage
    extract_lets c1
    split
    · rename_i he
      exact decodePut_portSound (c := modPort (fun p => { p with overrun := false }) c1) he.1 he.2 hc.2
    · exact hc
  responseTaken _ hc := ⟨.inr rfl, hc.2⟩
  restartPort _ _ := ⟨.inl rfl, alertsWellFormed_raiseIn (l := []) (Cause.mask_ne_zero _) ⟨List.nodup_nil, by simp⟩⟩
  takeRequest i owner c ho hc := by
    have hw : ∀ c, c.portSound → (writeAnswer i (owner c)).portSound := fun c hc => ⟨.inl rfl, (ho c hc).2⟩
    exact ite_keeps (hw c hc) (ite_keeps (hw _ hc) hc)
  settings _ _ hc := hc
  dropObject _ _ hc := ⟨hc.1, alertsWellFormed_sublist List.filter_sublist hc.2⟩
  ackOwner o m c hc := by
    unfold ackOwner
    split
    · exact ⟨hc.1, alertsWellFormed_ackIn hc.2⟩
    · exact hc
  restartOrder _ hc := hc

theorem raise_portSound (o : AlertObject) (x : Cause) (c : Chip) (hc : c.portSound) : (raise o x c).portSound :=
  ⟨hc.1, alertsWellFormed_raiseIn x.mask_ne_zero hc.2⟩

theorem portSound_fans : FanKeeps Chip.portSound where
  power _ _ hc := hc
  raise := raise_portSound
  messages _ _ hc := hc
  fans _ _ hc := hc

/-- R180 to R182, R187: the port is sound through every operation. -/
theorem portSound_keeps : OpsKeep Chip.portSound :=
  { portSound_portOps, portSound_fans.toOps, (HubKeeps.mk (fun _ _ hc => hc) raise_portSound).toOps,
    portSound_fans.toPowerKeeps with
    slots := fun _ _ hc => hc
    engines := fun _ _ hc => hc
    inventory := fun _ _ hc => hc
    modules := fun _ _ hc => hc
    statusPages := fun _ _ hc => hc
    reset := fun _ _ => ⟨.inl rfl, List.nodup_nil, by simp [coldReset, Chip.reset, Port.reset]⟩ }

/-- R97: after the queue service nothing is owed. -/
theorem queueService_quiescent (c : Chip) : (queueService c).quiescent := by
  refine ⟨rfl, fun e he => ?_⟩
  obtain ⟨x, -, rfl⟩ := List.mem_map.1 he
  rfl

/-- Settles O59, from the soundness of the port and the queue service that ends every command. -/
theorem stepKeepsPort : Obligations.StepKeepsPort := by
  intro s t hp ha hq h
  obtain ⟨hport, halerts⟩ := step_keeps (fun i _ _ hp hx => portSound_keeps.exec i hp hx) ⟨hp, ha⟩ h
  refine ⟨hport, halerts, ?_⟩
  obtain rfl | ⟨i, s', -, hi⟩ := step_cases h
  · exact hq
  · obtain ⟨event, he⟩ := exec_eq_taken i s'
    cases he.symm.trans hi
    exact queueService_quiescent _

/-! ## The state after reset -/

/-- Settles O60, record by record. -/
theorem resetMeetsInvariants : Obligations.ResetMeetsInvariants := by
  have hfan : ∀ f, State.reset.chip.fan f = Fan.reset := fun f => Bank.read_fill _ f
  have hchannel : ∀ h, State.reset.chip.channel h = none := fun h => Bank.read_fill _ h
  refine ⟨fun k => ?_, fun f => ?_, fun h ch hch => ?_, .inl rfl, ⟨List.nodup_nil, by simp [State.reset, Chip.reset, Port.reset]⟩,
    ⟨rfl, by simp [State.reset, Chip.reset, Power.reset]⟩, rfl⟩
  · have hk : State.reset.chip.slot k = Slot.reset (InputLevels.low.early.read k) (InputLevels.low.late.read k)
        (InputLevels.low.latch.read k) (InputLevels.low.powerGood.read k) := Bank.read_gen _ k
    rw [hk]
    exact Slot.reset_coherent ..
  · rw [hfan]
    simp [Fan.banded, Fan.reset]
  · rw [hchannel] at hch
    cases hch

end Sys2Proof.Machine

/-!
PROOF. The fan records: what a reservation leaves alone, the record each entry to a driven state leaves, and that every
operation of the fan controller keeps every fan within the band it has reserved (R123).
-/

namespace Sys2Proof.Machine

variable {c c' : Chip} {f : Fin 8} {z : Fin 4}

/-! ## Fan records after a write -/

theorem fan_modFan (f j : Fin 8) (g : Fan → Fan) (c : Chip) :
    (modFan f g c).fan j = if j = f then g (c.fan f) else c.fan j := fan_setFan ..

@[simp] theorem fan_modFan_self (f : Fin 8) (g : Fan → Fan) (c : Chip) : (modFan f g c).fan f = g (c.fan f) :=
  fan_setFan_self ..

/-- The fan controller's records are written the same way in parts that hold them alike. -/
theorem modFan_fans_congr (h : c'.fans = c.fans) (f : Fin 8) (g : Fan → Fan) :
    (modFan f g c').fans = (modFan f g c).fans := by
  simp only [modFan, setFan, Chip.fan, h]

theorem modFan_modFan (f : Fin 8) (g g' : Fan → Fan) (c : Chip) :
    modFan f g' (modFan f g c) = modFan f (fun r => g' (g r)) c := by
  have hb : (modFan f g c).fans.fans.put f (g' (g (c.fan f))) = c.fans.fans.put f (g' (g (c.fan f))) :=
    Bank.put_put ..
  show { (modFan f g c) with fans := { (modFan f g c).fans with
    fans := (modFan f g c).fans.fans.put f (g' ((modFan f g c).fan f)) } } = _
  rw [fan_modFan_self, hb]
  rfl

/-- Two writes of one fan's record, the second in a part that holds the records as the first left them. -/
theorem modFan_fans_trans {g g' : Fan → Fan} (h : c'.fans = (modFan f g c).fans) :
    (modFan f g' c').fans = (modFan f (fun r => g' (g r)) c).fans := by
  rw [modFan_fans_congr h, modFan_modFan]

theorem fan_congr (h : c'.fans = c.fans) (f : Fin 8) : c'.fan f = c.fan f := by rw [Chip.fan, h]; rfl

/-- R87, R88: a reservation given moves no record of the fan controller. -/
theorem giveReservation_fans (f : Fin 8) (band rated : Nat) (c : Chip) :
    (giveReservation f band rated c).fans = c.fans :=
  ((Chip.sameButPower_keeps c).giveReservation f band rated (.refl c)).fans

/-- R123: of the fan controller's records a write of the reserved band changes that alone. -/
theorem reserve_fans (f : Fin 8) (step : Nat) (c : Chip) :
    (reserve f step c).fans = (modFan f (fun r => { r with reservedBand := step }) c).fans := giveReservation_fans ..

/-! ## The records that entries leave -/

/-- R126: the record as the search starts. -/
def Fan.searching (r : Fan) : Fan :=
  { r with searchTarget := r.target, search := some { index := 0, partialResult := 0, trial := 32 }, band := 32,
           window := .settle }

/-- R126: the record after an entry to CALIBRATING. -/
def Fan.calibrating (r : Fan) : Fan :=
  Fan.searching { r with reservedBand := 63, state := .calibrating, lockCount := 0, weakCount := 0, stallCount := 0,
                         releaseTimer := false, pinnedBand := none }

/-- R135: the record after an entry to BOOST. -/
def Fan.boosted (r : Fan) : Fan :=
  let restarted : Bool := r.state = .identifying ∨ r.state = .failed
  { r.runWindows 63 with
    reservedBand := 63, state := .boost, band := 63, search := none, releaseTimer := false, lockCount := 0,
    stallCount := if restarted then 0 else r.stallCount, weakCount := if restarted then 0 else r.weakCount }

/-- R133: the record after an entry to PINNED. -/
def Fan.pinned (band : Nat) (r : Fan) : Fan :=
  { r.runWindows band with
    state := .pinned, pinnedBand := some band, search := none, releaseTimer := false, lockCount := 0, weakCount := 0,
    band := band, reservedBand := stepCovering band }

/-- R132: the record of a fan that failed. -/
def Fan.failed (r : Fan) : Fan :=
  { r with band := 0, window := .none, windowBand := 0, releaseTimer := false, reservedBand := 0, search := none,
           pinnedBand := none, lockCount := 0, weakCount := 0, stallCount := 0, state := .failed }

theorem enterCalibrating_fans (f : Fin 8) (c : Chip) : (enterCalibrating f c).fans = (modFan f Fan.calibrating c).fans := by
  unfold enterCalibrating startSearch
  rw [modFan_fans_trans (modFan_fans_trans (reserve_fans f 63 c))]
  rfl

theorem enterBoost_fans (f : Fin 8) (c : Chip) : (enterBoost f c).fans = (modFan f Fan.boosted c).fans := by
  unfold enterBoost
  extract_lets restarted
  refine (modFan_fans_trans (reserve_fans f 63 c)).trans ?_
  simp only [modFan, setFan]
  rfl

theorem enterPinned_fans (f : Fin 8) (band : Nat) (c : Chip) :
    (enterPinned f band c).fans = (modFan f (Fan.pinned band) c).fans := by
  unfold enterPinned
  rw [reserve_fans, modFan_modFan]
  rfl

/-- R132: the records before the failure is raised and the zone evaluated. -/
theorem failFan_fans (f : Fin 8) (c : Chip) : ∃ c', c'.fans = (modFan f Fan.failed c).fans ∧
    failFan f c = evaluateZone (fanZone f) (raise (.fan f) .fanFailed c') := by
  refine ⟨_, ?_, rfl⟩
  refine modFan_fans_trans (g := fun r =>
    { r with band := 0, window := .none, windowBand := 0, releaseTimer := false, reservedBand := 0 }) ?_
  rw [reserve_fans, modFan_modFan]

/-! ## The steps of R123 -/

theorem stepCovering_bounds {b : Nat} (h : b ≤ 63) : b ≤ stepCovering b ∧ stepCovering b ≤ 63 := by
  unfold stepCovering
  split_ifs <;> omega

/-! ## The bound -/

theorem Fan.banded_reset : Fan.reset.banded := by simp [Fan.banded, Fan.reset]

theorem Fan.banded_searching {r : Fan} (h : r.banded) (hr : r.reservedBand = 63) : r.searching.banded := by
  obtain ⟨_, _, _, _, hpin⟩ := h
  refine ⟨?_, hr.le, fun _ => hr, ?_, hpin⟩
  · show 32 ≤ r.reservedBand
    omega
  · rintro s ⟨⟩
    exact ⟨by decide, rfl, by decide⟩

theorem Fan.banded_calibrating (r : Fan) : r.calibrating.banded := by
  refine ⟨show 32 ≤ 63 by decide, le_rfl, fun _ => rfl, ?_, nofun⟩
  rintro s ⟨⟩
  exact ⟨by decide, rfl, by decide⟩

theorem Fan.banded_boosted {r : Fan} (h : r.banded) : r.boosted.banded := by
  obtain ⟨_, _, _, _, hpin⟩ := h
  exact ⟨le_rfl, le_rfl, fun _ => rfl, nofun, hpin⟩

theorem Fan.banded_pinned {band : Nat} (h : band ≤ 63) (r : Fan) : (r.pinned band).banded := by
  obtain ⟨hlow, hhigh⟩ := stepCovering_bounds h
  exact ⟨hlow, hhigh, by simp [Fan.pinned], nofun, by rintro b ⟨⟩; exact h⟩

theorem Fan.banded_failed (r : Fan) : r.failed.banded := ⟨le_rfl, show 0 ≤ 63 by decide, by simp [Fan.failed], nofun, nofun⟩

/-- A write of one fan's record keeps the fans banded when it leaves that one so. -/
theorem fansBanded_modFan {g : Fan → Fan} (hg : (g (c.fan f)).banded) (hc : c.fansBanded) : (modFan f g c).fansBanded := by
  intro j
  rw [fan_modFan]
  split
  · exact hg
  · exact hc j

/-- The bound bears on the fan records alone. -/
theorem fansBanded_congr (h : c'.fans = c.fans) (hc : c.fansBanded) : c'.fansBanded := fun f => fan_congr h f ▸ hc f

theorem fansBanded_power : PowerKeeps Chip.fansBanded where
  power _ _ hc := hc
  raise _ _ _ hc := hc
  messages _ _ hc := hc

theorem fansBanded_enterCalibrating (hc : c.fansBanded) : (enterCalibrating f c).fansBanded :=
  fansBanded_congr (enterCalibrating_fans f c) (fansBanded_modFan (Fan.banded_calibrating _) hc)

theorem fansBanded_enterBoost (hc : c.fansBanded) : (enterBoost f c).fansBanded :=
  fansBanded_congr (enterBoost_fans f c) (fansBanded_modFan (Fan.banded_boosted (hc f)) hc)

theorem fansBanded_enterPinned {band : Nat} (hb : band ≤ 63) (hc : c.fansBanded) : (enterPinned f band c).fansBanded :=
  fansBanded_congr (enterPinned_fans f band c) (fansBanded_modFan (Fan.banded_pinned hb _) hc)

theorem fansBanded_calibrateOrBoost (hc : c.fansBanded) : (calibrateOrBoost f c).fansBanded :=
  ite_keeps (fansBanded_enterBoost hc) (fansBanded_enterCalibrating hc)

/-- A write of fields of a fan's record that R123 does not bear on. -/
theorem fansBanded_modFan_of_eq {g : Fan → Fan} (hc : c.fansBanded)
    (hg : ∀ r, (g r).band = r.band ∧ (g r).reservedBand = r.reservedBand ∧ (g r).search = r.search ∧
      (g r).pinnedBand = r.pinnedBand ∧ ((g r).state = .calibrating ∨ (g r).state = .boost →
        r.state = .calibrating ∨ r.state = .boost)) : (modFan f g c).fansBanded := by
  obtain ⟨hband, hres, hsearch, hpin, hstate⟩ := hg (c.fan f)
  obtain ⟨h1, h2, h3, h4, h5⟩ := hc f
  refine fansBanded_modFan ⟨?_, ?_, ?_, ?_, ?_⟩ hc
  · rwa [hband, hres]
  · rwa [hres]
  · rw [hres]
    exact fun h => h3 (hstate h)
  · rwa [hsearch]
  · rwa [hpin]

/-! ## Targets -/

theorem fansBanded_startSearch (hs : (c.fan f).state = .calibrating) (hc : c.fansBanded) : (startSearch f c).fansBanded :=
  fansBanded_modFan (Fan.banded_searching (hc f) ((hc f).2.2.1 (.inl hs))) hc

theorem fansBanded_targetChange (f : Fin 8) (t : Nat) (hc : c.fansBanded) : (targetChange f t c).fansBanded := by
  unfold targetChange
  extract_lets old c1
  have h1 : c1.fansBanded := fansBanded_modFan_of_eq hc fun _ => ⟨rfl, rfl, rfl, rfl, id⟩
  have hstate : (c1.fan f).state = old.state := by simp [c1, old]
  cases hs : old.state with
  | calibrating => exact ite_keeps (fansBanded_startSearch (hstate.trans hs) h1) h1
  | tracking => exact fansBanded_modFan_of_eq h1 fun _ => ⟨rfl, rfl, rfl, rfl, id⟩
  | locked => exact ite_keeps (fansBanded_modFan_of_eq h1 fun _ => ⟨rfl, rfl, rfl, rfl, by simp [unlock]⟩) h1
  | absent | identifying | pinned | boost | failed => exact h1

theorem fansBanded_deliverTarget (f : Fin 8) (hc : c.fansBanded) : (deliverTarget f c).fansBanded :=
  ite_keeps hc (ite_keeps hc (fansBanded_targetChange _ _ hc))

theorem fansBanded_recomputeTarget (z : Fin 4) (hc : c.fansBanded) : (recomputeTarget z c).fansBanded :=
  ite_keeps hc (fansBanded_deliverTarget _ (fansBanded_deliverTarget _ hc))

/-! ## Emergencies -/

theorem fansBanded_boostFan (f : Fin 8) (hc : c.fansBanded) : (boostFan f c).fansBanded := by
  unfold boostFan
  cases (c.fan f).state
  case calibrating | tracking | locked | pinned => exact fansBanded_enterBoost hc
  all_goals exact hc

theorem fansBanded_unboostFan (f : Fin 8) (hc : c.fansBanded) : (unboostFan f c).fansBanded := by
  unfold unboostFan
  split
  · split
    · rename_i b hb
      exact fansBanded_enterPinned ((hc f).2.2.2.2 b hb) hc
    · exact fansBanded_enterCalibrating hc
  · exact hc

theorem sendDrains_fanRecords (z : Fin 4) (c : Chip) : (sendDrains z c).fans.fans = c.fans.fans := by
  unfold sendDrains
  refine forEach_keeps (P := fun c' => c'.fans.fans = c.fans.fans) (keys 16) (sendDrain z) (fun k c' h => ?_) c rfl
  unfold sendDrain
  split
  · exact h
  · exact h

theorem fansBanded_sendDrains (z : Fin 4) (hc : c.fansBanded) : (sendDrains z c).fansBanded := fun f => by
  have h : (sendDrains z c).fan f = c.fan f := congrArg (·.read f) (sendDrains_fanRecords z c)
  rw [h]
  exact hc f

theorem fansBanded_modZone (z : Fin 4) (g : Zone → Zone) (hc : c.fansBanded) : (modZone z g c).fansBanded := hc

theorem fansBanded_evaluateZone (z : Fin 4) (hc : c.fansBanded) : (evaluateZone z c).fansBanded := by
  have hbegin : (beginEmergency z c).fansBanded := by
    unfold beginEmergency
    have h1 : (raise (.zone z) .zoneEmergency (modZone z
        (fun r => { r with emergency := true, cause := some (c.emergencyCause z) }) c)).fansBanded := hc
    exact fansBanded_modZone _ _ (forEach_keeps _ _ (fun _ _ hx => fansBanded_power.requestThermal _ hx) _
      (fansBanded_boostFan _ (fansBanded_boostFan _ h1)))
  have hend : (endEmergency z c).fansBanded := by
    unfold endEmergency
    have h1 : (modZone z (fun r => { r with graceTimer := false }) c).fansBanded := hc
    exact fansBanded_modZone _ _ (fansBanded_unboostFan _ (fansBanded_unboostFan _ (forEach_keeps _ _
      (fun _ _ hx => fansBanded_power.removeReason _ _ hx) _ h1)))
  unfold evaluateZone
  extract_lets c1
  have h1 : c1.fansBanded := hc
  clear_value c1
  exact ite_keeps (ite_keeps hend (ite_keeps (fansBanded_sendDrains z h1) h1)) (ite_keeps hbegin hc)

theorem fansBanded_refreshZone (z : Fin 4) (hc : c.fansBanded) : (refreshZone z c).fansBanded :=
  fansBanded_evaluateZone _ (ite_keeps hc (fansBanded_recomputeTarget _ hc))

/-! ## Samples -/

theorem fansBanded_failFan (f : Fin 8) (hc : c.fansBanded) : (failFan f c).fansBanded := by
  obtain ⟨c', hfans, hfail⟩ := failFan_fans f c
  rw [hfail]
  exact fansBanded_evaluateZone _ (fansBanded_congr (c' := raise _ _ c') hfans (fansBanded_modFan (Fan.banded_failed _) hc))

theorem fansBanded_updateWeak (f : Fin 8) (hc : c.fansBanded) : (updateWeak f c).fansBanded := by
  have hw : ∀ n : Fan → Nat, (modFan f (fun r => { r with weakCount := n r }) c).fansBanded := fun _ =>
    fansBanded_modFan_of_eq hc fun _ => ⟨rfl, rfl, rfl, rfl, id⟩
  unfold updateWeak
  extract_lets r c1
  have h1 : c1.fansBanded := hw _
  have h2 : (raise (.fan f) .fanWeak c1).fansBanded := h1
  exact ite_keeps (ite_keeps (ite_keeps h2 h1) (hw _)) hc

/-- R126: a decision leaves a search that is still bounded, or a result of at most 63. -/
theorem Search.bounded_next {s : Search} (h : s.bounded) {result : Nat} (hr : result = s.trial ∨ result = s.partialResult) :
    result ≤ 63 ∧ (s.index < 5 →
      Search.bounded { index := s.index + 1, partialResult := result, trial := result + decisionBit (s.index + 1) } ∧
      result + decisionBit (s.index + 1) ≤ 63) := by
  obtain ⟨i, p, t⟩ := s
  obtain ⟨hi, ht, hp⟩ := h
  dsimp only at *
  interval_cases i <;> simp_all [Search.bounded, decisionBit] <;> omega

theorem fansBanded_takeDecision {s : Search} (hs : (c.fan f).search = some s) (hstate : (c.fan f).state = .calibrating)
    (hc : c.fansBanded) : (takeDecision f s c).fansBanded := by
  obtain ⟨_, hres63, hfull, hsearch, hpin⟩ := hc f
  have hres := hfull (.inl hstate)
  unfold takeDecision
  extract_lets r result trial
  have hresult : result = s.trial ∨ result = s.partialResult := by
    by_cases hm : r.measured ≤ r.searchTarget
    · exact .inl (if_pos hm)
    · exact .inr (if_neg hm)
  obtain ⟨hle, hnext⟩ := Search.bounded_next (hsearch s hs) hresult
  split
  · rename_i hi
    obtain ⟨hb, htrial⟩ := hnext hi
    exact fansBanded_modFan ⟨htrial.trans hres.ge, hres63, fun _ => hres, by rintro x ⟨⟩; exact hb, hpin⟩ hc
  · unfold endSearch
    obtain ⟨hlow, hhigh⟩ := stepCovering_bounds hle
    have he : ((modFan f (fun r => { r with band := result, search := none }) c) |> reserve f (stepCovering result)
        |> modFan f (fun r => { r with state := .tracking, lockCount := 0, window := .count })).fans =
        (modFan f (fun r => { r with
          band := result, search := none, reservedBand := stepCovering result, state := .tracking, lockCount := 0,
          window := .count }) c).fans := by
      refine modFan_fans_trans (g := fun r =>
        { r with band := result, search := none, reservedBand := stepCovering result }) ?_
      rw [reserve_fans, modFan_modFan]
    exact fansBanded_congr he (fansBanded_modFan ⟨hlow, hhigh, by simp, nofun, hpin⟩ hc)

/-- R123, R129: a raise past the reserved band comes with the next step reserved. -/
theorem fansBanded_trackSample (hstate : (c.fan f).state = .tracking) (hc : c.fansBanded) : (trackSample f c).fansBanded := by
  have hlock : ∀ n : Fan → Nat, (modFan f (fun r => { r with lockCount := n r }) c).fansBanded := fun _ =>
    fansBanded_modFan_of_eq hc fun _ => ⟨rfl, rfl, rfl, rfl, id⟩
  obtain ⟨hband, hres, _, hsearch, hpin⟩ := hc f
  unfold trackSample
  extract_lets r c1
  refine ite_keeps (ite_keeps ?locked (hlock _)) ?_
  case locked => exact fansBanded_modFan_of_eq hc fun _ => ⟨rfl, rfl, rfl, rfl, by simp⟩
  split
  · rename_i hup
    by_cases hnext : r.reservedBand < r.band + 1
    · have hc1 : c1 = reserve f (stepAbove r.reservedBand) c := if_pos hnext
      have he := modFan_fans_trans (g' := fun r => { r with band := r.band + 1, lockCount := 0 })
        ((congrArg Chip.fans hc1).trans (reserve_fans f (stepAbove r.reservedBand) c))
      refine fansBanded_congr he (fansBanded_modFan ⟨?_, ?_, by simp [hstate], hsearch, hpin⟩ hc)
      · show r.band + 1 ≤ stepAbove r.reservedBand
        have : r.band ≤ r.reservedBand := hband
        unfold stepAbove
        split <;> omega
      · show stepAbove r.reservedBand ≤ 63
        unfold stepAbove
        split <;> omega
    · have hc1 : c1 = c := if_neg hnext
      rw [hc1]
      exact fansBanded_modFan ⟨Nat.not_lt.1 hnext, hres, by simp [hstate], hsearch, hpin⟩ hc
  · refine ite_keeps (fansBanded_modFan ⟨?_, hres, by simp [hstate], hsearch, hpin⟩ hc) (hlock _)
    exact (Nat.sub_le _ _).trans hband

theorem fansBanded_lockSample (f : Fin 8) (hc : c.fansBanded) : (lockSample f c).fansBanded :=
  fansBanded_modFan_of_eq hc fun r => by
    split
    · exact ⟨rfl, rfl, rfl, rfl, id⟩
    · split
      · exact ⟨rfl, rfl, rfl, rfl, by simp [unlock]⟩
      · exact ⟨rfl, rfl, rfl, rfl, id⟩

theorem fansBanded_takeSample (f : Fin 8) (pulses : Nat) (hc : c.fansBanded) : (takeSample f pulses c).fansBanded := by
  unfold takeSample
  extract_lets c1
  have h1 : c1.fansBanded := fansBanded_modFan_of_eq hc fun _ => ⟨rfl, rfl, rfl, rfl, id⟩
  refine ite_keeps (fansBanded_failFan f h1) ?_
  have h2 := fansBanded_updateWeak f h1
  generalize updateWeak f c1 = c2 at h2 ⊢
  have h3 : (sampleByState f c2).fansBanded := by
    unfold sampleByState
    split
    · rename_i hs
      split
      · rename_i hx
        exact fansBanded_takeDecision hx hs h2
      · exact h2
    · rename_i hs
      exact fansBanded_trackSample hs h2
    · exact fansBanded_lockSample f h2
    all_goals exact h2
  exact fansBanded_modFan_of_eq h3 fun r => by split <;> exact ⟨rfl, rfl, rfl, rfl, id⟩

/-! ## The operations -/

theorem fansBanded_fanOnSlot (k : Fin 16) (old new : SlotState) (hc : c.fansBanded) : (fanOnSlot k old new c).fansBanded := by
  unfold fanOnSlot
  extract_lets c1 c2
  have h1 : c1.fansBanded := ite_keeps hc hc
  have h2 : c2.fansBanded := fansBanded_refreshZone _ h1
  exact ite_keeps (ite_keeps (fansBanded_power.requestThermal _ h2) h2) h1

theorem fansBanded_identifyFan (f : Fin 8) (r : Option InvRef) (assumed : Bool) (rated speed pulses : Nat)
    (hc : c.fansBanded) : (identifyFan f r assumed rated speed pulses c).fansBanded := by
  have h1 : (modFan f (fun r' => { r' with
      handle := r, assumed := assumed, ratedDraw := rated, maxSpeed := speed, pulses := pulses }) c).fansBanded :=
    fansBanded_modFan_of_eq hc fun _ => ⟨rfl, rfl, rfl, rfl, id⟩
  exact fansBanded_calibrateOrBoost (fansBanded_modFan_of_eq h1 fun _ => ⟨rfl, rfl, rfl, rfl, id⟩)

theorem fansBanded_fanRemoval (f : Fin 8) (hc : c.fansBanded) : (fanRemoval f c).fansBanded := by
  have he : (c |> modFan f (fun r => { r with band := 0, window := .none, releaseTimer := false }) |> reserve f 0
      |> modFan f (fun _ => Fan.reset)).fans = (modFan f (fun _ => Fan.reset) c).fans := by
    refine modFan_fans_trans (g := fun r => { r with band := 0, window := .none, releaseTimer := false, reservedBand := 0 }) ?_
    rw [reserve_fans, modFan_modFan]
  exact ite_keeps hc (fansBanded_evaluateZone _ (fansBanded_congr he (fansBanded_modFan Fan.banded_reset hc)))

theorem fansBanded_restartFan (f : Fin 8) (hc : c.fansBanded) : (restartFan f c).fansBanded := by
  unfold restartFan
  cases hs : (c.fan f).state with
  | absent | identifying | failed => exact fansBanded_deliverTarget f hc
  | calibrating =>
    have h1 : (modFan f (fun r => { r with target := c.fanTarget f }) c).fansBanded :=
      fansBanded_modFan_of_eq hc fun _ => ⟨rfl, rfl, rfl, rfl, id⟩
    refine fansBanded_startSearch ?_ h1
    rw [fan_modFan_self]
    exact hs
  | tracking | locked | boost => exact fansBanded_deliverTarget f (fansBanded_enterCalibrating hc)
  | pinned => exact fansBanded_deliverTarget f (fansBanded_modFan_of_eq hc fun _ => ⟨rfl, rfl, rfl, rfl, id⟩)

/-- R133: a pin above 63 is refused. -/
theorem fansBanded_pinFan (f : Fin 8) (band : Nat) (hc : c.fansBanded) : (pinFan f band c).1.fansBanded := by
  unfold pinFan
  split
  · exact hc
  · rename_i hb
    have hb := Nat.not_lt.1 hb
    cases (c.fan f).state <;> dsimp only
    case calibrating | tracking | locked | pinned => exact fansBanded_enterPinned hb hc
    case boost =>
      obtain ⟨h1, h2, h3, h4, _⟩ := hc f
      exact fansBanded_modFan ⟨h1, h2, h3, h4, by rintro b ⟨⟩; exact hb⟩ hc
    all_goals exact hc

theorem fansBanded_unpinFan (f : Fin 8) (hc : c.fansBanded) : (unpinFan f c).1.fansBanded := by
  obtain ⟨h1, h2, h3, h4, _⟩ := hc f
  have hun : (modFan f (fun r => { r with pinnedBand := none }) c).fansBanded :=
    fansBanded_modFan ⟨h1, h2, h3, h4, nofun⟩ hc
  unfold unpinFan
  split
  · exact fansBanded_calibrateOrBoost hun
  · exact hun
  · exact hc

/-- R130: the release timer brings the reserved band down to the step covering the band. -/
theorem fansBanded_releaseExpired (f : Fin 8) (hc : c.fansBanded) : (releaseExpired f c).fansBanded := by
  unfold releaseExpired
  split
  · rename_i hl
    obtain ⟨hlow, hhigh⟩ := stepCovering_bounds ((hc f).1.trans (hc f).2.1)
    have he : (releaseLocked f c).fans = (modFan f (fun r =>
        { r with releaseTimer := false, reservedBand := stepCovering (c.fan f).band }) c).fans := by
      unfold releaseLocked
      rw [reserve_fans, modFan_modFan]
    obtain ⟨_, _, _, h4, h5⟩ := hc f
    exact fansBanded_congr he (fansBanded_modFan ⟨hlow, hhigh, by simp [hl.1], h4, h5⟩ hc)
  · exact hc

/-- R123: every operation of the fan controller keeps every fan within the band it has reserved. -/
theorem fansBanded_fanOps : FanOpsKeep Chip.fansBanded where
  fanOnSlot _ _ _ _ hc := fansBanded_fanOnSlot _ _ _ hc
  fanOnStatus _ _ hc := ite_keeps (fansBanded_refreshZone _ hc) hc
  fanArrival _ _ hc := ite_keeps (fansBanded_evaluateZone _
    (fansBanded_modFan (by simp [Fan.banded, Fan.reset]) hc)) hc
  fanIdentity _ _ _ _ _ _ hc := ite_keeps (fansBanded_identifyFan _ _ _ _ _ _ hc) hc
  fanReadFailed f c hc := ite_keeps (fansBanded_identifyFan (c := raise (.fan f) .fanAssumed c) _ _ _ _ _ _ hc) hc
  fanRemoval _ _ hc := fansBanded_fanRemoval _ hc
  settleEnded _ _ hc := fansBanded_modFan_of_eq hc fun r => by split <;> exact ⟨rfl, rfl, rfl, rfl, id⟩
  windowEnded _ _ _ hc := ite_keeps (fansBanded_takeSample _ _ hc) hc
  releaseExpired _ _ hc := fansBanded_releaseExpired _ hc
  modZone _ _ _ hc := hc
  graceExpired z c hc := by
    have h1 : (modZone z (fun r => { r with grace := some 0, graceTimer := false }) c).fansBanded := hc
    exact ite_keeps (fansBanded_sendDrains z h1) hc
  commitCurve z c hc := by
    unfold commitCurve
    split
    · exact fansBanded_recomputeTarget z hc
    · exact hc
  pinFan _ _ _ hc := fansBanded_pinFan _ _ hc
  unpinFan _ _ hc := fansBanded_unpinFan _ hc
  retryFan f c hc := by
    unfold retryFan
    split
    · exact fansBanded_evaluateZone _ (fansBanded_calibrateOrBoost hc)
    · exact hc
  fanSettings _ _ _ hc := forEach_keeps _ _ (fun _ _ hx =>
      ite_keeps hx (ite_keeps (fansBanded_power.requestThermal _ hx) (ite_keeps (fansBanded_power.removeReason _ _ hx) hx))) _
    (forEach_keeps _ _ (fun _ _ hx => fansBanded_refreshZone _ hx) _ hc)
  restartFans _ hc := forEach_keeps _ _ (fun _ _ hx => fansBanded_restartFan _ hx) _
    (forEach_keeps _ _ (fun _ _ hx => fansBanded_modZone _ _ hx) _ hc)

/-- R123: the bound is kept by every operation. -/
theorem fansBanded_keeps : OpsKeep Chip.fansBanded :=
  { fansBanded_power, fansBanded_fanOps, (HubKeeps.mk (fun _ _ hc => hc) fun _ _ _ hc => hc).toOps,
    PortOpsKeep.of_port (fun _ _ hc => hc) (fun _ _ hc => hc) with
    slots := fun _ _ hc => hc
    engines := fun _ _ hc => hc
    inventory := fun _ _ hc => hc
    modules := fun _ _ hc => hc
    statusPages := fun _ _ hc => hc
    reset := fun c _ f => by
      have hf : (coldReset c).fan f = Fan.reset := Bank.read_fill _ f
      rw [hf]
      exact Fan.banded_reset }

/-- Settles O57: what every operation keeps, every step keeps. -/
theorem stepKeepsFansBanded : Obligations.StepKeepsFansBanded := fun _ _ hc h =>
  step_keeps (fun i _ _ hp hx => fansBanded_keeps.exec i hp hx) hc h

end Sys2Proof.Machine

/-!
PROOF. The cells of the channels: a channel's frames stay in its cell range, because every operation of the hub either
leaves a record's frames and range as they are, drops frames, detaches the head of a queue it empties, or stores a frame
that the free cells hold (R151, R162, R164).
-/

namespace Sys2Proof.Machine

variable {c : Chip} {h : Fin 32}

/-! ## Records -/

/-- A change of a record that keeps its frames in its cells. -/
def Channel.Eases (f : Channel → Channel) : Prop := ∀ ch : Channel, ch.fits → (f ch).fits

theorem cellsOf_cons (n : Nat) (l : List Nat) : cellsOf (n :: l) = frameCells n + cellsOf l := by simp [cellsOf]

theorem cellsOf_append (l m : List Nat) : cellsOf (l ++ m) = cellsOf l + cellsOf m := by simp [cellsOf]

theorem cellsOf_tail_le (l : List Nat) : cellsOf l.tail ≤ cellsOf l := by
  cases l with
  | nil => exact Nat.le_refl _
  | cons n l => simp [cellsOf_cons]

theorem cellsOf_head?_le (l : List Nat) : cellsOf l.head?.toList ≤ cellsOf l := by
  cases l with
  | nil => exact Nat.le_refl _
  | cons n l => simp [cellsOf]

theorem Channel.eases_of_eq {f : Channel → Channel} (hf : ∀ ch, (f ch).down = ch.down ∧ (f ch).up = ch.up ∧
    (f ch).detachedDown = ch.detachedDown ∧ (f ch).detachedUp = ch.detachedUp ∧ (f ch).cellCount = ch.cellCount) :
    Channel.Eases f := fun ch hch => by
  obtain ⟨hd, hu, hdd, hdu, hn⟩ := hf ch
  rwa [Channel.fits, Channel.cellsInUse, hd, hu, hdd, hdu, hn]

/-- R162: a flush drops the queues; the frame it detaches was the head of one. -/
theorem Channel.flushed_eases (onLane onUplink : Bool) : Channel.Eases fun ch => ch.flushed onLane onUplink := fun ch hch => by
  have hd := cellsOf_head?_le ch.down
  have hu := cellsOf_head?_le ch.up
  have hnil : cellsOf [] = 0 := rfl
  cases onLane <;> cases onUplink <;> simp only [Channel.fits, Channel.cellsInUse, Channel.flushed] at hch ⊢ <;> simp <;> omega

/-! ## Writes of a record -/

theorem channelsFit_setChannel {x : Option Channel} (hx : ∀ ch, x = some ch → ch.fits) (hc : c.channelsFit) :
    (setChannel h x c).channelsFit := fun i ch hi => by
  rw [channel_setChannel] at hi
  split at hi
  · exact hx ch hi
  · exact hc i ch hi

theorem channelsFit_setSome {ch : Channel} (hch : ch.fits) (hc : c.channelsFit) : (setChannel h (some ch) c).channelsFit :=
  channelsFit_setChannel (fun _ e => Option.some.inj e ▸ hch) hc

theorem channelsFit_modChannel {f : Channel → Channel} (hf : Channel.Eases f) (hc : c.channelsFit) :
    (modChannel h f c).channelsFit := by
  refine channelsFit_setChannel (fun ch e => ?_) hc
  obtain ⟨ch', hch', rfl⟩ := Option.map_eq_some_iff.1 e
  exact hf ch' (hc h ch' hch')

theorem channelsFit_modUplink (u : Fin 2) (f : Uplink → Uplink) (hc : c.channelsFit) : (modUplink u f c).channelsFit := hc
theorem channelsFit_modLane (k : Fin 16) (f : Lane → Lane) (hc : c.channelsFit) : (modLane k f c).channelsFit := hc
theorem channelsFit_raise (o : AlertObject) (x : Cause) (hc : c.channelsFit) : (raise o x c).channelsFit := hc

/-- A change of fields of a record that R164 does not bear on. -/
theorem channelsFit_modChannel_of_eq {f : Channel → Channel} (hc : c.channelsFit) (hf : ∀ ch, (f ch).down = ch.down ∧
    (f ch).up = ch.up ∧ (f ch).detachedDown = ch.detachedDown ∧ (f ch).detachedUp = ch.detachedUp ∧
    (f ch).cellCount = ch.cellCount) : (modChannel h f c).channelsFit := channelsFit_modChannel (Channel.eases_of_eq hf) hc

/-- A write back of a record with fields changed that R164 does not bear on. -/
theorem channelsFit_setSome_of_eq {ch : Channel} (f : Channel → Channel) (hch : c.channel h = some ch) (hc : c.channelsFit)
    (hf : ∀ ch, (f ch).down = ch.down ∧ (f ch).up = ch.up ∧ (f ch).detachedDown = ch.detachedDown ∧
      (f ch).detachedUp = ch.detachedUp ∧ (f ch).cellCount = ch.cellCount) :
    (setChannel h (some (f ch)) c).channelsFit := channelsFit_setSome (Channel.eases_of_eq hf ch (hc h ch hch)) hc

/-! ## Frames leave -/

theorem channelsFit_revert (h : Fin 32) (hc : c.channelsFit) : (revert h c).channelsFit :=
  channelsFit_modChannel_of_eq hc fun ch => by split <;> exact ⟨rfl, rfl, rfl, rfl, rfl⟩

theorem channelsFit_freeing (h : Fin 32) {f : Chip → Chip} (hf : (f c).channelsFit) : (freeing h f c).channelsFit :=
  ite_keeps (channelsFit_revert h hf) hf

theorem channelsFit_flush (h : Fin 32) (hc : c.channelsFit) : (flush h c).channelsFit := by
  unfold flush
  split
  · exact hc
  · rename_i ch hch
    refine channelsFit_freeing h ?_
    exact channelsFit_modUplink _ _ (channelsFit_modLane _ _
      (channelsFit_setSome (Channel.flushed_eases _ _ ch (hc h ch hch)) hc))

theorem channelsFit_holdForSlot (h : Fin 32) (hc : c.channelsFit) : (holdForSlot h c).channelsFit :=
  channelsFit_flush h (channelsFit_modChannel_of_eq hc fun _ => ⟨rfl, rfl, rfl, rfl, rfl⟩)

theorem channelsFit_enterBar (h : Fin 32) (hc : c.channelsFit) : (enterBar h c).channelsFit :=
  channelsFit_flush h (channelsFit_modChannel_of_eq hc fun _ => ⟨rfl, rfl, rfl, rfl, rfl⟩)

theorem Channel.dropUp_eases (n : Channel → ChannelCounters) :
    Channel.Eases fun ch => { ch with up := ch.up.tail, counters := n ch } := fun ch hch => by
  have hu := cellsOf_tail_le ch.up
  simp only [Channel.fits, Channel.cellsInUse] at hch ⊢
  omega

theorem Channel.dropDown_eases (n : Channel → ChannelCounters) :
    Channel.Eases fun ch => { ch with down := ch.down.tail, counters := n ch } := fun ch hch => by
  have hd := cellsOf_tail_le ch.down
  simp only [Channel.fits, Channel.cellsInUse] at hch ⊢
  omega

theorem Channel.dropDetachedUp_eases : Channel.Eases fun ch => { ch with detachedUp := none } := fun ch hch => by
  have hnil : cellsOf (none : Option Nat).toList = 0 := rfl
  simp only [Channel.fits, Channel.cellsInUse, hnil] at hch ⊢
  omega

theorem Channel.dropDetachedDown_eases : Channel.Eases fun ch => { ch with detachedDown := none } := fun ch hch => by
  have hnil : cellsOf (none : Option Nat).toList = 0 := rfl
  simp only [Channel.fits, Channel.cellsInUse, hnil] at hch ⊢
  omega

theorem Channel.dropDetached_eases : Channel.Eases fun ch => { ch with detachedDown := none, detachedUp := none } :=
  fun ch hch => Channel.dropDetachedDown_eases _ (Channel.dropDetachedUp_eases ch hch)

theorem channelsFit_startLane (k : Fin 16) (hc : c.channelsFit) : (startLane k c).channelsFit := by
  unfold startLane
  split
  · exact channelsFit_modLane _ _ hc
  · exact hc

theorem channelsFit_uplinkTransmitted (u : Fin 2) (hc : c.channelsFit) : (uplinkTransmitted u c).channelsFit := by
  unfold uplinkTransmitted
  split
  · exact hc
  · rename_i x _
    refine channelsFit_modUplink (c := uplinkSent u x c) _ _ ?_
    cases x
    · exact channelsFit_freeing _ (channelsFit_modChannel (Channel.dropUp_eases _) (channelsFit_modUplink u _ hc))
    · exact channelsFit_freeing _ (channelsFit_modChannel Channel.dropDetachedUp_eases (channelsFit_modUplink u _ hc))

theorem channelsFit_laneTransmitted (k : Fin 16) (hc : c.channelsFit) : (laneTransmitted k c).channelsFit := by
  unfold laneTransmitted
  split
  · exact hc
  · rename_i x _
    refine channelsFit_startLane _ ?_
    cases x
    · exact channelsFit_freeing _ (channelsFit_modChannel (Channel.dropDown_eases _) (channelsFit_modLane k _ hc))
    · exact channelsFit_freeing _ (channelsFit_modChannel Channel.dropDetachedDown_eases (channelsFit_modLane k _ hc))

theorem channelsFit_discardEntry (u : Fin 2) (e : Fin 32 × Nat) (hc : c.channelsFit) : (discardEntry u e c).channelsFit :=
  channelsFit_modUplink _ _ (channelsFit_modChannel (Channel.dropUp_eases _) hc)

theorem channelsFit_discardEgress (u : Fin 2) (hc : c.channelsFit) : (discardEgress u c).channelsFit := by
  unfold discardEgress
  extract_lets r c1 c2
  have h1 : c1.channelsFit := forEach_keeps _ _ (fun _ _ hx => channelsFit_discardEntry _ _ hx) _ hc
  refine channelsFit_modUplink _ _ ?_
  show Chip.channelsFit (match r.sending with | some (.detached i) => modChannel i _ c1 | _ => c1)
  split
  · exact channelsFit_modChannel Channel.dropDetachedUp_eases h1
  · exact h1

/-! ## Frames arrive -/

/-- R170, R171: a frame joins a queue only when the free cells hold it. -/
theorem channelsFit_storeFrame (side : Side) {ch : Channel} {length : Nat} (hch : ch.fits)
    (hfree : frameCells length ≤ ch.cellCount - ch.cellsInUse) (hc : c.channelsFit) :
    (storeFrame side h ch length c).channelsFit := by
  have hone : cellsOf [length] = frameCells length := by simp [cellsOf]
  cases side
  · refine channelsFit_startLane _ (channelsFit_setSome ?_ hc)
    simp only [Channel.fits, Channel.cellsInUse, cellsOf_append, hone] at hch hfree ⊢
    omega
  · refine channelsFit_modUplink _ _ (channelsFit_modUplink _ _ (channelsFit_setSome ?_ hc))
    simp only [Channel.fits, Channel.cellsInUse, cellsOf_append, hone] at hch hfree ⊢
    omega

theorem channelsFit_frameFate (side : Side) {ch : Channel} (length : Nat) (hch : c.channel h = some ch) (hc : c.channelsFit) :
    (frameFate side h ch length c).channelsFit := by
  unfold frameFate
  extract_lets counted
  have h1 : ∀ x, (counted x).channelsFit := fun x =>
    channelsFit_setSome_of_eq (fun ch => { ch with counters := x }) hch hc fun _ => ⟨rfl, rfl, rfl, rfl, rfl⟩
  clear_value counted
  have hbar : ∀ x, (raise (.channel h) .oversize (enterBar h (counted x))).channelsFit := fun x =>
    channelsFit_enterBar h (h1 x)
  split
  · exact h1 _
  · exact ite_keeps (hbar _) (h1 _)
  · split
    · exact hbar _
    · split
      · rename_i hfree
        exact channelsFit_storeFrame _ (hc h ch hch) hfree hc
      · exact h1 _

/-- R170, R171: the channel a frame is matched to is the record of its handle. -/
theorem channel_of_channelFor {tag : Nat} {p : Channel → Bool} {ch : Channel} (hf : c.channelFor tag p = some (h, ch)) :
    c.channel h = some ch := by
  unfold Chip.channelFor at hf
  obtain ⟨i, _, hi⟩ := List.exists_of_findSome?_eq_some hf
  split at hi
  · split at hi
    · cases hi
      assumption
    · exact nomatch hi
  · exact nomatch hi

theorem channelsFit_uplinkFrame (u : Fin 2) (x : Frame) (hc : c.channelsFit) : (uplinkFrame u x c).channelsFit := by
  unfold uplinkFrame
  extract_lets c1
  have h1 : c1.channelsFit := hc
  clear_value c1
  refine ite_keeps ?_ hc
  split
  · rename_i hf
    exact channelsFit_frameFate _ _ (channel_of_channelFor hf) h1
  · exact channelsFit_modUplink _ _ h1

theorem channelsFit_uplinkCompletion (u : Fin 2) (x : Frame) (hc : c.channelsFit) : (uplinkCompletion u x c).channelsFit := by
  unfold uplinkCompletion
  extract_lets c1
  have h1 : c1.channelsFit := hc
  exact ite_keeps (ite_keeps (channelsFit_uplinkFrame u x h1) h1) hc

theorem channelsFit_laneCompletion (k : Fin 16) (x : Frame) (hc : c.channelsFit) : (laneCompletion k x c).channelsFit := by
  unfold laneCompletion
  extract_lets c1
  have h1 : c1.channelsFit := hc
  clear_value c1
  refine ite_keeps hc (ite_keeps ?_ hc)
  split
  · rename_i hf
    exact channelsFit_frameFate _ _ (channel_of_channelFor hf) h1
  · exact channelsFit_modLane _ _ h1

/-! ## The slot's reports -/

theorem channelsFit_autoPassChannel (h : Fin 32) (hc : c.channelsFit) : (autoPassChannel h c).channelsFit := by
  unfold autoPassChannel
  split
  · exact hc
  · rename_i ch hch
    split
    · exact channelsFit_setSome_of_eq (Channel.passOn _) hch hc fun _ => ⟨rfl, rfl, rfl, rfl, rfl⟩
    · exact channelsFit_raise _ _ (channelsFit_setSome_of_eq (Channel.hold _) hch hc fun _ => ⟨rfl, rfl, rfl, rfl, rfl⟩)

theorem channelsFit_hubOnSlot (k : Fin 16) (old new : SlotState) (hc : c.channelsFit) :
    (hubOnSlot k old new c).channelsFit := by
  unfold hubOnSlot
  extract_lets c1
  have h1 : c1.channelsFit := ite_keeps (forEach_keeps _ _ (fun _ _ hx => channelsFit_holdForSlot _ hx) _ hc) hc
  clear_value c1
  cases new
  case empty | seated | interrogating | negotiating =>
    refine forEach_keeps _ _ (fun _ _ hx => ?_) _ h1
    exact channelsFit_modChannel_of_eq hx fun _ => ⟨rfl, rfl, rfl, rfl, rfl⟩
  case running => exact forEach_keeps _ _ (fun _ _ hx => channelsFit_autoPassChannel _ hx) _ h1
  all_goals exact h1

theorem channelsFit_matchChannel (l : List (Fin 32)) (h : Fin 32) (hc : c.channelsFit) : (matchChannel l h c).channelsFit := by
  unfold matchChannel
  split
  · exact hc
  · rename_i ch hch
    have h1 (b : Bool) : (setChannel h (some { ch with granted := b }) c).channelsFit :=
      channelsFit_setSome_of_eq (fun ch => { ch with granted := b }) hch hc fun _ => ⟨rfl, rfl, rfl, rfl, rfl⟩
    exact ite_keeps (h1 true) (ite_keeps (channelsFit_holdForSlot h (h1 false)) (h1 false))

/-! ## Failover -/

theorem channelsFit_failOver (h : Fin 32) (hc : c.channelsFit) : (failOver h c).channelsFit :=
  channelsFit_modChannel_of_eq hc fun _ => ⟨rfl, rfl, rfl, rfl, rfl⟩

theorem channelsFit_holdForUplink (h : Fin 32) (hc : c.channelsFit) : (holdForUplink h c).channelsFit :=
  channelsFit_modChannel_of_eq hc fun _ => ⟨rfl, rfl, rfl, rfl, rfl⟩

theorem channelsFit_uplinkLoss (u : Fin 2) (hc : c.channelsFit) : (uplinkLoss u c).channelsFit := by
  unfold uplinkLoss
  refine channelsFit_raise _ _ (forEach_keeps _ _ (fun _ _ hx => channelsFit_holdForUplink _ hx) _ ?_)
  exact forEach_keeps _ _ (fun _ _ hx => channelsFit_failOver _ hx) _ (channelsFit_discardEgress u hc)

theorem channelsFit_passOn (h : Fin 32) (u : Fin 2) (hc : c.channelsFit) :
    (modChannel h (Channel.passOn u) c).channelsFit :=
  channelsFit_modChannel_of_eq hc fun _ => ⟨rfl, rfl, rfl, rfl, rfl⟩

theorem channelsFit_liftChannels (u : Fin 2) (hc : c.channelsFit) : (liftChannels u c).channelsFit :=
  forEach_keeps _ _ (fun _ _ hx => channelsFit_passOn _ u hx) _ hc

theorem channelsFit_takeOverChannels (u : Fin 2) (hc : c.channelsFit) : (takeOverChannels u c).channelsFit := by
  unfold takeOverChannels
  refine ite_keeps hc (forEach_keeps _ _ (fun _ _ hx => ?_) _ hc)
  exact channelsFit_raise _ _ (channelsFit_passOn _ u hx)

theorem channelsFit_uplinkReturn (u : Fin 2) (hc : c.channelsFit) : (uplinkReturn u c).channelsFit := by
  unfold uplinkReturn
  refine channelsFit_raise _ _ (forEach_keeps _ _ (fun _ _ hx => channelsFit_revert _ hx) _ ?_)
  exact channelsFit_takeOverChannels u (channelsFit_liftChannels u hc)

theorem channelsFit_changeUplink (u : Fin 2) (f : Uplink → Uplink) (hc : c.channelsFit) :
    (changeUplink u f c).channelsFit := by
  unfold changeUplink
  extract_lets after
  have h1 : after.channelsFit := hc
  exact ite_keeps (channelsFit_uplinkLoss u h1) (ite_keeps (channelsFit_uplinkReturn u h1) h1)

/-! ## Orders and definitions -/

theorem channelsFit_passChannel (h : Fin 32) (hc : c.channelsFit) : (passChannel h c).1.channelsFit := by
  unfold passChannel
  split
  · exact hc
  · rename_i ch hch
    cases ch.state <;> dsimp only
    case hold =>
      split
      · split
        · exact channelsFit_setSome_of_eq (Channel.passOn _) hch hc fun _ => ⟨rfl, rfl, rfl, rfl, rfl⟩
        · exact hc
      · exact hc
    all_goals exact hc

theorem channelsFit_holdChannel (h : Fin 32) (hc : c.channelsFit) : (holdChannel h c).1.channelsFit := by
  unfold holdChannel
  split
  · exact hc
  · rename_i ch hch
    exact channelsFit_setSome_of_eq (Channel.hold _) hch hc fun _ => ⟨rfl, rfl, rfl, rfl, rfl⟩

theorem channelsFit_barChannel (h : Fin 32) (hc : c.channelsFit) : (barChannel h c).1.channelsFit := by
  unfold barChannel
  split
  · exact hc
  · split
    · exact hc
    · exact channelsFit_enterBar h hc

theorem channelsFit_flushChannel (h : Fin 32) (hc : c.channelsFit) : (flushChannel h c).1.channelsFit := by
  unfold flushChannel
  split
  · exact hc
  · split
    · exact hc
    · exact channelsFit_flush h hc

/-- R153: a new record holds no frame. -/
theorem newChannel_fits (slot : Fin 16) (d : Definition) : (newChannel slot d).fits := Nat.zero_le _

theorem channelsFit_defineRecord (d : Definition) (hc : c.channelsFit) : (defineRecord d c).1.channelsFit := by
  unfold defineRecord
  split
  · split
    · split
      · exact hc
      · split
        · exact hc
        · split
          · exact hc
          · exact channelsFit_setSome (newChannel_fits _ d) hc
    · exact hc
  · exact hc

/-- R154: an AMEND may shrink the range, but the record it passes on is not busy. -/
theorem channelsFit_checkedAmend {ch : Channel} (d : Definition) (namesPreferred : Bool) (hb : ch.busy = false)
    (hc : c.channelsFit) : (checkedAmend h ch d namesPreferred c).1.channelsFit := by
  have hz : ch.cellsInUse = 0 := Nat.eq_zero_of_not_pos (of_decide_eq_false hb)
  unfold checkedAmend
  split
  · split
    · split
      · exact hc
      · split
        · exact hc
        · exact channelsFit_setSome ((Nat.le_of_eq hz).trans (Nat.zero_le _)) hc
    · exact hc
  · exact hc

theorem channelsFit_restartHub (hc : c.channelsFit) : (restartHub c).channelsFit := by
  have hstop : (stopLines c).channelsFit :=
    forEach_keeps _ _ (fun _ _ hx => channelsFit_modChannel Channel.dropDetached_eases hx) _
      (forEach_keeps _ _ (fun _ _ hx => channelsFit_modLane _ _ hx) _
        (forEach_keeps _ _ (fun _ _ hx => channelsFit_modUplink _ _ hx) _ hc))
  refine forEach_keeps _ _ (fun _ _ hx => channelsFit_modUplink _ _ hx) _ (forEach_keeps _ _ (fun h x hx => ?_) _ hstop)
  exact channelsFit_modChannel_of_eq (channelsFit_holdForSlot h hx) fun _ => ⟨rfl, rfl, rfl, rfl, rfl⟩

/-! ## Every operation -/

/-- R164: every operation of the hub keeps the frames of every channel in its cells. -/
theorem channelsFit_hubOps : HubOpsKeep Chip.channelsFit where
  hubOnSlot _ _ _ _ hc := channelsFit_hubOnSlot _ _ _ hc
  takeMatch _ _ _ hc := forEach_keeps _ _ (fun _ _ hx => channelsFit_matchChannel _ _ hx) _ hc
  uplinkStart _ _ hc := hc
  uplinkCompletion _ _ _ hc := channelsFit_uplinkCompletion _ _ hc
  laneCompletion _ _ _ hc := channelsFit_laneCompletion _ _ hc
  uplinkTransmitted _ _ hc := channelsFit_uplinkTransmitted _ hc
  laneTransmitted _ _ hc := channelsFit_laneTransmitted _ hc
  linkChanged _ _ _ hc := ite_keeps hc (channelsFit_changeUplink _ _ hc)
  adminOrder _ _ _ hc := channelsFit_changeUplink _ _ hc
  passChannel _ _ hc := channelsFit_passChannel _ hc
  holdChannel _ _ hc := channelsFit_holdChannel _ hc
  barChannel _ _ hc := channelsFit_barChannel _ hc
  flushChannel _ _ hc := channelsFit_flushChannel _ hc
  dropChannel _ _ hc := channelsFit_setChannel nofun hc
  defineRecord _ _ hc := channelsFit_defineRecord _ hc
  amendChannelOwner _ _ _ hc := amendChannelOwner_keeps _ _ (fun _ _ _ _ hb => channelsFit_checkedAmend _ _ hb hc) hc
  restartHub _ hc := channelsFit_restartHub hc

theorem channelsFit_keeps : OpsKeep Chip.channelsFit :=
  { channelsFit_hubOps,
    (FanKeeps.mk ⟨fun _ _ hc => hc, fun _ _ _ hc => hc, fun _ _ hc => hc⟩ fun _ _ hc => hc : FanKeeps Chip.channelsFit).toOps,
    PortOpsKeep.of_port (fun _ _ hc => hc) (fun _ _ hc => hc) with
    power := fun _ _ hc => hc
    raise := fun _ _ _ hc => hc
    messages := fun _ _ hc => hc
    slots := fun _ _ hc => hc
    engines := fun _ _ hc => hc
    inventory := fun _ _ hc => hc
    modules := fun _ _ hc => hc
    statusPages := fun _ _ hc => hc
    reset := fun _ _ h ch hch => nomatch (show none = some ch from (Bank.read_fill _ h).symm.trans hch) }

/-- Settles O58: what every operation keeps, every step keeps. -/
theorem stepKeepsChannelsInCells : Obligations.StepKeepsChannelsInCells := fun _ _ hc h =>
  step_keeps (fun i _ _ hp hx => channelsFit_keeps.exec i hp hx) hc h

end Sys2Proof.Machine

/-!
PROOF. Events that a part between two events takes without any service of the queue: cold reset, the edges of inputs, the
poll timer, and every expiry or completion that arrives for something that does not run.
-/

namespace Sys2Proof.Machine

/-! ## The taking of an event -/

/-- An event that leaves no queue service owed ends where it stands. -/
theorem taken_settled {event : Chip → Chip} {s : State} {c : Chip} (he : event s.chip = c) (hq : c.quiescent) :
    taken event s = .next (s.onChip c) := by
  have hs : queueService c = c := queueService_of_settled hq.1 hq.2
  rw [taken, he, hs]
  rfl

/-- An event that does nothing to a part between two events leaves it as it is. -/
theorem taken_idle {event : Chip → Chip} {s : State} (he : event s.chip = s.chip) (hq : s.chip.quiescent) :
    taken event s = .next s := taken_settled he hq

/-- A message whose event leaves no queue service owed. -/
theorem takenMessage_settled {m : Instr} {event : Chip → Chip} {s : State} {c : Chip}
    (he : event (deliver m s.chip) = c) (hq : c.quiescent) : takenMessage m event s = .next (s.onChip c) :=
  taken_settled (event := fun c => event (deliver m c)) he hq

section

variable {k : Fin 16} {c : Chip}

@[simp] theorem setSlot_setSlot (k : Fin 16) (x y : Slot) (c : Chip) : setSlot k y (setSlot k x c) = setSlot k y c := by
  show { c with slots := (c.slots.put k x).put k y } = _
  rw [Bank.put_put]
  rfl

@[simp] theorem setEngine_setEngine (k : Fin 16) (x y : Engine) (c : Chip) :
    setEngine k y (setEngine k x c) = setEngine k y c := by
  show { c with engines := (c.engines.put k x).put k y } = _
  rw [Bank.put_put]
  rfl

@[simp] theorem setEngine_engine (k : Fin 16) (c : Chip) : setEngine k (c.engine k) c = c := by
  show { c with engines := c.engines.put k (c.engines.read k) } = c
  rw [Bank.put_read]

@[simp] theorem setSlot_slot (k : Fin 16) (c : Chip) : setSlot k (c.slot k) c = c := by
  show { c with slots := c.slots.put k (c.slots.read k) } = c
  rw [Bank.put_read]

@[simp] theorem setFan_fan (f : Fin 8) (c : Chip) : setFan f (c.fan f) c = c := by
  show { c with fans := { c.fans with fans := c.fans.fans.put f (c.fans.fans.read f) } } = c
  rw [Bank.put_read]

@[simp] theorem engine_setSlot (j : Fin 16) (x : Slot) (c : Chip) : (setSlot j x c).engine k = c.engine k := rfl
@[simp] theorem slot_setEngine (j : Fin 16) (x : Engine) (c : Chip) : (setEngine j x c).slot k = c.slot k := rfl

/-! ## The choice of a link (R35) -/

/-- R35: a busy link chooses nothing. -/
theorem arbitrate_of_inFlight (h : (c.engine k).inFlight.isSome = true) : arbitrate k c = c := if_pos (.inl h)

theorem arbitrate_of_quiet (h : (c.engine k).quiet = true) : arbitrate k c = c := if_pos (.inr h)

/-- R31: a page sent writes the exchange in flight. -/
theorem send_setEngine (x : PageRequest) (toggle : Bool) (e : Engine) :
    send k x toggle (setEngine k e c) = setEngine k { e with inFlight := sentPage x toggle } c := by
  simp [send, modEngine, sentPage]

/-- R35: an idle link with no phase, settlement or renegotiation takes the next entry of its list. -/
theorem arbitrate_list (h : (c.engine k).inFlight = none) (hq : (c.engine k).quiet = false) (hp : (c.engine k).phase = .idle)
    (hs : (c.engine k).settlement = none) (hr : (c.engine k).renegRequest = false) :
    arbitrate k c = sendPending k c := by
  simp [arbitrate, h, hq, hp, hs, sendRenegotiationOrPending, hr]

/-- R35: a link whose list, too, is empty sends nothing. -/
theorem arbitrate_of_free (h : (c.engine k).free) : arbitrate k c = c := by
  obtain ⟨hx, hq, hp, hs, hr, hl⟩ := h
  simp [arbitrate_list hx hq hp hs hr, sendPending, hl, PendingList.empty]

end

/-! ## Cold reset (R1) -/

theorem exec_coldReset (s : State) : exec .coldReset s = .next (s.onChip (coldReset s.chip)) := taken_settled rfl ⟨rfl, nofun⟩

section

variable (c : Chip)

theorem slot_coldReset (k : Fin 16) : (coldReset c).slot k =
    .reset (c.slot k).early.pin (c.slot k).late.pin (c.slot k).latch.pin (c.slot k).powerGood :=
  (Bank.read_gen _ k).trans (by simp [Chip.levels])

theorem engine_coldReset (k : Fin 16) : (coldReset c).engine k = .reset := Bank.read_fill _ k

theorem bay_coldReset (bay : Bay) : (coldReset c).modules.bay bay = .reset (c.modules.bay bay).pin := by
  cases bay
  all_goals exact (Bank.read_gen _ _).trans (by simp [Chip.levels, ModuleLink.bay])

theorem supply_coldReset (b : Fin 6) : (coldReset c).supply b = .reset (c.supply b).powerGood :=
  (Bank.read_gen _ b).trans (by simp [Chip.levels])

theorem uplink_coldReset (u : Fin 2) : (coldReset c).uplink u = .reset (c.uplink u).link :=
  (Bank.read_gen _ u).trans (by simp [Chip.levels])

theorem fan_coldReset (f : Fin 8) : (coldReset c).fan f = .reset := Bank.read_fill _ f
theorem zone_coldReset (z : Fin 4) : (coldReset c).zone z = .reset := Bank.read_fill _ z
theorem grant_coldReset (k : Fin 16) : (coldReset c).grant k = .reset := Bank.read_fill _ k
theorem lane_coldReset (k : Fin 16) : (coldReset c).lane k = .reset := Bank.read_fill _ k
theorem channel_coldReset (h : Fin 32) : (coldReset c).channel h = none := Bank.read_fill _ h
theorem invHandle_coldReset (h : Fin 48) : (coldReset c).invHandle h = { generation := 0, record := none } :=
  Bank.read_fill _ h

/-- R87: no fan has a draw reserved after cold reset. -/
theorem fanReservations_coldReset : (coldReset c).fanReservations = 0 := by
  have h : ∀ f, ((coldReset c).reservation f).watts = 0 := fun f => by
    rw [show (coldReset c).reservation f = { band := 0, ratedDraw := none } from Bank.read_fill _ f]
    rfl
  simp [Chip.fanReservations, h]

end

/-- Settles O4, record by record. -/
theorem coldResetWritesResetValues : Obligations.ColdResetWritesResetValues := by
  refine ⟨fun s => ⟨_, exec_coldReset s, fun k => ?_⟩, fun s => ⟨_, exec_coldReset s, ?_⟩⟩
  · have hslot : (s.onChip (coldReset s.chip)).chip.slot k = _ := slot_coldReset s.chip k
    have hengine : (s.onChip (coldReset s.chip)).chip.engine k = _ := engine_coldReset s.chip k
    rw [hslot, hengine]
    simp [Slot.reset, Debounced.reset, Engine.reset, Engine.free]
  · refine ⟨rfl, rfl, invHandle_coldReset _, rfl, rfl, rfl, rfl, bay_coldReset _, supply_coldReset _, grant_coldReset _, rfl,
      rfl, fanReservations_coldReset _, zone_coldReset _, fun f => ?_, channel_coldReset _, fun u => ?_, fun k => ?_, rfl, rfl,
      rfl, rfl, rfl, rfl⟩
    · have hfan : (s.onChip (coldReset s.chip)).chip.fan f = _ := fan_coldReset s.chip f
      rw [hfan]
      simp [Fan.reset]
    · have huplink : (s.onChip (coldReset s.chip)).chip.uplink u = _ := uplink_coldReset s.chip u
      rw [huplink]
      simp [Uplink.reset]
    · have hlane : (s.onChip (coldReset s.chip)).chip.lane k = _ := lane_coldReset s.chip k
      rw [hlane]
      simp [Lane.reset]

/-! ## Edges (R4, R66) -/

/-- Settles O5: an edge writes the pin and starts the timer. -/
theorem inputEdgesStartDebounce : Obligations.InputEdgesStartDebounce := by
  refine ⟨fun s k level hq => ⟨taken_settled rfl hq, taken_settled rfl hq, taken_settled rfl hq⟩,
    fun s bay level hq => taken_settled rfl hq⟩

/-! ## The poll timer (R15) -/

section

variable {k : Fin 16} {c : Chip}

/-- R15, R50: the poll timer's expiry asks for a POLL. -/
theorem pollExpired_of_running (hs : (c.slot k).state.isCounted = true) (ht : (c.slot k).pollTimer.isSome = true) :
    pollExpired k c = arbitrate k (setEngine k { c.engine k with list := { (c.engine k).list with poll := true } }
      (setSlot k { c.slot k with pollTimer := some c.settings.pollInterval } c)) := by
  have hk : (c.slot k).state.keepsListEmpty = false := by
    cases hst : (c.slot k).state <;> simp [hst, SlotState.isCounted] at hs <;> rfl
  rw [pollExpired, if_pos ⟨hs, ht⟩, requestPoll, if_neg (by simp [modSlot, hk])]
  rfl

end

/-- Settles O12, by what the link does with the POLL asked for. -/
theorem pollTimerExpiryAsksPoll : Obligations.PollTimerExpiryAsksPoll := by
  intro s k hq hs ht
  have hp := pollExpired_of_running hs ht
  refine ⟨fun hfree => taken_settled (hp.trans ?_) hq, fun hbusy => taken_settled (hp.trans ?_) hq⟩
  · obtain ⟨hx, hquiet, hphase, hset, hreg, hlist⟩ := hfree
    rw [arbitrate_list (by simpa) (by simpa) (by simpa) (by simpa) (by simpa)]
    simp [sendPending, hlist, PendingList.empty, send_setEngine]
  · exact arbitrate_of_inFlight (by simpa)

/-! ## Nothing running (log 39) -/

theorem slotDebounced_of_stopped {k : Fin 16} {i : SlotInput} {c : Chip} (made lost : Chip → Chip)
    (h : ((c.slot k).input i).timer = false) : slotDebounced k i made lost c = c := by
  rw [slotDebounced]
  exact if_neg (by simp [h])

/-- An expiry taken only while something runs, which does not. -/
theorem ite_and_isSome_none {p : Prop} {α : Type} [Decidable p] {x : Option α} {c c' : Chip} (h : x = none) :
    (if p ∧ x.isSome then c' else c) = c := if_neg (by simp [h])

/-- R126: a fan whose settle period does not run. -/
theorem settleEnded_of_ne {f : Fin 8} {c : Chip} (h : (c.fan f).window ≠ .settle) : settleEnded f c = c := by
  rw [settleEnded, modFan, if_neg h, setFan_fan]

/-- R144: a zone whose grace timer does not run. -/
theorem graceTicked_of_stopped {z : Fin 4} {c : Chip} (h : (c.zone z).graceTimer = false) : graceTicked z c = c := by
  have hr : (match (c.zone z).grace with
      | some (n + 2) => if (c.zone z).graceTimer then { c.zone z with grace := some (n + 1) } else c.zone z
      | _ => c.zone z) = c.zone z := by split <;> simp [h]
  exact (congrArg (setZone z · c) hr).trans (setZone_zone z c)

/-- Settles O14: every such event finds nothing to do. -/
theorem nothingRunningNothingTaken : Obligations.NothingRunningNothingTaken := by
  intro s hq
  have idle {event : Chip → Chip} (h : event s.chip = s.chip) : taken event s = .next s := taken_idle h hq
  refine ⟨fun k => ?slot, fun k page => ?link, fun bay message => ?module, fun b h => ?supply, fun f pulses => ?fan,
    fun z h => ?zone, fun u frame => ?uplink⟩
  case slot =>
    exact ⟨fun h => idle (slotDebounced_of_stopped _ _ h), fun h => idle (slotDebounced_of_stopped _ _ h),
      fun h => idle (slotDebounced_of_stopped _ _ h), fun h => idle (ite_and_isSome_none h),
      fun h => idle (ite_and_isSome_none h), fun h => idle (ite_and_isSome_none h), fun h => idle (ite_and_isSome_none h),
      fun h => idle (ite_and_isSome_none h)⟩
  case link =>
    exact ⟨fun h => ⟨idle (by simp [slotPage, h]), idle (by simp [slotTimeout, h])⟩,
      fun h => idle (by simp [slotQuietEnded, h]), fun h => idle (by simp [laneTransmitted, h])⟩
  case module =>
    exact ⟨fun h => idle (by simp [moduleDebounced, h]),
      fun h => ⟨idle (by simp [moduleAnswered, h]), idle (by simp [moduleTimedOut, h])⟩,
      fun h => idle (by simp [moduleQuietEnded, h])⟩
  case supply => exact idle (by simp [startDelayExpired, h])
  case fan =>
    exact ⟨fun h => idle (settleEnded_of_ne h), fun h => idle (by simp [windowEnded, h]),
      fun h => idle (by simp [releaseExpired, h])⟩
  case zone => exact ⟨idle (graceTicked_of_stopped h), idle (by simp [graceExpired, h])⟩
  case uplink =>
    exact ⟨fun h => idle (by simp [uplinkCompletion, h]), fun h => idle (by simp [uplinkTransmitted, h])⟩

end Sys2Proof.Machine

/-!
PROOF. The pending exchange list of a slot link (R34 to R36): what each request makes of it, and what the link then sends.
-/

namespace Sys2Proof.Machine

variable {k : Fin 16} {c : Chip}

/-! ## Messages posted -/

/-- The part with messages posted behind those in flight. -/
def Chip.posting (c : Chip) (l : List Instr) : Chip := setMessages (c.messages ++ l) c

@[simp] theorem posting_nil (c : Chip) : c.posting [] = c := by
  show { c with messages := c.messages ++ [] } = c
  rw [List.append_nil]

theorem post_eq_posting (m : Instr) (c : Chip) : post m c = c.posting [m] := rfl

@[simp] theorem posting_posting (l l' : List Instr) (c : Chip) : (c.posting l).posting l' = c.posting (l ++ l') := by
  show { c with messages := c.messages ++ l ++ l' } = { c with messages := c.messages ++ (l ++ l') }
  rw [List.append_assoc]

theorem setEngine_posting (e : Engine) (l : List Instr) (c : Chip) :
    setEngine k e (c.posting l) = (setEngine k e c).posting l := rfl

@[simp] theorem engine_posting (l : List Instr) (c : Chip) : (c.posting l).engine k = c.engine k := rfl
@[simp] theorem slot_posting (l : List Instr) (c : Chip) : (c.posting l).slot k = c.slot k := rfl
@[simp] theorem engine_deliver (m : Instr) (c : Chip) : (deliver m c).engine k = c.engine k := rfl
@[simp] theorem slot_deliver (m : Instr) (c : Chip) : (deliver m c).slot k = c.slot k := rfl

/-- One of two parts, a message more being posted in the first. -/
theorem ite_post {p : Prop} [Decidable p] (m : Instr) (c : Chip) :
    (if p then post m c else c) = c.posting (if p then [m] else []) := by
  split
  · rfl
  · exact (posting_nil c).symm

/-! ## The list (R34) -/

theorem requestCap_of_open (w : Nat) (hk : (c.slot k).state.keepsListEmpty = false) :
    requestCap k w c = arbitrate k ((setEngine k { c.engine k with list :=
      { (c.engine k).list with cap := some w, uncap := none } } c).posting
      (if (c.engine k).list.uncap.isSome then [.uncapOutcome k .superseded] else [])) := by
  rw [requestCap, if_neg (by simp [hk])]
  exact congrArg (arbitrate k) (ite_post _ _)

theorem requestUncap_of_open (w : Nat) (hk : (c.slot k).state.keepsListEmpty = false) :
    requestUncap k w c = arbitrate k ((setEngine k { c.engine k with list :=
      { (c.engine k).list with uncap := some w, cap := none } } c).posting
      (if (c.engine k).list.cap.isSome then [.capOutcome k .superseded] else [])) := by
  rw [requestUncap, if_neg (by simp [hk])]
  exact congrArg (arbitrate k) (ite_post _ _)

theorem requestGrant_of_open (w : Nat) (l : Level) (hk : (c.slot k).state.keepsListEmpty = false) :
    requestGrant k w l c = arbitrate k (setEngine k { c.engine k with list :=
      { (c.engine k).list with grant := some (w, l) } } c) := by
  rw [requestGrant, if_neg (by simp [hk])]
  rfl

/-- R36: the states in which the list is kept empty. -/
theorem SlotState.keepsListEmpty_iff {x : SlotState} :
    x.keepsListEmpty = true ↔ x = .empty ∨ x = .seated ∨ x = .held ∨ x = .poweringDown := by simp [keepsListEmpty]

/-! ## The entry sent (R35 step 4) -/

/-- R45: the channels granted now, as the rule words them. -/
theorem settlementChannels_eq (c : Chip) (k : Fin 16) : c.settlementChannels k =
    (c.hub.matchOrder.read k).filter fun h => (c.channel h).any fun ch => ch.granted && decide (ch.slot = k) := by
  refine List.filter_congr fun h _ => ?_
  unfold Chip.grantedChannel
  cases c.channel h with
  | none => rfl
  | some ch => cases hg : ch.granted <;> by_cases hs : ch.slot = k <;> simp [hg, hs]

section

variable {e : Engine}

theorem sendPending_shutdown (hs : e.list.shutdown = true) : sendPending k (setEngine k e c) =
    setEngine k { e with list := { e.list with shutdown := false }, inFlight := sentPage .shutdown false } c := by
  simp [sendPending, hs, send_setEngine]

theorem sendPending_cap {w : Nat} (hs : e.list.shutdown = false) (hc : e.list.cap = some w) :
    sendPending k (setEngine k e c) =
      setEngine k { e with list := { e.list with cap := none }, inFlight := sentPage (.cap w) false } c := by
  simp [sendPending, hs, hc, send_setEngine]

theorem sendPending_uncap {w : Nat} (hs : e.list.shutdown = false) (hc : e.list.cap = none) (hu : e.list.uncap = some w) :
    sendPending k (setEngine k e c) =
      setEngine k { e with list := { e.list with uncap := none }, inFlight := sentPage (.uncap w) false } c := by
  simp [sendPending, hs, hc, hu, send_setEngine]

theorem sendPending_grant {w : Nat} {l : Level} (hs : e.list.shutdown = false) (hc : e.list.cap = none)
    (hu : e.list.uncap = none) (hg : e.list.grant = some (w, l)) : sendPending k (setEngine k e c) =
      setEngine k { e with
        list := { e.list with grant := none }, settlement := some { channels := c.settlementChannels k, next := 0 },
        inFlight := sentPage (.grant w l) false } c := by
  simp [sendPending, hs, hc, hu, hg, send_setEngine]
  rfl

theorem sendPending_poll (hs : e.list.shutdown = false) (hc : e.list.cap = none) (hu : e.list.uncap = none)
    (hg : e.list.grant = none) (hp : e.list.poll = true) : sendPending k (setEngine k e c) =
      setEngine k { e with list := { e.list with poll := false }, inFlight := sentPage .poll false } c := by
  simp [sendPending, hs, hc, hu, hg, hp, send_setEngine]

/-- R35: an idle link with an empty list but for what has just joined it. -/
theorem arbitrate_setEngine (hx : e.inFlight = none) (hq : e.quiet = false) (hp : e.phase = .idle)
    (hs : e.settlement = none) (hr : e.renegRequest = false) :
    arbitrate k (setEngine k e c) = sendPending k (setEngine k e c) :=
  arbitrate_list (by simpa) (by simpa) (by simpa) (by simpa) (by simpa)

end

/-! ## The three requests -/

section

variable {s : State} {w : Nat} {l : Level}

theorem exec_capRequest {c' : Chip} (hq : c'.quiescent) (h : requestCap k w (deliver (.capRequest k w) s.chip) = c') :
    exec (.capRequest k w) s = .next (s.onChip c') := takenMessage_settled h hq

theorem exec_uncapRequest {c' : Chip} (hq : c'.quiescent)
    (h : requestUncap k w (deliver (.uncapRequest k w) s.chip) = c') :
    exec (.uncapRequest k w) s = .next (s.onChip c') := takenMessage_settled h hq

theorem exec_grantRequest {c' : Chip} (hq : c'.quiescent)
    (h : requestGrant k w l (deliver (.grantRequest k w l) s.chip) = c') :
    exec (.grantRequest k w l) s = .next (s.onChip c') := takenMessage_settled h hq

end

/-- Settles O15: behind an exchange the request waits in the list, on a free link it is sent, and in the states that keep the
list empty it is abandoned. -/
theorem listRequestsAreTaken : Obligations.ListRequestsAreTaken := by
  refine ⟨fun s k w l hq hk hx => ?_, fun s k w l hq hk hfree => ?_, fun s k w l hq hk => ?_⟩
  · refine ⟨exec_capRequest hq ?_, exec_uncapRequest hq ?_, exec_grantRequest hq ?_⟩
    · rw [requestCap_of_open (c := deliver _ s.chip) w hk, arbitrate_of_inFlight (by simpa using hx)]
      rfl
    · rw [requestUncap_of_open (c := deliver _ s.chip) w hk, arbitrate_of_inFlight (by simpa using hx)]
      rfl
    · rw [requestGrant_of_open (c := deliver _ s.chip) w l hk, arbitrate_of_inFlight (by simpa using hx)]
      dsimp only
      rw [List.append_nil]
      rfl
  · obtain ⟨hx, hquiet, hphase, hset, hreg, hlist⟩ := hfree
    refine ⟨exec_capRequest hq ?_, exec_uncapRequest hq ?_, exec_grantRequest hq ?_⟩
    · rw [requestCap_of_open (c := deliver _ s.chip) w hk]
      simp only [engine_deliver, hlist]
      rw [show PendingList.empty.uncap.isSome = false from rfl, if_neg Bool.false_ne_true, posting_nil,
        arbitrate_setEngine (by exact hx) (by exact hquiet) (by exact hphase) (by exact hset) (by exact hreg),
        sendPending_cap rfl rfl]
      rfl
    · rw [requestUncap_of_open (c := deliver _ s.chip) w hk]
      simp only [engine_deliver, hlist]
      rw [show PendingList.empty.cap.isSome = false from rfl, if_neg Bool.false_ne_true, posting_nil,
        arbitrate_setEngine (by exact hx) (by exact hquiet) (by exact hphase) (by exact hset) (by exact hreg),
        sendPending_uncap rfl rfl rfl]
      rfl
    · rw [requestGrant_of_open (c := deliver _ s.chip) w l hk]
      simp only [engine_deliver, hlist]
      rw [arbitrate_setEngine (by exact hx) (by exact hquiet) (by exact hphase) (by exact hset) (by exact hreg),
        sendPending_grant rfl rfl rfl rfl, settlementChannels_eq]
      rfl
  · have hk' := SlotState.keepsListEmpty_iff.2 hk
    exact ⟨exec_capRequest hq (if_pos hk'), exec_uncapRequest hq (if_pos hk'), exec_grantRequest hq (if_pos hk')⟩

end Sys2Proof.Machine

/-!
PROOF. The request port's reads (R179, R182), the requests that change nothing but the port (R56, R181), and the alert index
(R187 to R189).
-/

namespace Sys2Proof.Machine

variable {c : Chip}

/-! ## Transfers that read (Table 65) -/

/-- Table 71: the status byte by its four flags. -/
theorem statusByte_eq (c : Chip) : c.statusByte = BitVec.ofNat 8
    ((if c.port.request.isSome then 1 else 0) + (if c.port.response.isSome then 2 else 0) +
      (if c.port.overrun then 4 else 0) + (if c.port.alerts = [] then 0 else 8)) := by
  cases h : c.port.alerts <;>
    simp [Chip.statusByte, Chip.requestPending, Chip.responseReady, Chip.attention, h] <;> rfl

/-- R193: a byte that is none of 1, 2 and 3 spells no known command. -/
theorem transferOf_unknown {command : Byte} (h : command.toNat = 0 ∨ 3 < command.toNat) (rest : List Byte) :
    transferOf command rest = .unknownPortCommand command := by
  unfold transferOf
  split <;> first | omega | rfl

theorem portTransfer_unknown {command : Byte} (h : command.toNat = 0 ∨ 3 < command.toNat) :
    portTransfer command [] c = returning [] c := by
  rw [portTransfer, transferOf_unknown h]

/-- R182: a transfer that clocks less than the message leaves it READY. -/
theorem getMessage_short {n : Nat} {m : List Byte} (hm : c.port.response = some m) (hn : n < m.length) :
    getMessage n c = setPort { c.port with returned := c.statusByte :: m.take n } c := by
  have ht : (m ++ List.replicate n (0 : Byte)).take n = m.take n := List.take_append_of_le_length hn.le
  have hc : ¬ (c.port.response.isSome = true ∧ m.length ≤ n) := by omega
  unfold getMessage
  rw [hm]
  dsimp only [Option.getD_some]
  rw [ht]
  exact if_neg fun h => hc ⟨by rw [hm]; rfl, h.2⟩

/-- R182: a transfer that clocks the whole message empties the response slot. -/
theorem getMessage_whole {n : Nat} {m : List Byte} (hm : c.port.response = some m) (hn : m.length ≤ n)
    (hw : c.port.restartWaiting = false) :
    getMessage n c = setPort { c.port with
      response := none, returned := c.statusByte :: (m ++ List.replicate (n - m.length) 0) } c := by
  have ht : (m ++ List.replicate n (0 : Byte)).take n = m ++ List.replicate (n - m.length) 0 := by
    rw [List.take_append, List.take_of_length_le hn, List.take_replicate, Nat.min_eq_left (Nat.sub_le _ _)]
  unfold getMessage
  simp only [hm, Option.getD_some, ht]
  rw [if_pos ⟨by simp [returning, modPort, setPort, hm], hn⟩, if_neg (by simp [returning, modPort, setPort, hw])]
  rfl

/-- R182: with the response slot EMPTY only the status byte is returned. -/
theorem getMessage_empty {n : Nat} (hm : c.port.response = none) :
    getMessage n c = setPort { c.port with returned := c.statusByte :: List.replicate n 0 } c := by
  unfold getMessage
  simp only [hm, Option.getD_none, List.nil_append, List.take_replicate, Nat.min_self]
  have hc : ¬ ((returning (List.replicate n 0) c).port.response.isSome = true ∧ ([] : List Byte).length ≤ n) := by
    simp [returning, modPort, setPort, hm]
  exact (if_neg hc).trans (congrArg (fun r => setPort { c.port with
    response := r, returned := c.statusByte :: List.replicate n 0 } c) hm)

/-- Settles O36, transfer by transfer. -/
theorem portReadsReturnStatusAndResponse : Obligations.PortReadsReturnStatusAndResponse := by
  refine ⟨fun s command hq => ?_, fun rest => ⟨rfl, rfl, rfl, fun command h => transferOf_unknown h rest⟩,
    fun s n m hq => ⟨fun hm hn => taken_settled (getMessage_short hm hn) hq,
      fun hm hn hw => taken_settled (getMessage_whole hm hn hw) hq, fun hm => taken_settled (getMessage_empty hm) hq⟩⟩
  intro flags after
  have hafter : s.onChip (returning [] s.chip) = after :=
    congrArg (fun b => s.onChip (setPort { s.chip.port with returned := [b] } s.chip)) (statusByte_eq s.chip)
  rw [← hafter]
  exact ⟨taken_settled rfl hq, fun h => taken_settled (portTransfer_unknown h) hq⟩

/-! ## Keys that name no record (R56) -/

/-- R56: what a key other than the epoch key is answered, by what it resolves to. -/
theorem keyRefusal_inv {q : InvKey} (hq : q ≠ .epoch) (t : Byte) : c.keyRefusal t (.inv q) =
    match c.resolve q with
    | .found _ _ => none
    | r => some r.refusal := by
  cases q
  case epoch => exact absurd rfl hq
  all_goals rfl

theorem keyRefusal_noRecord {q : InvKey} (hq : q ≠ .epoch) (t : Byte) (hr : c.resolve q = .noRecord) :
    c.keyRefusal t (.inv q) = some { status := .noRecord, result := [] } := by
  rw [keyRefusal_inv hq, hr]
  rfl

theorem keyRefusal_stale {q : InvKey} (t : Byte) {g : Byte} {inUse : Bool} (hr : c.resolve q = .stale g inUse) :
    c.keyRefusal t (.inv q) = some { status := .stale, result := [g, if inUse then 1 else 0] } := by
  have hq : q ≠ .epoch := by
    rintro rfl
    cases hr
  rw [keyRefusal_inv hq, hr]
  cases inUse <;> rfl

/-- R56: a record number in range that names no record is that of a free channel. -/
theorem keyRefusal_record {table : TableId} {n : Nat} (hn : n < tableSize table) (hk : c.keyNames table (.record n) = false) :
    c.keyRefusal (BitVec.ofNat 8 (tableCode table)) (.record n) = some { status := .noRecord, result := [] } := by
  have ht : table = .channel := by
    by_contra h
    simp [Chip.keyNames, h] at hk
  subst ht
  have hfree : (c.channel ⟨n, hn⟩).isSome = false := by
    by_contra h
    rw [Bool.not_eq_false] at h
    have : c.keyNames .channel (.record n) = true := by
      simp only [Chip.keyNames, Bool.or_eq_true, List.any_eq_true, Bool.and_eq_true, decide_eq_true_eq]
      exact .inr ⟨⟨n, hn⟩, List.mem_finRange _, rfl, h⟩
    rw [this] at hk
    cases hk
  have hnone : (c.channel ⟨n, hn⟩).isNone = true := by simpa [Option.isSome_eq_false_iff] using hfree
  have hb : keyBelow 32 n = some ⟨n, hn⟩ := dif_pos hn
  show (match keyBelow 32 n with
    | some h => if (c.channel h).isNone then some (Status.alone .noRecord) else none
    | none => none) = _
  rw [hb]
  exact if_pos hnone

/-! ## Requests that are answered and change nothing -/

/-- A request whose owner reads its records. -/
theorem taken_reading {s : State} {i : Instr} {answer : Chip → Answer} (ht : s.chip.takes i) (hq : s.chip.quiescent)
    {a : Answer} (ha : answer (s.chip.opened i) = a) :
    taken (takeRequest i (reading answer)) s = .next (s.onChip (s.chip.answered i a)) :=
  taken_answered ht hq (congrArg (Prod.mk _) ha)

/-- R57: the answer to FETCH of a record that the key finds. -/
theorem inventoryAnswer_found {key : InvKey} {h : Fin 48} {r : InvRecord} (hf : c.resolve key = .found h r) :
    c.inventoryAnswer key = { status := .ok, result := inventoryFields h (c.invHandle h).generation r } := by
  rw [Chip.inventoryAnswer, if_neg (ne_epoch_of_resolve_found hf), hf]
  rfl

theorem inventoryAnswer_noRecord {key : InvKey} (hk : key ≠ .epoch) (hf : c.resolve key = .noRecord) :
    c.inventoryAnswer key = { status := .noRecord, result := [] } := by
  rw [Chip.inventoryAnswer, if_neg hk, hf]
  rfl

theorem inventoryAnswer_stale {key : InvKey} (hk : key ≠ .epoch) {g : Byte} {inUse : Bool} (hf : c.resolve key = .stale g inUse) :
    c.inventoryAnswer key = { status := .stale, result := [g, if inUse then 1 else 0] } := by
  rw [Chip.inventoryAnswer, if_neg hk, hf]
  cases inUse <;> rfl

theorem resolvedAt_some {h : Fin 48} {r : InvRecord} (hr : (c.invHandle h).record = some r) :
    c.resolvedAt (some h) = .found h r := by
  simp only [Chip.resolvedAt, hr]

theorem resolvedAt_free {h : Fin 48} (hr : (c.invHandle h).record = none) : c.resolvedAt (some h) = .noRecord := by
  simp only [Chip.resolvedAt, hr]

theorem resolve_handle {h : Fin 48} {g : Byte} (hg : g = (c.invHandle h).generation) :
    c.resolve (.handle h g) = c.resolvedAt (some h) := if_neg (by simp [hg])

/-- A FETCH of an inventory record. -/
theorem exec_fetchInventory {s : State} {key : InvKey} {a : Answer} (hq : s.chip.quiescent)
    (ht : s.chip.takes (.fetchInventory key)) (ha : s.chip.inventoryAnswer key = a) :
    exec (.fetchInventory key) s = .next (s.onChip (s.chip.answered (.fetchInventory key) a)) := by
  have ho : (s.chip.opened (.fetchInventory key)).inventoryAnswer key = a := by
    rw [← ha, Chip.inventoryAnswer, Chip.inventoryAnswer, resolve_opened]
    rfl
  exact taken_reading (answer := fun c => c.inventoryAnswer key) ht hq ho

theorem channelAnswer_some {h : Fin 32} {ch : Channel} (hc : c.channel h = some ch) :
    c.channelAnswer h = { status := .ok, result := channelFields h ch } := by
  rw [Chip.channelAnswer, hc]
  rfl

theorem channelAnswer_none {h : Fin 32} (hc : c.channel h = none) : c.channelAnswer h = { status := .noRecord, result := [] } := by
  rw [Chip.channelAnswer, hc]
  rfl

/-- Settles O38, table by table. -/
theorem fetchAnswersRecords : Obligations.FetchAnswersRecords := by
  refine ⟨fun s i hq ht => ?_, fun s h g hq => ?_⟩
  · have answered {j : Instr} {answer : Chip → Answer} (hj : s.chip.takes j) {a : Answer}
        (ha : answer (s.chip.opened j) = a) := taken_reading (answer := answer) hj hq ha
    refine ⟨?_, ?_, ?_, ?_, ?_, ?_, ?_, ?_, ?_, ?_, ?_, ?_⟩
    · rintro k rfl
      exact answered ht rfl
    · rintro b rfl
      exact answered ht rfl
    · rintro rfl
      exact answered ht rfl
    · rintro z rfl
      exact answered ht rfl
    · rintro f rfl
      exact answered ht rfl
    · rintro h ch rfl hc
      exact answered ht (channelAnswer_some (c := s.chip.opened _) hc)
    · rintro h rfl hc
      exact answered ht (channelAnswer_none (c := s.chip.opened _) hc)
    · rintro u rfl
      exact answered ht rfl
    · rintro k rfl
      exact answered ht rfl
    · rintro rfl
      exact answered ht rfl
    · rintro rfl
      exact answered ht rfl
    · rintro o rfl
      exact answered ht rfl
  · refine ⟨fun ht => exec_fetchInventory hq ht rfl, fun ht => ⟨fun r hr hg => ?_, fun hg => ?_, fun hr hg => ?_⟩,
      fun l ht => ⟨fun h r hb hr => ?_, fun hb => ?_⟩, fun kind chars ht => ⟨fun h r hb hr => ?_, fun hb => ?_⟩⟩
      <;> refine exec_fetchInventory hq ht ?_
    · have hf := (resolve_handle hg).trans (resolvedAt_some hr)
      rw [inventoryAnswer_found hf, hg]
    · exact inventoryAnswer_stale (by simp) (resolve_handle_stale (Ne.symm hg))
    · exact inventoryAnswer_noRecord (by simp) ((resolve_handle hg).trans (resolvedAt_free hr))
    · exact inventoryAnswer_found ((congrArg s.chip.resolvedAt hb).trans (resolvedAt_some hr))
    · exact inventoryAnswer_noRecord (by simp) (congrArg s.chip.resolvedAt hb)
    · exact inventoryAnswer_found ((congrArg s.chip.resolvedAt hb).trans (resolvedAt_some hr))
    · exact inventoryAnswer_noRecord (by simp) (congrArg s.chip.resolvedAt hb)

/-! ## Refused and discarded requests (R181, log 3) -/

/-- Every request row is taken by an owner. -/
theorem exec_request {i : Instr} (h : (requestHeader i).isSome = true) :
    ∃ owner, ∀ s, exec i s = taken (takeRequest i owner) s := by
  cases i
  case coldReset | slotInputEdge | contactDebounceExpiry | latchDebounceExpiry | pwrGoodChange | powerUpDelayExpiry
    | resetHoldExpiry | pollTimerExpiry | drainTimerExpiry | powerDownTimerExpiry | closeOrder | shedOffAction
    | thermalDrainRequest | slotPageReceived | slotResponseTimeout | slotQuietEnd | capRequest | uncapRequest | grantRequest
    | matchHandoff | settlementReport | capOutcome | uncapOutcome | modulePresenceEdge | modulePresenceDebounceExpiry
    | moduleResponse | moduleResponseTimeout | moduleQuietEnd | psuPgChange | supplyStartDelayExpiry | settlePeriodEnd
    | countWindowEnd | releaseTimerExpiry | graceSecondTick | graceTimerExpiry | uplinkFrameStart | uplinkFrameCompletion
    | laneFrameCompletion | uplinkTransmitCompletion | laneTransmitCompletion | uplLinkChange | readStatus | putRequest
    | getResponse | unknownPortCommand => exact nomatch h
  all_goals exact ⟨_, fun _ => rfl⟩

/-- Log 3: a request row that finds a slot of the port in use, and not by itself, sets overrun. -/
theorem takeRequest_discarded {i : Instr} (owner : Chip → Chip × Answer) (hi : c.port.request ≠ some i)
    (hu : c.port.request.isSome = true ∨ c.port.response.isSome = true) :
    takeRequest i owner c = setPort { c.port with overrun := true } c := by
  have hne : ¬ (c.port.request = none ∧ c.port.response = none) := fun ⟨h1, h2⟩ => by simp [h1, h2] at hu
  rw [takeRequest, if_neg hi, if_neg hne]
  rfl

/-- R181: a verb its table does not accept, answered by the refusal of its key or with STATE. -/
theorem exec_unacceptedVerb {s : State} {verb : Verb} {table : TableId} {key : Key} {a : Answer} (hq : s.chip.quiescent)
    (ht : s.chip.takes (.unacceptedVerb verb table key)) (ha : s.chip.verbRefusal table key = a) :
    exec (.unacceptedVerb verb table key) s = .next (s.onChip (s.chip.answered (.unacceptedVerb verb table key) a)) := by
  have ho : (s.chip.opened (.unacceptedVerb verb table key)).verbRefusal table key = a := by
    rw [← ha]
    rcases key with n | q | k | _
    · rfl
    · cases q <;> rfl
    · rfl
    · rfl
  exact taken_reading (answer := fun c => c.verbRefusal table key) ht hq ho

theorem verbRefusal_of_keyRefusal {table : TableId} {key : Key} {a : Answer}
    (h : c.keyRefusal (BitVec.ofNat 8 (tableCode table)) key = some a) : c.verbRefusal table key = a := by
  rw [Chip.verbRefusal, h]
  rfl

/-- R181, R193: the key of a well-formed command of an unaccepted verb is one its table takes. -/
theorem key_fits_of_wellFormed {verb : Verb} {table : TableId} {key : Key}
    (h : (Instr.unacceptedVerb verb table key).wellFormed = true) : key.fits verb table = true := by
  simp only [Instr.wellFormed, Bool.and_eq_true] at h
  exact h.2

/-- Settles O39: the refusal by what the key names, and the discard. -/
theorem refusedAndDiscardedRequests : Obligations.RefusedAndDiscardedRequests := by
  refine ⟨fun s verb table key hq => fun hwf ht => ⟨fun hk => ?_, fun n hn hk => ?_, fun q hkey hne hr => ?_,
    fun q g inUse hkey hr => ?_⟩, fun s i hq hi hne hu => ?_⟩
  · exact exec_unacceptedVerb hq ht (Chip.verbRefusal_of_keyNames hk)
  · subst hn
    have hfits := key_fits_of_wellFormed hwf
    simp only [Key.fits, decide_eq_true_eq] at hfits
    obtain ⟨_, _, _, hsize⟩ := hfits
    exact exec_unacceptedVerb hq ht (verbRefusal_of_keyRefusal (keyRefusal_record hsize hk))
  · subst hkey
    exact exec_unacceptedVerb hq ht (verbRefusal_of_keyRefusal (keyRefusal_noRecord hne _ hr))
  · subst hkey
    exact exec_unacceptedVerb hq ht (verbRefusal_of_keyRefusal (keyRefusal_stale _ hr))
  · obtain ⟨owner, ho⟩ := exec_request hi
    rw [ho]
    exact taken_settled (takeRequest_discarded owner hne hu) hq

/-! ## The alert index (R187, R189) -/

section

variable {o : AlertObject} {m : CauseSet} {l : List AlertEntry}

theorem causesOf_of_not_mem (h : o ∉ l.map AlertEntry.object) : causesOf o l = 0 := by
  induction l with
  | nil => rfl
  | cons e l ih =>
    simp only [List.map_cons, List.mem_cons, not_or] at h
    rw [causesOf, if_neg (Ne.symm h.1), ih h.2]

/-- R189: the named causes leave the object's set. -/
theorem causesOf_ackIn (hl : (l.map AlertEntry.object).Nodup) : causesOf o (ackIn o m l) = causesOf o l &&& ~~~m := by
  induction l with
  | nil => simp [ackIn, causesOf]
  | cons e l ih =>
    rw [List.map_cons, List.nodup_cons] at hl
    by_cases he : e.object = o
    · by_cases hz : e.causes &&& ~~~m = 0
      · have hnot : o ∉ l.map AlertEntry.object := he ▸ hl.1
        simp [ackIn, causesOf, he, hz, causesOf_of_not_mem hnot]
      · rw [ackIn, if_pos he, if_neg hz, causesOf, if_pos rfl, causesOf, if_pos he]
    · simp [ackIn, causesOf, he, ih hl.2]

/-- R189: an object whose set empties leaves the index. -/
theorem not_mem_ackIn (hl : (l.map AlertEntry.object).Nodup) (hz : causesOf o l &&& ~~~m = 0) :
    ∀ e ∈ ackIn o m l, e.object ≠ o := by
  induction l with
  | nil => exact nofun
  | cons x l ih =>
    rw [List.map_cons, List.nodup_cons] at hl
    by_cases hx : x.object = o
    · rw [causesOf, if_pos hx] at hz
      rw [ackIn, if_pos hx, if_pos hz]
      exact fun e he hobj => hl.1 (hx ▸ hobj ▸ List.mem_map_of_mem he)
    · rw [causesOf, if_neg hx] at hz
      rw [ackIn, if_neg hx]
      intro e he
      rcases List.mem_cons.1 he with rfl | he'
      · exact hx
      · exact ih hl.2 hz e he'

/-- R189: every other object keeps its causes and its place. -/
theorem filter_ackIn : (ackIn o m l).filter (fun e => decide (e.object ≠ o)) = l.filter fun e => decide (e.object ≠ o) := by
  induction l with
  | nil => rfl
  | cons e l ih =>
    by_cases he : e.object = o
    · rw [ackIn, if_pos he]
      split <;> simp [he]
    · rw [ackIn, if_neg he, List.filter_cons, List.filter_cons, ih]

end

/-- Settles O44, from what the removal of causes does to the index. -/
theorem ackRemovesCauses : Obligations.AckRemovesCauses := by
  intro s o m hq hwf hb ht
  have ho : ackOwner o m (s.chip.opened (.ack o m)) =
      ((setAlerts (ackIn o m s.chip.port.alerts) s.chip).opened (.ack o m),
        { status := .ok, result := causeBytes (causesOf o (ackIn o m s.chip.port.alerts)) }) := by
    rw [ackOwner, if_pos hb]
    rfl
  have hx := taken_answered (c := setAlerts (ackIn o m s.chip.port.alerts) s.chip) ht hq ho
  have hcauses := causesOf_ackIn (o := o) (m := m) hwf.1
  refine ⟨_, hx, ?_, rfl, hcauses, not_mem_ackIn hwf.1, filter_ackIn, rfl, rfl⟩
  rw [← hcauses]
  rfl

end Sys2Proof.Machine

/-!
PROOF. Decoding (R181, R191 to R193): the key and the operands that a request message carries are read back as they were
written, so that the message of a well-formed row decodes to the row.
-/

namespace Sys2Proof

open Sys2Proof.Machine

/-! ## Bytes and numbers -/

theorem toNat_ofNat_byte {n : Nat} (h : n < 256) : (BitVec.ofNat 8 n).toNat = n := by
  rw [BitVec.toNat_ofNat]
  exact Nat.mod_eq_of_lt h

theorem toNat_ofNat_fin {m : Nat} (hm : m ≤ 256) (i : Fin m) : (BitVec.ofNat 8 i.val).toNat = i.val :=
  toNat_ofNat_byte (i.isLt.trans_le hm)

theorem number_pair (a b : Byte) : number [a, b] = a.toNat * 256 + b.toNat := by simp [number]

theorem number_byte2 {n : Nat} (h : n < 65536) : number (byte2 n) = n := by
  simp only [byte2, number_pair, BitVec.toNat_ofNat]
  omega

@[simp] theorem keyBelow_val {n : Nat} (i : Fin n) : keyBelow n i.val = some i := dif_pos i.isLt

theorem byteSum_append (l l' : List Byte) : byteSum (l ++ l') = byteSum l + byteSum l' := by
  have h : ∀ (l : List Byte) (x : Byte), l.foldl (· + ·) x = x + byteSum l := by
    intro l
    induction l with
    | nil => exact fun x => (BitVec.add_zero x).symm
    | cons y l ih =>
      intro x
      show l.foldl (· + ·) (x + y) = x + l.foldl (· + ·) (0 + y)
      rw [ih, ih]
      generalize byteSum l = z
      bv_omega
  rw [byteSum, List.foldl_append]
  exact h l' _

/-- R191: a message with its check byte passes the check. -/
theorem byteSum_withCheck (l : List Byte) : byteSum (withCheck l) = 0 := by
  rw [withCheck, byteSum_append]
  show byteSum l + (0 + (0 - byteSum l)) = 0
  bv_omega

/-! ## Keys (R193) -/

/-- The form of a key, and the bytes behind it. -/
def Key.raw (key : Key) : RawKey := { form := (keyBytes key).headI, bytes := (keyBytes key).tail }

theorem keyBytes_eq (key : Key) : keyBytes key = key.raw.form :: key.raw.bytes := by
  rcases key with n | q | a | _
  · rfl
  · cases q <;> rfl
  · cases a <;> rfl
  · rfl

theorem length_locationBytes (l : Location) : (locationBytes l).length = 2 := by cases l <;> rfl
theorem length_objectBytes (o : AlertObject) : (objectBytes o).length = 2 := by cases o <;> rfl

/-- R193: the key is taken off the bytes of a request, and the operands follow it. -/
theorem takeKey_raw {verb : Verb} {table : TableId} {key : Key} (hk : key.fits verb table = true) (operands : List Byte) :
    takeKey key.raw.form (key.raw.bytes ++ operands) = some (key.raw, operands) := by
  rcases key with n | q | a | _
  · rfl
  · rcases q with ⟨h, g⟩ | l | ⟨kind, chars⟩ | _
    · rfl
    · cases l <;> rfl
    · have hlen : chars.length < 256 := by
        simp only [Key.fits, InvKey.wellFormed, Bool.and_eq_true, decide_eq_true_eq] at hk
        omega
      have hn : (BitVec.ofNat 8 chars.length).toNat = chars.length := toNat_ofNat_byte hlen
      show (if 2 + (BitVec.ofNat 8 chars.length).toNat ≤ (BitVec.ofNat 8 (kindCode kind) :: BitVec.ofNat 8 chars.length ::
        (chars ++ operands)).length then _ else _) = _
      rw [hn, if_pos (by simp; omega)]
      simp [Key.raw, keyBytes, Nat.add_comm 2]
    · rfl
  · cases a with
    | index => rfl
    | object o => cases o <;> rfl
  · rfl

/-- Table 67 step 3: the key of a row lies in range. -/
theorem keyOf_raw {verb : Verb} {table : TableId} {key : Key} (hk : key.fits verb table = true) :
    keyOf table key.raw = some key := by
  rcases key with n | q | a | _
  · simp only [Key.fits, decide_eq_true_eq] at hk
    obtain ⟨_, hinv, halert, hn⟩ := hk
    have h256 : n < 256 := hn.trans_le (by cases table <;> decide)
    show (if (BitVec.ofNat 8 n).toNat < tableSize table then some (Key.record (BitVec.ofNat 8 n).toNat) else none) = _
    rw [toNat_ofNat_byte h256, if_pos hn]
  · rcases q with ⟨h, g⟩ | l | ⟨kind, chars⟩ | _
    · show ((keyBelow 48 (BitVec.ofNat 8 h.val).toNat).map fun h => Key.inv (.handle h g)) = _
      rw [toNat_ofNat_fin (by decide) h, keyBelow_val]
      rfl
    · have hl : ∀ {m : Nat} (hm : m ≤ 256) (i : Fin m) (kind : Nat) (f : Fin m → Location),
          (locationOf kind (BitVec.ofNat 8 i.val).toNat = (keyBelow m (BitVec.ofNat 8 i.val).toNat).map f) →
          (locationOf kind (BitVec.ofNat 8 i.val).toNat).map (fun l => Key.inv (.location l)) =
            some (Key.inv (.location (f i))) := fun hm i kind f h => by
        rw [h, toNat_ofNat_fin hm i, keyBelow_val]
        rfl
      rcases l with k | b | f
      · exact hl (by decide) k 0 _ rfl
      · exact hl (by decide) b 1 _ rfl
      · exact hl (by decide) f 2 _ rfl
    · cases kind <;> rfl
    · rfl
  · cases a with
    | index => rfl
    | object o =>
      have ho : ∀ {m : Nat} (hm : m ≤ 256) (i : Fin m) (kind : Nat) (f : Fin m → AlertObject),
          (alertObjectOf kind (BitVec.ofNat 8 i.val).toNat = (keyBelow m (BitVec.ofNat 8 i.val).toNat).map f) →
          (alertObjectOf kind (BitVec.ofNat 8 i.val).toNat).map (fun o => Key.alert (.object o)) =
            some (Key.alert (.object (f i))) := fun hm i kind f h => by
        rw [h, toNat_ofNat_fin hm i, keyBelow_val]
        rfl
      rcases o with k | b | f | z | h | u | _
      · exact ho (by decide) k 0 _ rfl
      · exact ho (by decide) b 1 _ rfl
      · exact ho (by decide) f 2 _ rfl
      · exact ho (by decide) z 3 _ rfl
      · exact ho (by decide) h 4 _ rfl
      · exact ho (by decide) u 5 _ rfl
      · rfl
  · rfl

/-- R181: the table takes the form of the key. -/
theorem keyFormTaken_raw {verb : Verb} {table : TableId} {key : Key} (hk : key.fits verb table = true) :
    keyFormTaken verb table key.raw.form = true := by
  rcases key with n | q | a | _
  · simp only [Key.fits, decide_eq_true_eq] at hk
    cases verb <;> cases table <;> simp_all [keyFormTaken, Key.raw, keyBytes]
  · simp only [Key.fits, Bool.and_eq_true, decide_eq_true_eq] at hk
    obtain ⟨⟨rfl, hdef⟩, _⟩ := hk
    cases verb <;> cases q <;> simp_all [keyFormTaken, Key.raw, keyBytes]
  · simp only [Key.fits, decide_eq_true_eq] at hk
    cases verb <;> cases a <;> simp_all [keyFormTaken, Key.raw, keyBytes]
  · simp only [Key.fits, decide_eq_true_eq] at hk
    subst hk
    cases table <;> rfl

/-! ## Operands (R192) -/

/-- R192: field items are read back as they were written. -/
theorem readItems_itemBytes : ∀ (items : List Item) (fuel : Nat), items.all Item.encodable = true → items.length ≤ fuel →
    readItems fuel (items.flatMap itemBytes) = some items
  | [], fuel, _, _ => by cases fuel <;> rfl
  | i :: items, 0, _, h => by simp at h
  | i :: items, fuel + 1, he, h => by
    rw [List.all_cons, Bool.and_eq_true] at he
    obtain ⟨hi, hrest⟩ := he
    have ih := readItems_itemBytes items fuel hrest (by simpa using h)
    obtain ⟨field, value⟩ := i
    simp only [Item.encodable, Bool.and_eq_true, decide_eq_true_eq] at hi
    obtain ⟨hfield, hvalue⟩ := hi
    have hf : (BitVec.ofNat 8 field).toNat = field := toNat_ofNat_byte (by omega)
    cases value with
    | none =>
      show (readItems fuel (items.flatMap itemBytes)).map
        (fun l => ({ field := (BitVec.ofNat 8 field).toNat, value := none } : Item) :: l) = _
      rw [ih, hf]
      rfl
    | some v =>
      have hlen : v.length ≤ 254 := of_decide_eq_true hvalue
      have hn : (BitVec.ofNat 8 v.length).toNat = v.length := toNat_ofNat_byte (by omega)
      have h255 : BitVec.ofNat 8 v.length ≠ 255 := fun h => by
        have := congrArg BitVec.toNat h
        rw [hn] at this
        simp at this
        omega
      show (if BitVec.ofNat 8 v.length = 255 then _ else
        if (BitVec.ofNat 8 v.length).toNat ≤ (v ++ items.flatMap itemBytes).length then
          (readItems fuel ((v ++ items.flatMap itemBytes).drop (BitVec.ofNat 8 v.length).toNat)).map fun l =>
            ({ field := (BitVec.ofNat 8 field).toNat,
               value := some ((v ++ items.flatMap itemBytes).take (BitVec.ofNat 8 v.length).toNat) } : Item) :: l
        else none) = _
      rw [if_neg h255, hn, if_pos (by simp), List.drop_left, List.take_left, ih, hf]
      rfl

theorem length_le_flatMap_itemBytes (items : List Item) : items.length ≤ (items.flatMap itemBytes).length := by
  induction items with
  | nil => exact Nat.le_refl _
  | cons i items ih =>
    have hi : 1 ≤ (itemBytes i).length := by
      unfold itemBytes
      split <;> simp
    simp only [List.flatMap_cons, List.length_append, List.length_cons]
    omega

theorem readItems_flatMap {items : List Item} (h : items.all Item.encodable = true) :
    readItems (items.flatMap itemBytes).length (items.flatMap itemBytes) = some items :=
  readItems_itemBytes items _ h (length_le_flatMap_itemBytes items)

theorem readOperand_amend {table : TableId} (key : RawKey) {items : List Item}
    (h : (amendWellFormed table items && items.all Item.encodable) = true) :
    readOperand .amend table key (items.flatMap itemBytes) = some (.items items) := by
  rw [Bool.and_eq_true] at h
  rw [readOperand, readItems_flatMap h.2, Option.bind_some, if_pos h.1]

theorem readOperand_define (key : RawKey) {items : List Item}
    (h : (defineWellFormed items && items.all Item.encodable) = true) :
    readOperand .define .channel key (items.flatMap itemBytes) = some (.items items) := by
  rw [Bool.and_eq_true] at h
  have hi : itemsWellFormed .channel items = true := by
    have := h.1
    simp only [defineWellFormed, Bool.and_eq_true] at this
    exact this.1
  rw [readOperand, readItems_flatMap h.2, Option.bind_some, if_pos ⟨hi, fun _ => h.1⟩]

theorem form_object (o : AlertObject) : (Key.alert (.object o)).raw.form = 6 := by cases o <;> rfl

/-- Table 69: the causes of an object's row, by its kind as the key carries it. -/
theorem causeCountOf_object (o : AlertObject) :
    causeCountOf (numberAt (Key.alert (.object o)).raw.bytes 0 1) = AlertObject.causeCount o := by
  cases o <;> rfl

theorem append_byte2 (m : BitVec 16) : (BitVec.ofNat 8 (m.toNat / 256) ++ BitVec.ofNat 8 m.toNat : BitVec 16) = m := by
  refine BitVec.eq_of_toNat_eq ?_
  have hlt : (BitVec.ofNat 8 m.toNat).toNat < 2 ^ 8 := (BitVec.ofNat 8 m.toNat).isLt
  rw [BitVec.toNat_append, ← Nat.shiftLeft_add_eq_or_of_lt hlt]
  simp only [BitVec.toNat_ofNat, Nat.shiftLeft_eq]
  have := m.isLt
  omega

/-- R187: causes that belong to an object's kind lie below the count of its row. -/
theorem toNat_lt_of_causesBelong {o : AlertObject} {m : CauseSet} (h : causesBelong o m = true) :
    m.toNat < 2 ^ AlertObject.causeCount o := by
  have hz : m &&& ~~~(AlertObject.allCauses o) = 0 := of_decide_eq_true h
  have hm : m &&& AlertObject.allCauses o = m := by
    ext i hi
    have hi := congrArg (fun x : BitVec 16 => x[i]) hz
    simp only [BitVec.getElem_and, BitVec.getElem_not, BitVec.ofNat_eq_ofNat, BitVec.getElem_zero] at hi ⊢
    cases hmi : m[i] with
    | false => rfl
    | true => simpa [hmi] using hi
  have hle : m.toNat ≤ (AlertObject.allCauses o).toNat := by
    rw [← hm, BitVec.toNat_and]
    exact Nat.and_le_right
  have hall : (AlertObject.allCauses o).toNat = 2 ^ AlertObject.causeCount o - 1 := by cases o <;> rfl
  have hpos : 0 < 2 ^ AlertObject.causeCount o := Nat.two_pow_pos _
  omega

theorem readOperand_ack (o : AlertObject) {m : CauseSet} (h : causesBelong o m = true) :
    readOperand .ack .alert (Key.alert (.object o)).raw (byte2 m.toNat) = some (.causes m) := by
  have hlt := toNat_lt_of_causesBelong h
  show (if (Key.alert (.object o)).raw.form = 5 then Option.none
    else if (Key.alert (.object o)).raw.form = 6 ∧ 2 ^ causeCountOf (numberAt (Key.alert (.object o)).raw.bytes 0 1) ≤
      (BitVec.ofNat 8 (m.toNat / 256) ++ BitVec.ofNat 8 m.toNat : BitVec 16).toNat then Option.none
    else Option.some (Operand.causes (BitVec.ofNat 8 (m.toNat / 256) ++ BitVec.ofNat 8 m.toNat : BitVec 16))) = _
  rw [append_byte2, causeCountOf_object, form_object, if_neg (by decide), if_neg fun h => absurd h.2 (Nat.not_le.2 hlt)]

/-! ## Rows -/

/-- What the operands of a request row decode to. -/
def Instr.operand : Instr → Operand
  | .amendSlot _ items | .amendInventory _ items | .amendZone _ items | .amendChannel _ items | .amendSettings items
  | .defineChannel items => .items items
  | .unacceptedVerb .define _ _ => .items []
  | .ack _ causes => .causes causes
  | .orderAdmit _ | .orderRetrySupply _ | .orderCommitCurve _ | .orderPass _ | .orderEnable _ | .orderRestart => .order 0 0
  | .orderReadmit _ | .orderUnpin _ | .orderHold _ | .orderDisable _ => .order 1 0
  | .orderEvict _ | .orderRetryFan _ | .orderBar _ => .order 2 0
  | .orderForceOff _ | .orderFlush _ => .order 3 0
  | .orderRenegotiate _ => .order 4 0
  | .orderCap _ => .order 5 0
  | .orderUncap _ => .order 6 0
  | .orderPin _ band => .order 0 band
  | _ => .none

variable {i : Instr} {verb : Verb} {table : TableId} {key : Key}

/-- R193: the key of a well-formed request row is one its table and verb take. -/
theorem fits_of_requestHeader (hwf : i.wellFormed = true) (h : requestHeader i = some (verb, table, key)) :
    key.fits verb table = true := by
  cases i
  case unacceptedVerb =>
    cases h
    exact key_fits_of_wellFormed hwf
  case fetchInventory q | retireInventory q =>
    cases h
    cases q <;> simpa [Key.fits, Instr.wellFormed] using hwf
  case amendInventory q items =>
    cases h
    simp only [Instr.wellFormed, Bool.and_eq_true] at hwf
    simp [Key.fits, hwf.1.1]
  all_goals cases h <;> simp [Key.fits, tableSize, Fin.is_le]

/-- A message of an unaccepted verb says which it was where it carries no operands: RETIRE and DEFINE. -/
abbrev Instr.saysItself (i : Instr) : Prop := ∀ v t k, i = .unacceptedVerb v t k → v = .retire ∨ v = .define

/-- Table 67 step 2: the operands of a well-formed request row are read back. -/
theorem readOperand_operandBytes (hwf : i.wellFormed = true) (hu : i.saysItself)
    (h : requestHeader i = some (verb, table, key)) :
    readOperand verb table key.raw (operandBytes i) = some i.operand := by
  cases i
  case unacceptedVerb v t k =>
    cases h
    rcases hu _ _ _ rfl with rfl | rfl
    · rfl
    · have ht : table ≠ .channel := by
        rintro rfl
        simp [Instr.wellFormed, TableId.accepts] at hwf
      simp [readOperand, operandBytes, readItems, itemsWellFormed, allDistinct, ht, Instr.operand]
  case amendSlot | amendZone | amendChannel | amendSettings =>
    cases h
    exact readOperand_amend _ hwf
  case amendInventory q items =>
    cases h
    simp only [Instr.wellFormed, Bool.and_assoc] at hwf
    exact readOperand_amend _ (Bool.and_eq_true_iff.1 hwf).2
  case defineChannel =>
    cases h
    exact readOperand_define _ hwf
  case ack o m =>
    cases h
    exact readOperand_ack o hwf
  case orderPin f band =>
    cases h
    have hb : (BitVec.ofNat 8 band).toNat = band := toNat_ofNat_byte (by
      have := of_decide_eq_true hwf
      omega)
    show some (Operand.order 0 (BitVec.ofNat 8 band).toNat) = _
    rw [hb]
    rfl
  all_goals cases h <;> rfl

/-- Table 66: the row of a decoded request. -/
theorem commandOf_operand (hwf : i.wellFormed = true) (hu : i.saysItself) (h : requestHeader i = some (verb, table, key)) :
    commandOf verb table key i.operand = i := by
  cases i
  case unacceptedVerb v t k =>
    cases h
    have hfits := key_fits_of_wellFormed hwf
    simp only [Instr.wellFormed, Bool.and_eq_true, Bool.not_eq_true'] at hwf
    obtain ⟨⟨haccepts, _⟩, _⟩ := hwf
    rcases hu _ _ _ rfl with rfl | rfl
    · cases key <;> simp_all [commandOf, Key.fits, TableId.accepts]
    · cases key <;> simp_all [commandOf, Key.fits, TableId.accepts, Instr.operand]
  all_goals cases h <;> simp [commandOf, Instr.operand, fetchOf, amendOf, orderOf]

theorem verbOf_verbCode (verb : Verb) : verbOf (BitVec.ofNat 8 (verbCode verb)) = some verb := by cases verb <;> rfl
theorem tableOf_tableCode (table : TableId) : tableOf (BitVec.ofNat 8 (tableCode table)) = some table := by
  cases table <;> rfl

/-- R181: the message of a request row, behind its length, decodes to the row. -/
theorem decodeBody_requestMessage (hwf : i.wellFormed = true) (hu : i.saysItself)
    (h : requestHeader i = some (verb, table, key)) :
    decodeBody (BitVec.ofNat 8 (verbCode verb)) (BitVec.ofNat 8 (tableCode table)) key.raw.form
      (key.raw.bytes ++ operandBytes i) =
      .request (BitVec.ofNat 8 (verbCode verb)) (BitVec.ofNat 8 (tableCode table)) key i := by
  have hk := fits_of_requestHeader hwf h
  simp only [decodeBody, verbOf_verbCode, tableOf_tableCode, takeKey_raw hk, keyFormTaken_raw hk, if_true,
    readOperand_operandBytes hwf hu h, keyOf_raw hk, commandOf_operand hwf hu h]

/-- The message of a request row, byte by byte. -/
theorem requestMessage_eq (h : requestHeader i = some (verb, table, key)) :
    requestMessage i = withCheck (byte2 (key.raw.bytes.length + (operandBytes i).length + 4) ++
      (BitVec.ofNat 8 (verbCode verb) :: BitVec.ofNat 8 (tableCode table) :: key.raw.form ::
        (key.raw.bytes ++ operandBytes i))) := by
  have hlen : (BitVec.ofNat 8 (verbCode verb) :: BitVec.ofNat 8 (tableCode table) :: key.raw.form ::
      (key.raw.bytes ++ operandBytes i)).length + 1 = key.raw.bytes.length + (operandBytes i).length + 4 := by
    simp
  rw [← hlen]
  simp [requestMessage, h, keyBytes_eq]

/-- Table 67 step 1: a message whose check passes, by its length. -/
theorem decodeRequest_of_sum {m rest : List Byte} {l1 l0 v t form : Byte} (hsum : checkPasses m = true)
    (hm : m = l1 :: l0 :: v :: t :: form :: rest) :
    decodeRequest m = if number [l1, l0] + 2 = m.length ∧ rest ≠ [] then decodeBody v t form rest.dropLast
      else .bad .badForm v t := by
  subst hm
  have hv : BitVec.ofNat 8 (numberAt (l1 :: l0 :: v :: t :: form :: rest) 2 1) = v := by simp [numberAt, number]
  have ht : BitVec.ofNat 8 (numberAt (l1 :: l0 :: v :: t :: form :: rest) 3 1) = t := by simp [numberAt, number]
  simp only [decodeRequest, hsum, if_true, hv, ht]

/-- R181: the request message of a well-formed row that fits the request slot decodes to the row with its key. -/
theorem decodeRequest_requestMessage (hwf : i.wellFormed = true) (hu : i.saysItself)
    (h : requestHeader i = some (verb, table, key)) (hlen : (requestMessage i).length ≤ 256) :
    decodeRequest (requestMessage i) =
      .request (BitVec.ofNat 8 (verbCode verb)) (BitVec.ofNat 8 (tableCode table)) key i := by
  have hb := decodeBody_requestMessage hwf hu h
  rw [requestMessage_eq h] at hlen ⊢
  generalize hn : key.raw.bytes.length + (operandBytes i).length + 4 = n at hlen ⊢
  set rest := key.raw.bytes ++ operandBytes i with hrest
  set body := byte2 n ++ (BitVec.ofNat 8 (verbCode verb) :: BitVec.ofNat 8 (tableCode table) :: key.raw.form :: rest) with hbody
  have hlength : (withCheck body).length = n + 2 := by
    simp [withCheck, hbody, hrest, byte2, ← hn]
    omega
  have hnum : number (byte2 n) = n := number_byte2 (by omega)
  have hsum : checkPasses (withCheck body) = true := checkPasses_iff.2 (byteSum_withCheck body)
  have hm : withCheck body = BitVec.ofNat 8 (n / 256) :: BitVec.ofNat 8 n :: BitVec.ofNat 8 (verbCode verb) ::
      BitVec.ofNat 8 (tableCode table) :: key.raw.form :: (rest ++ [checkByte body]) := rfl
  have hform : number [BitVec.ofNat 8 (n / 256), BitVec.ofNat 8 n] + 2 = (withCheck body).length := by
    rw [hlength]
    exact congrArg (· + 2) hnum
  rw [decodeRequest_of_sum hsum hm, if_pos ⟨hform, by simp⟩, List.dropLast_concat, hb]

end Sys2Proof

namespace Sys2Proof.Machine

/-! ## Pages (Table 73) -/

theorem readPage_page (x : Exchange) :
    readPage x.page = { kind := x.request.kindCode, flags := if x.toggle then 1 else 0, payload := x.request.payload } := by
  obtain ⟨request, toggle, second⟩ := x
  cases request <;> cases toggle <;> rfl

/-- Settles O55: the decoding of requests, the check of responses, and the pages sent. -/
theorem decodeOfRequestMessage : Obligations.DecodeOfRequestMessage := by
  refine ⟨fun i verb table key hwf h hu hlen => ?_, fun status verb table key result => byteSum_withCheck _,
    fun x => ⟨byteSum_withCheck _, readPage_page x, ?_⟩⟩
  · exact decodeRequest_requestMessage hwf (fun v t k hi => absurd hi (hu v t k)) h hlen
  · cases x.request <;> rfl

/-! ## PUT_REQUEST (R180, R191, R193) -/

section

variable {c : Chip}

/-- R180: a message that finds a slot of the port in use is discarded. -/
theorem putMessage_discarded {m : List Byte} (h : c.port.request.isSome = true ∨ c.port.response.isSome = true) :
    putMessage m c = setPort { c.port with
      returned := c.statusByte :: List.replicate m.length 0, overrun := true } c := by
  have hne : ¬ (c.port.request = none ∧ c.port.response = none) := fun ⟨h1, h2⟩ => by simp [h1, h2] at h
  exact if_neg hne

/-- The port after the transfer of a message that is taken. -/
abbrev Port.loaded (p : Port) (status : Byte) (m : List Byte) : Port :=
  { p with
    returned := status :: List.replicate m.length 0
    overrun := false }

/-- R180: a message that finds both slots EMPTY is decoded. -/
theorem putMessage_open {m : List Byte} (h1 : c.port.request = none) (h2 : c.port.response = none) :
    putMessage m c = decodePut (m.take 256) (setPort (c.port.loaded c.statusByte m) c) := by
  exact if_pos (show _ ∧ _ from ⟨h1, h2⟩)

theorem keyRefusal_setPort (p : Port) (t : Byte) (key : Key) : (setPort p c).keyRefusal t key = c.keyRefusal t key := by
  rcases key with n | q | a | _
  · rfl
  · cases q <;> rfl
  · rfl
  · rfl

/-- What a message that is taken is answered with at once, or that its request is PENDING. -/
inductive PutOutcome
  | ready (bytes : List Byte)
  | pending (i : Instr)

/-- The port with the outcome of decoding. -/
abbrev Port.outcome (p : Port) : PutOutcome → Port
  | .ready bytes => { p with response := some bytes }
  | .pending i => { p with request := some i }

/-- Table 67: what decoding does with the message. -/
def Chip.putOutcome (c : Chip) : Decoded → PutOutcome
  | .bad status verb table => .ready (responseMessage status verb table [255] [])
  | .outOfRange verb table raw => .ready (responseMessage .range verb table (raw.form :: raw.bytes) [])
  | .request verb table key i =>
    match c.keyRefusal table key with
    | some a => .ready (responseMessage a.status verb table (keyBytes key) a.result)
    | none => .pending i

theorem decodePut_setPort (m : List Byte) (p : Port) :
    decodePut m (setPort p c) = setPort (p.outcome (c.putOutcome (decodeRequest m))) c := by
  unfold decodePut Chip.putOutcome
  cases decodeRequest m with
  | bad status verb table => rfl
  | outOfRange verb table raw => rfl
  | request verb table key i =>
    simp only [keyRefusal_setPort]
    cases c.keyRefusal table key <;> rfl

/-- R180: the transfer of a message that is taken and decodes so. -/
theorem exec_putRequest {s : State} {m : List Byte} {d : Decoded} (hq : s.chip.quiescent) (h1 : s.chip.port.request = none)
    (h2 : s.chip.port.response = none) (hm : m.length ≤ 256) (hd : decodeRequest m = d) :
    exec (.putRequest m) s = .next (s.onChip
      (setPort ((s.chip.port.loaded s.chip.statusByte m).outcome (s.chip.putOutcome d)) s.chip)) := by
  refine taken_settled ?_ hq
  rw [putMessage_open h1 h2, List.take_of_length_le hm, decodePut_setPort, hd]

theorem numberAt_byte {m rest : List Byte} {i : Nat} {x : Byte} (h : m.drop i = x :: rest) :
    BitVec.ofNat 8 (numberAt m i 1) = x := by
  simp [numberAt, number, h]

/-- R191: a message whose check fails. -/
theorem decodeRequest_badCheck {m rest : List Byte} {v t : Byte} (hm : m.drop 2 = v :: t :: rest) (h : byteSum m ≠ 0) :
    decodeRequest m = .bad .badCheck v t := by
  have h3 : m.drop 3 = t :: rest := by rw [show 3 = 2 + 1 from rfl, ← List.drop_drop, hm]; rfl
  have hc : ¬ checkPasses m = true := fun hc => h (checkPasses_iff.1 hc)
  simp only [decodeRequest, hc, numberAt_byte hm, numberAt_byte h3]
  rfl

theorem verbOf_none {v : Byte} (h : v.toNat = 0 ∨ 6 < v.toNat) : verbOf v = none := by
  rcases h with h | h
  · rw [BitVec.eq_of_toNat_eq (y := 0) h]
    rfl
  · rw [verbOf, List.getElem?_eq_none (by simp; omega), Option.filter_none]

theorem tableOf_none {t : Byte} (h : t.toNat = 0 ∨ 11 < t.toNat) : tableOf t = none := by
  rcases h with h | h
  · rw [BitVec.eq_of_toNat_eq (y := 0) h]
    rfl
  · rw [tableOf, List.getElem?_eq_none (by simp; omega), Option.filter_none]

/-- R193: a message whose length is wrong, or whose verb or table no code spells. -/
theorem decodeRequest_badForm {m rest : List Byte} {v t : Byte} (hm : m.drop 2 = v :: t :: rest) (hr : rest ≠ [])
    (hsum : byteSum m = 0)
    (h : number (m.take 2) + 2 ≠ m.length ∨ v.toNat = 0 ∨ 6 < v.toNat ∨ t.toNat = 0 ∨ 11 < t.toNat) :
    decodeRequest m = .bad .badForm v t := by
  obtain ⟨form, rest, rfl⟩ := List.exists_cons_of_ne_nil hr
  obtain ⟨l1, l0, rfl⟩ : ∃ l1 l0, m = l1 :: l0 :: v :: t :: form :: rest := by
    rcases m with _ | ⟨l1, _ | ⟨l0, m⟩⟩
    · cases hm
    · cases hm
    · exact ⟨l1, l0, by simpa using hm⟩
  rw [decodeRequest_of_sum (checkPasses_iff.2 hsum) rfl]
  split
  next hlen =>
    have hcode : verbOf v = none ∨ tableOf t = none := by
      rcases h with h | h | h | h | h
      · exact absurd hlen.1 h
      · exact .inl (verbOf_none (.inl h))
      · exact .inl (verbOf_none (.inr h))
      · exact .inr (tableOf_none (.inl h))
      · exact .inr (tableOf_none (.inr h))
    unfold decodeBody
    rcases hcode with h | h
    · simp only [h]
    · simp only [h]
      cases verbOf v <;> rfl
  next => rfl

/-- R193: a record number that its table does not have. -/
theorem decodeRequest_outOfRange {table : TableId} {n : Byte} (hi : table ≠ .inventory) (ha : table ≠ .alert)
    (hn : tableSize table ≤ n.toNat) :
    decodeRequest (withCheck [0, 5, 1, BitVec.ofNat 8 (tableCode table), 0, n]) =
      .outOfRange 1 (BitVec.ofNat 8 (tableCode table)) { form := 0, bytes := [n] } := by
  have hk : keyOf table { form := 0, bytes := [n] } = none := if_neg (Nat.not_lt.2 hn)
  have ht : tableOf (BitVec.ofNat 8 (tableCode table)) = some table := tableOf_tableCode table
  have hf : keyFormTaken .fetch table 0 = true := by cases table <;> first | rfl | contradiction
  set body : List Byte := [0, 5, 1, BitVec.ofNat 8 (tableCode table), 0, n] with hbody
  have hm : withCheck body = 0 :: 5 :: 1 :: BitVec.ofNat 8 (tableCode table) :: 0 :: [n, checkByte body] := rfl
  have hlen : number [0, 5] + 2 = (withCheck body).length := by simp [number, withCheck, hbody]
  rw [decodeRequest_of_sum (checkPasses_iff.2 (byteSum_withCheck _)) hm, if_pos ⟨hlen, by simp⟩]
  have hd : decodeBody 1 (BitVec.ofNat 8 (tableCode table)) 0 [n] =
      .outOfRange 1 (BitVec.ofNat 8 (tableCode table)) { form := 0, bytes := [n] } := by
    have hv : verbOf 1 = some .fetch := rfl
    have htake : takeKey 0 [n] = some (({ form := 0, bytes := [n] } : RawKey), []) := rfl
    have ho : readOperand .fetch table { form := 0, bytes := [n] } [] = some .none := rfl
    simp only [decodeBody, hv, ht, htake, hf, ho, hk, if_true]
  exact hd

end

/-- Settles O35, by what the message decodes to. -/
theorem putRequestIsTaken : Obligations.PutRequestIsTaken := by
  intro s m hq
  refine ⟨fun h => taken_settled (putMessage_discarded h) hq, fun h1 h2 => ⟨fun v t rest hlen hm hr => ⟨fun h => ?_, fun hs h => ?_⟩,
    fun table n hi ha hn => ?_, fun i verb table key hwf hh hu hlen hm => ?_⟩⟩
  · exact exec_putRequest hq h1 h2 hlen (decodeRequest_badCheck hm h)
  · exact exec_putRequest hq h1 h2 hlen (decodeRequest_badForm hm hr hs h)
  · rintro t rfl
    exact exec_putRequest hq h1 h2 (by simp [withCheck]) (decodeRequest_outOfRange hi ha hn)
  · subst hm
    have hd := decodeRequest_requestMessage hwf (fun v t k hi => (hu v t k hi)) hh hlen
    have ran := exec_putRequest hq h1 h2 hlen hd
    have refused {a : Answer} (ha : s.chip.keyRefusal (BitVec.ofNat 8 (tableCode table)) key = some a) :=
      ran.trans (by rw [Chip.putOutcome, ha])
    refine ⟨fun hk => ?_, fun n hkey hk => ?_, fun q hkey hne hr => ?_, fun q g inUse hkey hr => ?_⟩
    · rw [ran, Chip.putOutcome, Chip.keyRefusal_of_keyNames hk]
    · subst hkey
      have hfits := fits_of_requestHeader hwf hh
      simp only [Key.fits, decide_eq_true_eq] at hfits
      obtain ⟨_, _, _, hsize⟩ := hfits
      rw [ran, Chip.putOutcome, keyRefusal_record hsize hk]
    · subst hkey
      rw [ran, Chip.putOutcome, keyRefusal_noRecord hne _ hr]
    · subst hkey
      rw [ran, Chip.putOutcome, keyRefusal_stale _ hr]

end Sys2Proof.Machine

/-!
PROOF. What stands when the hub is done: raised causes, the flush of a channel (R162), and the frames that leave the queues
(R172, R173).
-/

namespace Sys2Proof.Machine

variable {c : Chip}

/-! ## Raised causes stay (R187) -/

theorem Cause.mask_and_mask (x : Cause) : x.mask &&& x.mask ≠ 0#16 := by cases x <;> decide

theorem alerted_raise (o : AlertObject) (x : Cause) (c : Chip) : (raise o x c).alerted o x := by
  show causesOf o (raiseIn o x.mask c.port.alerts) &&& x.mask ≠ 0
  rw [causesOf_raiseIn, if_pos rfl]
  intro h
  have hx : (causesOf o c.port.alerts ||| x.mask) &&& x.mask = x.mask := by
    ext i hi
    simp only [BitVec.getElem_and, BitVec.getElem_or]
    cases (causesOf o c.port.alerts)[i] <;> cases x.mask[i] <;> rfl
  rw [hx] at h
  exact Cause.mask_and_mask x (by rw [h]; rfl)

/-- R187: a raise of any cause leaves a cause that stands. -/
theorem Chip.alerted.raise {o : AlertObject} {x : Cause} (h : c.alerted o x) (o' : AlertObject) (y : Cause) :
    (Machine.raise o' y c).alerted o x := by
  show causesOf o (raiseIn o' y.mask c.port.alerts) &&& x.mask ≠ 0
  rw [causesOf_raiseIn]
  split
  · intro h0
    refine h ?_
    ext i hi
    have hi' := congrArg (fun m : BitVec 16 => m[i]) h0
    simp only [BitVec.getElem_and, BitVec.getElem_or, BitVec.ofNat_eq_ofNat, BitVec.getElem_zero] at hi' ⊢
    revert hi'
    cases (causesOf o c.port.alerts)[i] <;> cases x.mask[i] <;> simp
  · exact h

/-- No operation but the host's own takes a cause away. -/
theorem Chip.alerted_keeps (o : AlertObject) (x : Cause) : LinkKeeps fun c => c.alerted o x where
  power _ _ h := h
  raise _ _ _ h := h.raise _ _
  messages _ _ h := h
  fans _ _ h := h
  engines _ _ h := h
  inventory _ _ h := h
  hub _ _ h := h
  statusPages _ _ h := h
  enter _ _ _ _ _ h := h
  write _ _ _ _ h := h
  modules _ _ h := h

/-! ## What the hub's operations leave alone -/

/-- Two parts that differ in the hub and in the causes raised at most. -/
structure Chip.SameButHub (c c' : Chip) : Prop where
  slots : c'.slots = c.slots
  engines : c'.engines = c.engines
  modules : c'.modules = c.modules
  inventory : c'.inventory = c.inventory
  power : c'.power = c.power
  fans : c'.fans = c.fans
  port : c'.port = { c.port with alerts := c'.port.alerts }
  messages : c'.messages = c.messages

theorem Chip.SameButHub.refl (c : Chip) : c.SameButHub c := ⟨rfl, rfl, rfl, rfl, rfl, rfl, rfl, rfl⟩

theorem Chip.SameButHub.quiescent {c' : Chip} (h : c.SameButHub c') (hq : c.quiescent) : c'.quiescent := by
  rw [Chip.quiescent, h.power]
  exact hq

theorem Chip.sameButHub_keeps (c : Chip) : HubKeeps c.SameButHub where
  hub _ _ h := ⟨h.slots, h.engines, h.modules, h.inventory, h.power, h.fans, h.port, h.messages⟩
  raise o x c' h := ⟨h.slots, h.engines, h.modules, h.inventory, h.power, h.fans,
    congrArg (fun p : Port => { p with alerts := raiseIn o x.mask c'.port.alerts }) h.port, h.messages⟩

/-- The queue service writes the power unit's records, causes and messages alone. -/
theorem queueService_same (c : Chip) : c.SameButPower (queueService c) :=
  (Chip.sameButPower_keeps c).queueService (.refl c)

theorem queueService_channel (c : Chip) (h : Fin 32) : (queueService c).channel h = c.channel h :=
  congrArg (fun b : Hub => b.channels.read h) (queueService_same c).hub

theorem queueService_uplink (c : Chip) (u : Fin 2) : (queueService c).uplink u = c.uplink u :=
  congrArg (fun b : Hub => b.uplinks.read u) (queueService_same c).hub

theorem Chip.alerted.queueService {o : AlertObject} {x : Cause} (h : c.alerted o x) : (queueService c).alerted o x :=
  (Chip.alerted_keeps o x).toPowerKeeps.queueService h

/-! ## Records of the hub -/

section

variable {h : Fin 32} {ch : Channel} {u : Fin 2} {k : Fin 16}

@[simp] theorem setChannel_setChannel (h : Fin 32) (x y : Option Channel) (c : Chip) :
    setChannel h y (setChannel h x c) = setChannel h y c := by
  show { c with hub := { c.hub with channels := (c.hub.channels.put h x).put h y } } = _
  rw [Bank.put_put]
  rfl

@[simp] theorem setUplink_setUplink (u : Fin 2) (x y : Uplink) (c : Chip) : setUplink u y (setUplink u x c) = setUplink u y c := by
  show { c with hub := { c.hub with uplinks := (c.hub.uplinks.put u x).put u y } } = _
  rw [Bank.put_put]
  rfl

@[simp] theorem setLane_setLane (k : Fin 16) (x y : Lane) (c : Chip) : setLane k y (setLane k x c) = setLane k y c := by
  show { c with hub := { c.hub with lanes := (c.hub.lanes.put k x).put k y } } = _
  rw [Bank.put_put]
  rfl

@[simp] theorem setUplink_uplink (u : Fin 2) (c : Chip) : setUplink u (c.uplink u) c = c := by
  show { c with hub := { c.hub with uplinks := c.hub.uplinks.put u (c.hub.uplinks.read u) } } = c
  rw [Bank.put_read]

/-- A change of a record that leaves it as it is. -/
theorem modUplink_eq_self {f : Uplink → Uplink} (hf : f (c.uplink u) = c.uplink u) : modUplink u f c = c := by
  rw [modUplink, hf, setUplink_uplink]

theorem modLane_eq_self {f : Lane → Lane} (hf : f (c.lane k) = c.lane k) : modLane k f c = c := by
  rw [modLane, hf, setLane_lane]

theorem modChannel_of_channel {f : Channel → Channel} (hc : c.channel h = some ch) :
    modChannel h f c = setChannel h (some (f ch)) c := by
  rw [modChannel, hc]
  rfl

theorem modChannel_of_none {f : Channel → Channel} (hc : c.channel h = none) : modChannel h f c = c := by
  rw [modChannel, hc]
  exact setChannel_of_channel hc

theorem channel_modChannel_ne {f : Channel → Channel} {j : Fin 32} (hj : j ≠ h) : (modChannel h f c).channel j = c.channel j := by
  rw [modChannel, channel_setChannel, if_neg hj]

/-! ## Cells that become free (R164, R176) -/

@[simp] theorem frameCells_pos_iff {n : Nat} : 0 < frameCells n ↔ 0 < n := by
  unfold frameCells ceilDiv
  omega

theorem Channel.busy_eq_false_iff (ch : Channel) : ch.busy = false ↔ ch.cellsInUse = 0 := by simp [Channel.busy]

theorem channelBusy_of_channel (hc : c.channel h = some ch) : c.channelBusy h = ch.busy := by
  rw [Chip.channelBusy, hc, Option.any_some]

/-- R176: with the channel on its preferred uplink there is nothing to revert. -/
theorem revert_of_home (hc : c.channel h = some ch) (ha : ch.active = ch.preferred) : revert h c = c := by
  have haway : ch.away = false := by simp [Channel.away, ha]
  rw [revert, modChannel_of_channel hc]
  simp only [haway, Bool.false_and, Bool.false_eq_true, if_false]
  exact setChannel_of_channel hc

/-- R176: a revert writes the active uplink of its channel alone. -/
theorem revert_of_channel (hc : c.channel h = some ch) : ∃ u, revert h c = setChannel h (some { ch with active := u }) c := by
  rw [revert, modChannel_of_channel hc]
  by_cases hv : (ch.away && c.usable ch.preferred) = true
  · exact ⟨ch.preferred, by rw [if_pos hv]⟩
  · exact ⟨ch.active, by rw [if_neg hv]⟩

theorem freeing_of_busy {f : Chip → Chip} (hb : (f c).channelBusy h = true) : freeing h f c = f c :=
  if_neg (by simp [hb])

theorem freeing_of_home {f : Chip → Chip} (hc : (f c).channel h = some ch) (ha : ch.active = ch.preferred) :
    freeing h f c = f c := by
  unfold freeing
  extract_lets after
  split
  · exact revert_of_home hc ha
  · rfl

theorem freeing_of_id {f : Chip → Chip} (hf : f c = c) : freeing h f c = c := by
  unfold freeing
  simp only [hf]
  exact if_neg (by simp)

/-- R176: freeing writes the active uplink of its channel at most. -/
theorem freeing_of_channel {f : Chip → Chip} (hc : (f c).channel h = some ch) :
    ∃ u, freeing h f c = setChannel h (some { ch with active := u }) (f c) := by
  unfold freeing
  extract_lets after
  split
  · exact revert_of_channel hc
  · exact ⟨ch.active, (setChannel_of_channel hc).symm⟩

/-! ## The flush of a channel (R162) -/

/-- The channel of a flush, with the uplink it stands on afterwards. -/
def Chip.flushedChannel (c : Chip) (h : Fin 32) (ch : Channel) (u : Fin 2) : Channel :=
  { ch.flushed (decide ((c.lane ch.slot).sending = some (.stored h))) (decide ((c.uplink ch.active).sending = some (.stored h)))
    with active := u }

/-- R162: the uplink of a flushed channel. -/
def Uplink.flushed (h : Fin 32) (n : Nat) (r : Uplink) : Uplink :=
  { r with
    egress := r.egress.filter fun e => decide (e.1 ≠ h)
    sending := detachLine h r.sending
    counters := { r.counters with flushed := r.counters.flushed + BitVec.ofNat 32 n } }

/-- R162: the writes of a flush. -/
theorem flushRecord_eq : flushRecord h ch c = setUplink ch.active ((c.uplink ch.active).flushed h ch.up.length)
    (setLane ch.slot { c.lane ch.slot with sending := detachLine h (c.lane ch.slot).sending }
      (setChannel h (some (c.flushedChannel h ch ch.active)) c)) := rfl

theorem flushRecord_channel : (flushRecord h ch c).channel h = some (c.flushedChannel h ch ch.active) := by
  rw [flushRecord_eq]
  exact (channel_setChannel ..).trans (if_pos rfl)

/-- R162, R176: what a flush of a channel leaves. -/
theorem flush_of_channel (hc : c.channel h = some ch) : ∃ u,
    flush h c = setChannel h (some (c.flushedChannel h ch u)) (flushRecord h ch c) := by
  unfold flush
  rw [hc]
  exact freeing_of_channel flushRecord_channel

theorem channel_flushRecord_ne {j : Fin 32} (hj : j ≠ h) : (flushRecord h ch c).channel j = c.channel j := by
  rw [flushRecord_eq]
  exact (channel_setChannel ..).trans (if_neg hj)

theorem lane_flushRecord : (flushRecord h ch c).lane ch.slot =
    { c.lane ch.slot with sending := detachLine h (c.lane ch.slot).sending } := by
  rw [flushRecord_eq]
  exact (lane_setLane ..).trans (if_pos rfl)

theorem uplink_flushRecord (u : Fin 2) : (flushRecord h ch c).uplink u =
    if u = ch.active then (c.uplink ch.active).flushed h ch.up.length else c.uplink u := by
  rw [flushRecord_eq, uplink_setUplink]
  rfl

/-- R162: a flush changes the record of its channel alone. -/
theorem channel_flush_ne {j : Fin 32} (hj : j ≠ h) : (flush h c).channel j = c.channel j := by
  cases hc : c.channel h with
  | none =>
    unfold flush
    rw [hc]
  | some ch =>
    obtain ⟨u, hu⟩ := flush_of_channel hc
    rw [hu, channel_setChannel, if_neg hj, channel_flushRecord_ne hj]

theorem channel_flush (hc : c.channel h = some ch) : ∃ u, (flush h c).channel h = some (c.flushedChannel h ch u) := by
  obtain ⟨u, hu⟩ := flush_of_channel hc
  exact ⟨u, by rw [hu, channel_setChannel, if_pos rfl]⟩

theorem Channel.flushed_of_empty (hd : ch.down = []) (hu : ch.up = []) : ch.flushed false false = ch := by
  cases ch
  simp_all [Channel.flushed, countFlushed]

/-- R162: with no frame stored, sent or listed there is nothing to flush. -/
theorem flush_of_empty (hc : c.channel h = some ch) (hd : ch.down = []) (hu : ch.up = [])
    (hl : (c.lane ch.slot).sending ≠ some (.stored h)) (hs : (c.uplink ch.active).sending ≠ some (.stored h))
    (he : ∀ e ∈ (c.uplink ch.active).egress, e.1 ≠ h) : flush h c = c := by
  have hegress : (c.uplink ch.active).egress.filter (fun e => decide (e.1 ≠ h)) = (c.uplink ch.active).egress :=
    List.filter_eq_self.2 fun e hm => by simpa using he e hm
  have hch : c.flushedChannel h ch ch.active = ch := by
    rw [Chip.flushedChannel, decide_eq_false hl, decide_eq_false hs]
    exact Channel.flushed_of_empty hd hu
  have hup : (c.uplink ch.active).flushed h ch.up.length = c.uplink ch.active := by
    rw [Uplink.flushed, hegress, detachLine, if_neg hs, hu]
    simp
  unfold flush
  rw [hc]
  refine freeing_of_id ?_
  rw [flushRecord_eq, hch, hup, setChannel_of_channel hc, detachLine, if_neg hl, setLane_lane, setUplink_uplink]

/-! ## Entry to BAR (R158) -/

/-- R158: a channel that enters BAR. -/
structure Channel.Barred (ch ch' : Channel) : Prop where
  state : ch'.state = .bar
  holdCause : ch'.holdCause = none
  down : ch'.down = []
  up : ch'.up = []
  granted : ch'.granted = ch.granted
  oversize : ch'.counters.oversize = ch.counters.oversize

theorem enterBar_of_channel (hc : c.channel h = some ch) :
    ∃ ch', (enterBar h c).channel h = some ch' ∧ ch.Barred ch' := by
  have hb : (modChannel h Channel.bar c).channel h = some ch.bar := by
    rw [modChannel, channel_setChannel, if_pos rfl, hc]
    rfl
  obtain ⟨u, hu⟩ := channel_flush hb
  exact ⟨_, hu, rfl, rfl, rfl, rfl, rfl, rfl⟩

theorem channel_enterBar_ne {j : Fin 32} (hj : j ≠ h) : (enterBar h c).channel j = c.channel j :=
  (channel_flush_ne hj).trans (channel_modChannel_ne hj)

/-- A flush counts in no uplink's frames in. -/
theorem framesIn_flush (u : Fin 2) : ((flush h c).uplink u).counters.framesIn = (c.uplink u).counters.framesIn := by
  cases hc : c.channel h with
  | none =>
    unfold flush
    rw [hc]
  | some ch =>
    obtain ⟨v, hv⟩ := flush_of_channel hc
    rw [hv]
    show ((flushRecord h ch c).uplink u).counters.framesIn = _
    rw [uplink_flushRecord]
    split
    · rename_i hu
      rw [hu]
      rfl
    · rfl

end

/-! ## BAR and FLUSH (R158, R159) -/

section

variable {s : State} {h : Fin 32} {ch : Channel}

/-- An order of the hub, answered. -/
theorem takenOrder_hub {i : Instr} {owner : Chip → Chip × Status} {c : Chip} {x : Status} (ht : s.chip.takes i)
    (hq : s.chip.quiescent) (ho : owner (s.chip.opened i) = (c, x)) (hc : (s.chip.opened i).SameButHub c) :
    takenOrder i owner s = .next (s.onChip (writeAnswer i (c, { status := x, result := [] }))) := by
  have hw : (writeAnswer i (c, ({ status := x, result := [] } : Answer))).quiescent := hc.quiescent (by exact hq)
  refine (taken_of_takes _ ht).trans ?_
  show Host.Outcome.next (s.onChip (queueService (writeAnswer i (statusOnly (owner (s.chip.opened i)))))) = _
  rw [ho]
  exact congrArg (fun c => Host.Outcome.next (s.onChip c)) (queueService_of_settled hw.1 hw.2)

theorem barChannel_of_not_bar (hc : c.channel h = some ch) (hs : ch.state ≠ .bar) : barChannel h c = (enterBar h c, .ok) := by
  simp only [barChannel, hc, if_neg hs]

theorem barChannel_of_bar (hc : c.channel h = some ch) (hs : ch.state = .bar) : barChannel h c = (c, .ok) := by
  simp only [barChannel, hc, if_pos hs]

theorem flushChannel_of_pass (hc : c.channel h = some ch) (hs : ch.state = .pass) : flushChannel h c = (c, .state) := by
  simp only [flushChannel, hc, if_pos hs]

theorem flushChannel_of_not_pass (hc : c.channel h = some ch) (hs : ch.state ≠ .pass) : flushChannel h c = (flush h c, .ok) := by
  simp only [flushChannel, hc, if_neg hs]

/-- R162: the lines and the detached frame of a flushed channel. -/
theorem flushedLine {α : Type} {x y : Option Sending} {now old : α} (hy : y = detachLine h x) :
    if x = some (.stored h) then y = some (.detached h) ∧ (if decide (x = some (.stored h)) then now else old) = now
      else y = x ∧ (if decide (x = some (.stored h)) then now else old) = old := by
  subst hy
  by_cases hx : x = some (.stored h) <;> simp [hx, detachLine]

/-- Settles O53, order by order. -/
theorem barAndFlushByState : Obligations.BarAndFlushByState := by
  refine ⟨fun s h ch hq hc ht => ⟨fun hs => ?_, fun hs => ?_⟩, fun s h ch hq hc ht => ?_⟩
  · have ho : (s.chip.opened (.orderBar h)).channel h = some ch := hc
    obtain ⟨ch', hch', hb⟩ := enterBar_of_channel ho
    have hk := (Chip.sameButHub_keeps (s.chip.opened (.orderBar h))).enterBar h (.refl _)
    exact ⟨_, ch', takenOrder_hub ht hq (barChannel_of_not_bar ho hs) hk, rfl, hch', hb.state, hb.holdCause, hb.down, hb.up,
      hb.granted, fun _ hj => channel_enterBar_ne (c := s.chip.opened (.orderBar h)) hj, hk.slots⟩
  · exact takenOrder_answered ht hq (barChannel_of_bar (c := s.chip.opened (.orderBar h)) hc hs)
  · intro line up
    have ho : (s.chip.opened (.orderFlush h)).channel h = some ch := hc
    refine ⟨fun hs => ?_, fun hs hd hu hl hn he => ?_, fun hs => ?_⟩
    · have hk := (Chip.sameButHub_keeps (s.chip.opened (.orderFlush h))).flush h (.refl _)
      obtain ⟨u, hu⟩ := flush_of_channel ho
      have hch : (flush h (s.chip.opened (.orderFlush h))).channel h = some (s.chip.flushedChannel h ch u) := by
        rw [hu, channel_setChannel, if_pos rfl]
        rfl
      have hl : (flush h (s.chip.opened (.orderFlush h))).lane ch.slot = { line with sending := detachLine h line.sending } := by
        rw [hu]
        exact lane_flushRecord
      have hr : (flush h (s.chip.opened (.orderFlush h))).uplink ch.active = up.flushed h ch.up.length := by
        rw [hu]
        exact (uplink_flushRecord ch.active).trans (if_pos rfl)
      exact ⟨_, _, takenOrder_hub ht hq (flushChannel_of_not_pass ho hs) hk, rfl, hch, rfl, rfl, rfl, rfl,
        congrArg Uplink.egress hr, congrArg Uplink.counters hr, flushedLine (congrArg Lane.sending hl),
        flushedLine (congrArg Uplink.sending hr),
        fun _ hj => channel_flush_ne (c := s.chip.opened (.orderFlush h)) hj, hk.slots⟩
    · exact takenOrder_answered ht hq ((flushChannel_of_not_pass ho hs).trans
        (congrArg (fun c => (c, Status.ok)) (flush_of_empty ho hd hu hl hn he)))
    · exact takenOrder_answered ht hq (flushChannel_of_pass (c := s.chip.opened (.orderFlush h)) hc hs)

end

end Sys2Proof.Machine

/-!
PROOF. Frames in (R169 to R171) and frames out (R172, R173, R176).
-/

namespace Sys2Proof.Machine

variable {c : Chip} {h : Fin 32} {ch : Channel} {u : Fin 2} {k : Fin 16} {n : Nat} {x : Frame}

/-! ## The fate of a frame (Table 62) -/

theorem goodFrame_of_good (hx : x.good = true) (hn : x.length ≤ 1536) : goodFrame x = true := by
  rw [goodFrame, hx, decide_eq_true hn]
  rfl

theorem goodFrame_of_bad (hx : x.good = false ∨ 1536 < x.length) : ¬ goodFrame x = true := by
  simp only [goodFrame, Bool.and_eq_true, decide_eq_true_eq]
  rintro ⟨hg, hn⟩
  rcases hx with hx | hx
  · rw [hg] at hx
    cases hx
  · omega

/-- R158: a frame longer than the channel takes is counted and bars the channel. -/
theorem frameFate_oversize (side : Side) (hs : ch.state ≠ .bar) (hn : ch.maxFrame < n) : frameFate side h ch n c =
    raise (.channel h) .oversize (enterBar h (setChannel h (some
      { ch with counters := { ch.counters with oversize := ch.counters.oversize + 1 } }) c)) := by
  unfold frameFate
  cases hst : ch.state with
  | bar => exact absurd hst hs
  | hold => exact if_pos hn
  | pass => exact if_pos hn

theorem frameFate_bar (side : Side) (hs : ch.state = .bar) : frameFate side h ch n c = setChannel h (some
    { ch with counters := { ch.counters with barredDrops := ch.counters.barredDrops + 1 } }) c := by
  simp only [frameFate, hs]

theorem frameFate_hold (side : Side) (hs : ch.state = .hold) (hn : n ≤ ch.maxFrame) : frameFate side h ch n c = setChannel h (some
    { ch with counters := { ch.counters with heldDrops := ch.counters.heldDrops + 1 } }) c := by
  simp only [frameFate, hs, if_neg (Nat.not_lt.2 hn)]

theorem frameFate_store (side : Side) (hs : ch.state = .pass) (hn : n ≤ ch.maxFrame)
    (hcells : frameCells n + ch.cellsInUse ≤ ch.cellCount) : frameFate side h ch n c = storeFrame side h ch n c := by
  have hfree : frameCells n ≤ ch.cellCount - ch.cellsInUse := by omega
  simp only [frameFate, hs, if_neg (Nat.not_lt.2 hn), if_pos hfree]

theorem frameFate_noCell (side : Side) (hs : ch.state = .pass) (hn : n ≤ ch.maxFrame)
    (hcells : ch.cellCount < frameCells n + ch.cellsInUse) (h0 : 0 < frameCells n) : frameFate side h ch n c =
      setChannel h (some { ch with counters := { ch.counters with noCell := ch.counters.noCell + 1 } }) c := by
  have hfree : ¬ frameCells n ≤ ch.cellCount - ch.cellsInUse := by omega
  simp only [frameFate, hs, if_neg (Nat.not_lt.2 hn), if_neg hfree]

/-- What a frame too long for its channel leaves. -/
theorem frameFate_barred (side : Side) (hs : ch.state ≠ .bar) (hn : ch.maxFrame < n) :
    ∃ ch', (frameFate side h ch n c).channel h = some ch' ∧ ch.Barred { ch' with counters := ch.counters } ∧
      ch'.counters.oversize = ch.counters.oversize + 1 := by
  obtain ⟨ch', hch', hb⟩ := enterBar_of_channel (c := setChannel h (some
    { ch with counters := { ch.counters with oversize := ch.counters.oversize + 1 } }) c) (channel_setChannel_self ..)
  rw [frameFate_oversize side hs hn]
  exact ⟨ch', hch', ⟨hb.state, hb.holdCause, hb.down, hb.up, hb.granted, rfl⟩, hb.oversize⟩

theorem frameFate_barred_ne (side : Side) (hs : ch.state ≠ .bar) (hn : ch.maxFrame < n) {j : Fin 32} (hj : j ≠ h) :
    (frameFate side h ch n c).channel j = c.channel j := by
  rw [frameFate_oversize side hs hn]
  show (enterBar h _).channel j = _
  rw [channel_enterBar_ne hj, channel_setChannel, if_neg hj]

theorem frameFate_barred_alerted (side : Side) (hs : ch.state ≠ .bar) (hn : ch.maxFrame < n) :
    (frameFate side h ch n c).alerted (.channel h) .oversize := by
  rw [frameFate_oversize side hs hn]
  exact alerted_raise _ _ _

/-- A frame that bars its channel is counted in no uplink's frames in beyond its arrival. -/
theorem frameFate_barred_framesIn (side : Side) (hs : ch.state ≠ .bar) (hn : ch.maxFrame < n) (u : Fin 2) :
    ((frameFate side h ch n c).uplink u).counters.framesIn = (c.uplink u).counters.framesIn := by
  rw [frameFate_oversize side hs hn]
  exact framesIn_flush u

/-! ## A frame at an uplink (R169, R170) -/

theorem countUplink_setUplink (f : UplinkCounters → UplinkCounters) (r : Uplink) (c : Chip) :
    countUplink u f (setUplink u r c) = setUplink u { r with counters := f r.counters } c := by
  simp [countUplink, modUplink]

/-- R170: the completion of the frame in the receive area of a usable uplink. -/
theorem uplinkCompletion_of_receiving (hr : (c.uplink u).receiving = true) (hu : c.usable u = true) :
    uplinkCompletion u x c = uplinkFrame u x (setUplink u { c.uplink u with receiving := false } c) := by
  have hu' : (modUplink u (fun r => { r with receiving := false }) c).usable u = true := by
    rw [Chip.usable, modUplink, uplink_setUplink_self]
    exact hu
  unfold uplinkCompletion
  rw [if_pos hr]
  exact if_pos hu'

theorem uplinkFrame_bad {r : Uplink} (hx : x.good = false ∨ 1536 < x.length) : uplinkFrame u x (setUplink u r c) =
    setUplink u { r with counters := { r.counters with checkErrors := r.counters.checkErrors + 1 } } c := by
  unfold uplinkFrame
  rw [if_neg (goodFrame_of_bad hx)]
  exact countUplink_setUplink ..

theorem uplinkFrame_matched {r : Uplink} (hx : x.good = true) (hn : x.length ≤ 1536)
    (hf : c.channelFor x.tag (fun ch => decide (ch.active = u)) = some (h, ch)) :
    uplinkFrame u x (setUplink u r c) = frameFate .fromUplink h ch x.length
      (setUplink u { r with counters := { r.counters with framesIn := r.counters.framesIn + 1 } } c) := by
  unfold uplinkFrame
  rw [if_pos (goodFrame_of_good hx hn), countUplink_setUplink]
  have hf' : (setUplink u { r with counters := { r.counters with framesIn := r.counters.framesIn + 1 } } c).channelFor x.tag
      (fun ch => decide (ch.active = u)) = some (h, ch) := hf
  simp only [hf']

theorem uplinkFrame_unmatched {r : Uplink} (hx : x.good = true) (hn : x.length ≤ 1536)
    (hf : c.channelFor x.tag (fun ch => decide (ch.active = u)) = none) :
    uplinkFrame u x (setUplink u r c) = setUplink u { r with counters := { r.counters with
      framesIn := r.counters.framesIn + 1, unmatched := r.counters.unmatched + 1 } } c := by
  unfold uplinkFrame
  rw [if_pos (goodFrame_of_good hx hn), countUplink_setUplink]
  have hf' : (setUplink u { r with counters := { r.counters with framesIn := r.counters.framesIn + 1 } } c).channelFor x.tag
      (fun ch => decide (ch.active = u)) = none := hf
  simp only [hf', countUplink_setUplink]

theorem startLane_of_sending (hs : (c.lane k).sending.isSome = true) : startLane k c = c := by
  obtain ⟨y, hy⟩ := Option.isSome_iff_exists.1 hs
  simp only [startLane, hy]

theorem usable_of_link {r : Uplink} (hl : r.link = true) (ha : r.admin = true) : r.usable = true := by
  rw [Uplink.usable, hl, ha]
  rfl

theorem not_usable_of_link {r : Uplink} (h : r.link = false ∨ r.admin = false) : ¬ r.usable = true := by
  simp only [Uplink.usable, Bool.and_eq_true, not_and, Bool.not_eq_true]
  rcases h with h | h <;> simp [h]

/-- Settles O31, by what is found for the frame. -/
theorem uplinkFramesAreTaken : Obligations.UplinkFramesAreTaken := by
  refine ⟨fun s u hq => ⟨fun hl ha => ?_, fun hu => ?_⟩, fun s u x hq hr hl ha => ?_⟩
  · exact taken_settled (c := setUplink u { s.chip.uplink u with receiving := true } s.chip)
      (congrArg (fun r => setUplink u r s.chip) (if_pos (usable_of_link hl ha))) hq
  · exact taken_idle (modUplink_eq_self (if_neg (not_usable_of_link hu))) hq
  · intro r n good
    have hcompl : uplinkCompletion u x s.chip = uplinkFrame u x (setUplink u { r with receiving := false } s.chip) :=
      uplinkCompletion_of_receiving hr (usable_of_link hl ha)
    refine ⟨fun hx => taken_settled (hcompl.trans (uplinkFrame_bad hx)) hq, fun h ch hx hn hf => ?_,
      fun hx hn hf => taken_settled (hcompl.trans (uplinkFrame_unmatched hx hn hf)) hq⟩
    have hfate : uplinkCompletion u x s.chip = frameFate .fromUplink h ch x.length (setUplink u good s.chip) :=
      hcompl.trans (uplinkFrame_matched hx hn hf)
    refine ⟨fun hs hm hcells hl => ?_, fun hs hm hcells hl => ?_, fun hs hm => ?_, fun hs hm hcells h0 => ?_, fun hs => ?_,
      fun hs hm => ?_⟩
    · refine taken_settled ((hfate.trans (frameFate_store _ hs hm hcells)).trans ?_) hq
      exact startLane_of_sending hl
    · obtain ⟨l', hl', he⟩ := startLane_laneSends
        (c := setChannel h (some { ch with down := ch.down ++ [x.length] }) (setUplink u good s.chip)) hl
      exact ⟨l', hl', taken_settled ((hfate.trans (frameFate_store _ hs hm hcells)).trans he) hq⟩
    · exact taken_settled (hfate.trans (frameFate_hold _ hs hm)) hq
    · exact taken_settled (hfate.trans (frameFate_noCell _ hs hm hcells h0)) hq
    · exact taken_settled (hfate.trans (frameFate_bar _ hs)) hq
    · have hk := (Chip.sameButHub_keeps s.chip).frameFate .fromUplink h ch x.length
        (c := setUplink u good s.chip) ((Chip.sameButHub_keeps s.chip).hub _ _ (.refl _))
      obtain ⟨ch', hch', hb, ho⟩ := frameFate_barred (c := setUplink u good s.chip) (h := h) .fromUplink hs hm
      refine ⟨_, ch', taken_settled hfate (hk.quiescent hq), hch', hb.state, hb.holdCause, hb.down, hb.up, hb.granted, ho,
        frameFate_barred_alerted _ hs hm, ?_, fun _ hj => frameFate_barred_ne _ hs hm hj, hk.slots⟩
      refine (frameFate_barred_framesIn (c := setUplink u good s.chip) .fromUplink hs hm u).trans ?_
      rw [uplink_setUplink_self]

/-! ## A frame on a lane (R171) -/

theorem laneCompletion_idle (hs : (c.slot k).state.isCounted = false) : laneCompletion k x c =
    setLane k { c.lane k with counters := { (c.lane k).counters with idleDrops := (c.lane k).counters.idleDrops + 1 } } c := by
  unfold laneCompletion
  rw [hs]
  exact if_pos rfl

theorem laneCompletion_bad (hs : (c.slot k).state.isCounted = true) (hx : x.good = false ∨ 1536 < x.length) :
    laneCompletion k x c =
      setLane k { c.lane k with counters := { (c.lane k).counters with checkErrors := (c.lane k).counters.checkErrors + 1 } } c := by
  unfold laneCompletion
  rw [hs, if_neg (by decide), if_neg (goodFrame_of_bad hx)]
  rfl

/-- R171: a good frame is counted at its lane. -/
abbrev Chip.laneCounted (c : Chip) (k : Fin 16) : Chip :=
  setLane k { c.lane k with counters := { (c.lane k).counters with framesIn := (c.lane k).counters.framesIn + 1 } } c

theorem laneCompletion_matched (hs : (c.slot k).state.isCounted = true) (hx : x.good = true) (hn : x.length ≤ 1536)
    (hf : c.channelFor x.tag (fun ch => decide (ch.slot = k) && ch.granted) = some (h, ch)) :
    laneCompletion k x c = frameFate .fromLane h ch x.length (c.laneCounted k) := by
  unfold laneCompletion
  rw [hs, if_neg (by decide), if_pos (goodFrame_of_good hx hn)]
  have hf' : (c.laneCounted k).channelFor x.tag (fun ch => decide (ch.slot = k) && ch.granted) = some (h, ch) := hf
  show (match (c.laneCounted k).channelFor x.tag (fun ch => decide (ch.slot = k) && ch.granted) with
    | some (h, ch) => frameFate .fromLane h ch x.length (c.laneCounted k)
    | none => _) = _
  rw [hf']

theorem laneCompletion_stray (hs : (c.slot k).state.isCounted = true) (hx : x.good = true) (hn : x.length ≤ 1536)
    (hf : c.channelFor x.tag (fun ch => decide (ch.slot = k) && ch.granted) = none) :
    laneCompletion k x c = setLane k { c.lane k with counters := { (c.lane k).counters with
      framesIn := (c.lane k).counters.framesIn + 1, stray := (c.lane k).counters.stray + 1 } } c := by
  have hf' : (c.laneCounted k).channelFor x.tag (fun ch => decide (ch.slot = k) && ch.granted) = none := hf
  have hstray : countLane k (fun n => { n with stray := n.stray + 1 }) (c.laneCounted k) = setLane k { c.lane k with
      counters := { (c.lane k).counters with
        framesIn := (c.lane k).counters.framesIn + 1, stray := (c.lane k).counters.stray + 1 } } c := by
    simp [countLane, modLane]
  unfold laneCompletion
  rw [hs, if_neg (by decide), if_pos (goodFrame_of_good hx hn), ← hstray]
  show (match (c.laneCounted k).channelFor x.tag (fun ch => decide (ch.slot = k) && ch.granted) with
    | some (h, ch) => _
    | none => countLane k (fun n => { n with stray := n.stray + 1 }) (c.laneCounted k)) = _
  rw [hf']

/-- R172: an idle and usable uplink sends the head of its list. -/
theorem startUplink_eq (u : Fin 2) (c : Chip) : startUplink u c = setUplink u { c.uplink u with
    sending := if (c.uplink u).sending = none ∧ (c.uplink u).link = true ∧ (c.uplink u).admin = true
      then (c.uplink u).egress.head?.map (fun e => .stored e.1) else (c.uplink u).sending } c := by
  unfold startUplink modUplink
  refine congrArg (fun r => setUplink u r c) ?_
  rcases c.uplink u with ⟨link, admin, egress, receiving, counters, sending⟩
  cases sending with
  | some y => simp
  | none => cases egress <;> cases link <;> cases admin <;> rfl

/-- R171: a frame from a lane stored, and the uplink started. -/
theorem storeFrame_fromLane : storeFrame .fromLane h ch n c =
    setUplink ch.active { c.uplink ch.active with
      egress := (c.uplink ch.active).egress ++ [(h, n)]
      sending := if (c.uplink ch.active).sending = none ∧ (c.uplink ch.active).link = true ∧ (c.uplink ch.active).admin = true
        then ((c.uplink ch.active).egress ++ [(h, n)]).head?.map (fun e => .stored e.1) else (c.uplink ch.active).sending }
      (setChannel h (some { ch with up := ch.up ++ [n] }) c) := by
  have hr : (modUplink ch.active (fun r => { r with egress := r.egress ++ [(h, n)] })
      (setChannel h (some { ch with up := ch.up ++ [n] }) c)).uplink ch.active =
      { c.uplink ch.active with egress := (c.uplink ch.active).egress ++ [(h, n)] } := uplink_setUplink_self ..
  show startUplink ch.active _ = _
  rw [startUplink_eq, hr]
  exact setUplink_setUplink ..

/-- Settles O32, by what is found for the frame. -/
theorem laneFramesAreTaken : Obligations.LaneFramesAreTaken := by
  refine ⟨fun s k x hq => ?_, fun s k x h ch hs hx hn hm hst hf => ?_⟩
  · intro r n good found
    refine ⟨fun hs => taken_settled (laneCompletion_idle hs) hq, fun hs hx => taken_settled (laneCompletion_bad hs hx) hq,
      fun hs hx hn => ⟨fun h ch hf hst => ?_, fun hf => taken_settled (laneCompletion_stray hs hx hn hf) hq,
        fun h ch hf hm => ⟨fun hst => ?_, fun hst hcells h0 => ?_, fun hst hcells => ?_⟩⟩⟩
    all_goals have hfate := laneCompletion_matched hs hx hn hf
    · exact taken_settled (hfate.trans (frameFate_bar _ hst)) hq
    · exact taken_settled (hfate.trans (frameFate_hold _ hst hm)) hq
    · exact taken_settled (hfate.trans (frameFate_noCell _ hst hm hcells h0)) hq
    · exact taken_settled (hfate.trans ((frameFate_store _ hst hm hcells).trans storeFrame_fromLane)) hq
  · have hfate := laneCompletion_matched hs hx hn hf
    have hk := (Chip.sameButHub_keeps s.chip).frameFate .fromLane h ch x.length
      (c := s.chip.laneCounted k) ((Chip.sameButHub_keeps s.chip).hub _ _ (.refl _))
    obtain ⟨ch', hch', hb, ho⟩ := frameFate_barred (c := s.chip.laneCounted k) (h := h) .fromLane hst hm
    refine ⟨_, ch', congrArg (fun c => Host.Outcome.next (s.onChip (queueService c))) hfate,
      (queueService_channel ..).trans hch', hb.state, hb.holdCause, hb.down, hb.up, hb.granted, ho,
      (frameFate_barred_alerted _ hst hm).queueService, fun _ hj => (queueService_channel ..).trans ?_,
      (queueService_same _).slots.trans hk.slots⟩
    exact frameFate_barred_ne _ hst hm hj

/-! ## Frames out (R172, R173, R176) -/

/-- R172: the writes of a channel whose frame has left for the uplink. -/
abbrev Channel.sentUp (ch : Channel) : Channel :=
  { ch with
    up := ch.up.tail
    counters := { ch.counters with framesUp := ch.counters.framesUp + 1 } }

abbrev Channel.sentDown (ch : Channel) : Channel :=
  { ch with
    down := ch.down.tail
    counters := { ch.counters with framesDown := ch.counters.framesDown + 1 } }

/-- R172: an uplink whose stored frame has left. -/
abbrev Uplink.sentStored (r : Uplink) : Uplink :=
  { r with
    sending := none
    egress := r.egress.tail
    counters := { r.counters with framesOut := r.counters.framesOut + 1 } }

theorem uplinkTransmitted_stored (hs : (c.uplink u).sending = some (.stored h)) : uplinkTransmitted u c =
    startUplink u (freeing h (modChannel h Channel.sentUp) (setUplink u (c.uplink u).sentStored c)) := by
  simp only [uplinkTransmitted, hs]
  rfl

theorem uplinkTransmitted_detached (hs : (c.uplink u).sending = some (.detached h)) : uplinkTransmitted u c =
    startUplink u (freeing h (modChannel h fun ch => { ch with detachedUp := none })
      (setUplink u { c.uplink u with sending := none } c)) := by
  simp only [uplinkTransmitted, hs]
  rfl

/-- R172: an uplink that has become idle takes the head of its list. -/
theorem startUplink_of_sent {r : Uplink} {y : Option Channel} (hr : r.sending = none) :
    startUplink u (setChannel h y (setUplink u r c)) = setChannel h y (setUplink u { r with
      sending := if r.link && r.admin then r.egress.head?.map (fun e => .stored e.1) else none } c) := by
  have hu : (setChannel h y (setUplink u r c)).uplink u = r := uplink_setUplink_self ..
  rw [startUplink_eq, hu, hr]
  simp only [true_and, Bool.and_eq_true]
  exact congrArg (setChannel h y) (setUplink_setUplink ..)

/-- R164: a channel with a frame of the other direction stays busy. -/
theorem Channel.busy_of_cells {ch : Channel} (h : 0 < cellsOf ch.down ∨ 0 < cellsOf ch.up) : ch.busy = true :=
  decide_eq_true (by
    unfold Channel.cellsInUse
    omega)

/-- R176: a channel that stays busy, or stands on its preferred uplink, stays where it is. -/
theorem freeing_modChannel {f : Channel → Channel} (hc : c.channel h = some ch)
    (hstay : (f ch).busy = true ∨ (f ch).active = (f ch).preferred) :
    freeing h (modChannel h f) c = setChannel h (some (f ch)) c := by
  have hf : (modChannel h f c).channel h = some (f ch) := by rw [modChannel_of_channel hc, channel_setChannel_self]
  rw [← modChannel_of_channel hc]
  rcases hstay with hb | ha
  · exact freeing_of_busy ((channelBusy_of_channel hf).trans hb)
  · exact freeing_of_home hf ha

/-- R176: a channel away from its preferred uplink whose last frame leaves goes back when that uplink is usable. -/
theorem freeing_away {f : Channel → Channel} (hc : c.channel h = some ch) (hb : ch.busy = true) (hn : (f ch).busy = false)
    (ha : (f ch).active ≠ (f ch).preferred) : freeing h (modChannel h f) c = setChannel h (some { f ch with
      active := if (c.uplink (f ch).preferred).link && (c.uplink (f ch).preferred).admin then (f ch).preferred
        else (f ch).active }) c := by
  have hf : (setChannel h (some (f ch)) c).channel h = some (f ch) := channel_setChannel_self ..
  have haway : (f ch).away = true := decide_eq_true ha
  unfold freeing
  simp only [modChannel_of_channel hc]
  rw [if_pos (by rw [channelBusy_of_channel hc, channelBusy_of_channel hf, hb, hn]; rfl), revert, modChannel_of_channel hf,
    setChannel_setChannel, haway, Bool.true_and]
  refine congrArg (fun x => setChannel h (some x) c) ?_
  show (if (c.uplink (f ch).preferred).usable = true then _ else _) = _
  rw [Uplink.usable]
  split <;> rfl

theorem laneTransmitted_stored (hs : (c.lane k).sending = some (.stored h)) : laneTransmitted k c =
    startLane k (freeing h (modChannel h Channel.sentDown) (setLane k { c.lane k with sending := none } c)) := by
  simp only [laneTransmitted, hs]
  rfl

theorem laneTransmitted_detached (hs : (c.lane k).sending = some (.detached h)) : laneTransmitted k c =
    startLane k (freeing h (modChannel h fun ch => { ch with detachedDown := none })
      (setLane k { c.lane k with sending := none } c)) := by
  simp only [laneTransmitted, hs]
  rfl

/-- R173: a lane that has become idle starts what it sends next. -/
theorem startLane_of_sent {y : Option Channel} :
    ∃ l', (setChannel h y c).laneSends k (c.lane k) l' ∧
      startLane k (setChannel h y (setLane k { c.lane k with sending := none } c)) = setLane k l' (setChannel h y c) := by
  have hl : (setChannel h y (setLane k { c.lane k with sending := none } c)).lane k = { c.lane k with sending := none } :=
    lane_setLane_self ..
  obtain ⟨l', hl', he⟩ := startLane_laneSends (c := setChannel h y (setLane k { c.lane k with sending := none } c)) (k := k)
    (by rw [hl])
  rw [hl] at hl'
  exact ⟨l', hl', he.trans (setLane_setLane k _ l' (setChannel h y c))⟩

/-- R164: a channel with one frame, and one with none. -/
theorem cellsInUse_pair {a b : List Nat} (hd : ch.detachedDown = none) (hu : ch.detachedUp = none) (ha : ch.down = a)
    (hb : ch.up = b) : ch.cellsInUse = cellsOf a + cellsOf b := by
  rw [Channel.cellsInUse, hd, hu, ha, hb]
  rfl

theorem cellsOf_singleton_pos (hn : 0 < n) : 0 < cellsOf [n] := by
  have := frameCells_pos_iff.2 hn
  simpa [cellsOf] using this

/-- Settles O33, by the line and by what it has sent. -/
theorem transmitCompletions : Obligations.TransmitCompletions := by
  intro s u k h ch hq hc r l next laneDone
  have lane {y : Option Channel} (he : laneTransmitted k s.chip =
      startLane k (setChannel h y (setLane k { l with sending := none } s.chip))) : laneDone (setChannel h y s.chip) := by
    obtain ⟨l', hl', hs⟩ := startLane_of_sent (c := s.chip) (k := k) (h := h) (y := y)
    exact ⟨l', hl', taken_settled (he.trans hs) hq⟩
  have uplink {y : Option Channel} {r' : Uplink} (hr' : r'.sending = none) (he : uplinkTransmitted u s.chip =
      startUplink u (setChannel h y (setUplink u r' s.chip))) := taken_settled (he.trans (startUplink_of_sent hr')) hq
  have hup {r' : Uplink} : (setUplink u r' s.chip).channel h = some ch := hc
  have hlane {l' : Lane} : (setLane k l' s.chip).channel h = some ch := hc
  refine ⟨fun hs hst => ?_, fun hs hst => ?_, fun hs hst => ?_, fun hs hst => ?_, fun n hn ha hdd hdu => ?_⟩
  · refine uplink (r' := r.sentStored) rfl ((uplinkTransmitted_stored hs).trans (congrArg _ (freeing_modChannel hup ?_)))
    exact hst.imp (fun hd => Channel.busy_of_cells (.inl hd)) id
  · refine uplink (r' := { r with sending := none }) rfl ((uplinkTransmitted_detached hs).trans (congrArg _ (freeing_modChannel hup ?_)))
    exact hst.imp (fun hd => Channel.busy_of_cells (.inl hd)) id
  · refine lane ((laneTransmitted_detached hs).trans (congrArg _ (freeing_modChannel hlane ?_)))
    exact hst.imp (fun hd => Channel.busy_of_cells (.inr hd)) id
  · refine lane ((laneTransmitted_stored hs).trans (congrArg _ (freeing_modChannel hlane ?_)))
    exact hst.imp (fun hd => Channel.busy_of_cells (.inr hd)) id
  · intro back
    have hpos := cellsOf_singleton_pos hn
    refine ⟨fun hs hu hupq hdown => ?_, fun hs hupq hdown => ?_⟩
    · have hb : ch.busy = true := by
        rw [Channel.busy, cellsInUse_pair hdd hdu hdown hupq]
        exact decide_eq_true (by omega)
      have hnb : ch.sentUp.busy = false := by
        rw [Channel.busy, cellsInUse_pair (ch := ch.sentUp) hdd hdu hdown (congrArg List.tail hupq)]
        rfl
      have hback := freeing_away (f := Channel.sentUp) (hup (r' := r.sentStored)) hb hnb ha
      have hv : (setUplink u r.sentStored s.chip).uplink ch.preferred = s.chip.uplink ch.preferred := by
        rw [uplink_setUplink, if_neg (by rw [hu]; exact Ne.symm ha)]
      refine uplink (r' := r.sentStored) rfl ((uplinkTransmitted_stored hs).trans (congrArg _ (hback.trans ?_)))
      simp only [hv, hupq, List.tail_cons]
      rfl
    · have hb : ch.busy = true := by
        rw [Channel.busy, cellsInUse_pair hdd hdu hdown hupq]
        exact decide_eq_true (by omega)
      have hnb : ch.sentDown.busy = false := by
        rw [Channel.busy, cellsInUse_pair (ch := ch.sentDown) hdd hdu (congrArg List.tail hdown) hupq]
        rfl
      have hback := freeing_away (f := Channel.sentDown) (hlane (l' := { l with sending := none })) hb hnb ha
      refine lane ((laneTransmitted_stored hs).trans (congrArg _ (hback.trans ?_)))
      simp only [hdown, List.tail_cons]
      rfl

end Sys2Proof.Machine

/-!
PROOF. Changes of many channels at once: a match's handoff (R160), the loss and the return of an uplink (R168, R174 to R176),
and the definitions of channels (R153, R155).
-/

namespace Sys2Proof.Machine

variable {c : Chip} {h : Fin 32} {ch : Channel} {u : Fin 2}

/-! ## Operations on each of a list of channels -/

theorem mem_channelsWith {p : Channel → Bool} : h ∈ c.channelsWith p ↔ (c.channel h).any p = true := by
  simp [Chip.channelsWith, keys, List.mem_finRange]

theorem nodup_channelsWith (p : Channel → Bool) : (c.channelsWith p).Nodup := (List.nodup_finRange 32).filter _

theorem mem_channelsWith_of {p : Channel → Bool} (hc : c.channel h = some ch) (hp : p ch = true) : h ∈ c.channelsWith p := by
  rw [mem_channelsWith, hc]
  exact hp

theorem not_mem_channelsWith_of {p : Channel → Bool} (hc : c.channel h = some ch) (hp : p ch = false) :
    h ∉ c.channelsWith p := by
  rw [mem_channelsWith, hc]
  simp [hp]

theorem not_mem_channelsWith_of_none {p : Channel → Bool} (hc : c.channel h = none) : h ∉ c.channelsWith p := by
  rw [mem_channelsWith, hc]
  simp

/-- An operation on a channel that leaves every other channel as it is. -/
abbrev OwnChannel (f : Fin 32 → Chip → Chip) : Prop := ∀ h j c, j ≠ h → (f h c).channel j = c.channel j

theorem forEach_cons {α : Type} (f : α → Chip → Chip) (a : α) (l : List α) (c : Chip) :
    forEach (a :: l) f c = forEach l f (f a c) := rfl

theorem forEach_append {α : Type} (f : α → Chip → Chip) (l l' : List α) (c : Chip) :
    forEach (l ++ l') f c = forEach l' f (forEach l f c) := List.foldl_append

/-- A channel outside the list is as it was. -/
theorem channel_forEach_of_not_mem {f : Fin 32 → Chip → Chip} (hf : OwnChannel f) : ∀ {l : List (Fin 32)} {c : Chip},
    h ∉ l → (forEach l f c).channel h = c.channel h
  | [], _, _ => rfl
  | a :: l, c, hl => by
    rw [List.mem_cons, not_or] at hl
    rw [forEach_cons, channel_forEach_of_not_mem hf hl.2, hf a h c hl.1]

/-- A channel of the list is changed once, by a part in which it is as it was and in which what the operation keeps holds. -/
theorem channel_forEach_of_mem {f : Fin 32 → Chip → Chip} (hf : OwnChannel f) {P : Chip → Prop} (hP : ∀ h c, P c → P (f h c))
    {l : List (Fin 32)} (hl : l.Nodup) (hm : h ∈ l) (hc : P c) : ∃ c', P c' ∧ c'.channel h = c.channel h ∧
      (forEach l f c).channel h = (f h c').channel h ∧
      ∀ R : Chip → Prop, (∀ h c, R c → R (f h c)) → R (f h c') → R (forEach l f c) := by
  obtain ⟨l1, l2, rfl⟩ := List.append_of_mem hm
  have hnd := List.nodup_append.1 hl
  obtain ⟨_, hl2, hdisj⟩ := hnd
  have h1 : h ∉ l1 := fun hh => hdisj h hh h List.mem_cons_self rfl
  have h2 : h ∉ l2 := (List.nodup_cons.1 hl2).1
  rw [forEach_append, forEach_cons]
  exact ⟨forEach l1 f c, forEach_keeps _ _ hP _ hc, channel_forEach_of_not_mem hf h1,
    channel_forEach_of_not_mem hf h2, fun R hR hr => forEach_keeps _ _ hR _ hr⟩

/-! ## A match's handoff (R160) -/

theorem matchChannel_own (handles : List (Fin 32)) : OwnChannel (matchChannel handles) := fun h j c hj => by
  unfold matchChannel
  split
  · rfl
  · split
    · rw [channel_setChannel, if_neg hj]
    · extract_lets c1
      have h1 : c1.channel j = c.channel j := by rw [channel_setChannel, if_neg hj]
      split
      · exact ((channel_flush_ne hj).trans (channel_modChannel_ne hj)).trans h1
      · exact h1

/-- R160: a channel whose handle is not in the match is held for its slot when it was in PASS. -/
theorem holdForSlot_of_channel (hc : c.channel h = some ch) : ∃ ch', (holdForSlot h c).channel h = some ch' ∧
    ch'.granted = ch.granted ∧ ch'.state = .hold ∧ ch'.holdCause = some .slot ∧ ch'.down = [] ∧ ch'.up = [] := by
  have hb : (modChannel h (Channel.hold .slot) c).channel h = some (ch.hold .slot) := by
    rw [modChannel_of_channel hc, channel_setChannel_self]
  obtain ⟨u, hu⟩ := channel_flush hb
  exact ⟨_, hu, rfl, rfl, rfl, rfl, rfl⟩

/-- What a match leaves of a channel of its slot. -/
abbrev Channel.Matched (handles : List (Fin 32)) (h : Fin 32) (ch : Channel) (x : Option Channel) : Prop :=
  if ch.granted ∧ ch.state = .pass ∧ h ∉ handles then
    ∃ ch', x = some ch' ∧ ch'.granted = false ∧ ch'.state = .hold ∧ ch'.holdCause = some .slot ∧ ch'.down = [] ∧ ch'.up = []
  else x = some { ch with granted := handles.contains h }

theorem matchChannel_of_channel {handles : List (Fin 32)} (hc : c.channel h = some ch) :
    ch.Matched handles h ((matchChannel handles h c).channel h) := by
  unfold matchChannel
  rw [hc]
  dsimp only
  by_cases hm : h ∈ handles
  · have hcon : handles.contains h = true := by simpa using hm
    rw [Channel.Matched, if_neg (fun hx => hx.2.2 hm), if_pos hcon, hcon]
    exact channel_setChannel_self ..
  · have hcon : handles.contains h = false := by simpa using hm
    have hset : (setChannel h (some { ch with granted := false }) c).channel h = some { ch with granted := false } :=
      channel_setChannel_self ..
    rw [Channel.Matched, hcon, if_neg Bool.false_ne_true]
    by_cases hp : ch.granted = true ∧ ch.state = .pass
    · have hb : (ch.granted && decide (ch.state = .pass)) = true := by simp [hp]
      rw [if_pos ⟨hp.1, hp.2, hm⟩, if_pos hb]
      exact holdForSlot_of_channel hset
    · have hb : ¬ (ch.granted && decide (ch.state = .pass)) = true := by simpa using hp
      rw [if_neg (fun hx => hp ⟨hx.1, hx.2.1⟩), if_neg hb]
      exact hset

/-- Settles O22, channel by channel. -/
theorem matchSetsGrants : Obligations.MatchSetsGrants := by
  intro s k handles
  have hkeeps := Chip.sameButHub_keeps (deliver (.matchHandoff k handles) s.chip)
  have hk := hkeeps.takeMatch k handles (.refl _)
  have hend := queueService_same (takeMatch k handles (deliver (.matchHandoff k handles) s.chip))
  refine ⟨_, rfl, ?_, hend.slots.trans hk.slots, hend.engines.trans hk.engines, fun h => ?_⟩
  · refine (congrArg (fun b : Hub => b.matchOrder.read k) hend.hub).trans ?_
    exact Bank.read_put_self ..
  have hch : ∀ x, ((forEach (s.chip.channelsWith fun ch => decide (ch.slot = k)) (matchChannel handles)
      (deliver (.matchHandoff k handles) s.chip)).channel h = x) →
      (queueService (takeMatch k handles (deliver (.matchHandoff k handles) s.chip))).channel h = x :=
    fun x hx => (queueService_channel ..).trans hx
  have other (hn : h ∉ s.chip.channelsWith fun ch => decide (ch.slot = k)) :=
    hch _ (channel_forEach_of_not_mem (c := deliver (.matchHandoff k handles) s.chip) (matchChannel_own handles) hn)
  cases hc : s.chip.channel h with
  | none => exact (other (not_mem_channelsWith_of_none hc)).trans hc
  | some ch =>
    dsimp only
    split
    · rename_i hslot
      exact (other (not_mem_channelsWith_of hc (decide_eq_false hslot))).trans hc
    · rename_i hslot
      rw [not_not] at hslot
      obtain ⟨c', _, hc', hf, _⟩ := channel_forEach_of_mem (c := deliver (.matchHandoff k handles) s.chip)
        (matchChannel_own handles) (P := fun _ => True) (fun _ _ _ => trivial) (nodup_channelsWith _)
        (mem_channelsWith_of (p := fun ch => decide (ch.slot = k)) hc (decide_eq_true hslot)) trivial
      have hm := matchChannel_of_channel (handles := handles) (hc'.trans hc)
      rw [← hf, ← hch _ rfl] at hm
      exact hm

/-! ## The loss of an uplink (R174) -/

theorem uplink_modChannel (f : Channel → Channel) : (modChannel h f c).uplink u = c.uplink u := rfl
theorem uplink_raise (o : AlertObject) (x : Cause) : (raise o x c).uplink u = c.uplink u := rfl

/-- R174 step 1: an uplink that is lost has its lists emptied; its pins and its reception stay. -/
theorem uplink_discardEgress : ∃ n, (discardEgress u c).uplink u =
    { c.uplink u with egress := [], sending := none, counters := n } := by
  have hP : ∀ (e : Fin 32 × Nat) (c' : Chip), (∃ n, c'.uplink u = { c.uplink u with counters := n }) →
      ∃ n, (discardEntry u e c').uplink u = { c.uplink u with counters := n } := fun e c' ⟨n, hn⟩ => by
    refine ⟨{ n with flushed := n.flushed + 1 }, ?_⟩
    refine (uplink_setUplink_self ..).trans ?_
    rw [uplink_modChannel, hn]
  unfold discardEgress
  extract_lets r c1 c2
  obtain ⟨n, hn⟩ : ∃ n, c1.uplink u = { c.uplink u with counters := n } :=
    forEach_keeps (P := fun c' => ∃ n, c'.uplink u = { c.uplink u with counters := n }) _ _ hP _ ⟨_, rfl⟩
  have h2 : c2.uplink u = c1.uplink u := by
    show (match r.sending with | some (.detached i) => modChannel i _ c1 | _ => c1).uplink u = _
    split <;> rfl
  refine ⟨n, (uplink_setUplink_self ..).trans ?_⟩
  rw [h2, hn]

theorem uplink_discardEgress_ne {v : Fin 2} (hv : v ≠ u) : (discardEgress u c).uplink v = c.uplink v := by
  have hP : ∀ (e : Fin 32 × Nat) (c' : Chip), c'.uplink v = c.uplink v → (discardEntry u e c').uplink v = c.uplink v :=
    fun e c' hn => by
      show (setUplink u _ _).uplink v = _
      rw [uplink_setUplink, if_neg hv]
      exact hn
  unfold discardEgress
  extract_lets r c1 c2
  have h1 : c1.uplink v = c.uplink v := forEach_keeps (P := fun c' => c'.uplink v = c.uplink v) _ _ hP _ rfl
  have h2 : c2.uplink v = c1.uplink v := by
    show (match r.sending with | some (.detached i) => modChannel i _ c1 | _ => c1).uplink v = _
    split <;> rfl
  show (setUplink u _ c2).uplink v = _
  rw [uplink_setUplink, if_neg hv, h2, h1]

/-- A record that differs in its queues and counts at most. -/
abbrev Channel.Stands (ch ch' : Channel) : Prop :=
  ch'.active = ch.active ∧ ch'.state = ch.state ∧ ch'.fallback = ch.fallback

/-- The record of a handle stands as it did. -/
abbrev Chip.stands (h : Fin 32) (ch : Channel) (c : Chip) : Prop := ∃ ch', c.channel h = some ch' ∧ ch.Stands ch'

theorem stands_modChannel {f : Channel → Channel} {j : Fin 32} (hf : ∀ ch : Channel, ch.Stands (f ch))
    (hc : c.stands h ch) : (modChannel j f c).stands h ch := by
  obtain ⟨ch', hch', ha, hs, hb⟩ := hc
  by_cases hj : h = j
  · subst hj
    obtain ⟨ha', hs', hb'⟩ := hf ch'
    exact ⟨f ch', by rw [modChannel_of_channel hch', channel_setChannel_self], ha'.trans ha, hs'.trans hs, hb'.trans hb⟩
  · exact ⟨ch', (channel_modChannel_ne hj).trans hch', ha, hs, hb⟩

/-- R174 step 1: the discarding of a lost uplink's frames moves no channel. -/
theorem stands_discardEgress (hc : c.channel h = some ch) : (discardEgress u c).stands h ch := by
  unfold discardEgress
  extract_lets r c1 c2
  have h1 : c1.stands h ch := forEach_keeps (P := Chip.stands h ch) _ _
    (fun e c' hc' => stands_modChannel (j := e.1) (c := c')
      (f := fun ch => { ch with up := ch.up.tail, counters := countFlushed 1 ch.counters }) (fun _ => ⟨rfl, rfl, rfl⟩) hc') _
    ⟨ch, hc, rfl, rfl, rfl⟩
  have h2 : c2.stands h ch := by
    show (match r.sending with | some (.detached i) => modChannel i _ c1 | _ => c1).stands h ch
    split
    · exact stands_modChannel (fun _ => ⟨rfl, rfl, rfl⟩) h1
    · exact h1
  exact h2

theorem failOver_own : OwnChannel failOver := fun h _ c hj => channel_modChannel_ne (h := h) (c := c) hj
theorem holdForUplink_own : OwnChannel holdForUplink := fun h _ c hj => channel_modChannel_ne (h := h) (c := c) hj

theorem failOver_of_channel (hc : c.channel h = some ch) :
    (failOver h c).channel h = some { ch with active := otherUplink ch.active } := by
  show (modChannel h _ c).channel h = _
  rw [modChannel_of_channel hc, channel_setChannel_self]

theorem holdForUplink_of_channel (hc : c.channel h = some ch) :
    (holdForUplink h c).channel h = some (ch.hold .uplink) := by
  show (modChannel h _ c).channel h = _
  rw [modChannel_of_channel hc, channel_setChannel_self]

theorem otherUplink_ne (u : Fin 2) : otherUplink u ≠ u := by
  fin_cases u <;> decide

/-- The channels in PASS on an uplink that a loss moves, and those that it holds. -/
abbrev Chip.movedFrom (c : Chip) (u : Fin 2) (moves : Bool) : List (Fin 32) :=
  c.channelsWith fun ch => decide (ch.active = u ∧ ch.state = .pass) && (if moves then c.failsOver ch else !c.failsOver ch)

theorem uplinkLoss_eq (u : Fin 2) (c : Chip) : uplinkLoss u c = raise (.uplink u) .linkDown
    (forEach ((discardEgress u c).movedFrom u false) holdForUplink
      (forEach ((discardEgress u c).movedFrom u true) failOver (discardEgress u c))) := rfl

/-- R174: the uplinks after a loss are those after its first step. -/
theorem uplink_uplinkLoss {v : Fin 2} : (uplinkLoss u c).uplink v = (discardEgress u c).uplink v := by
  rw [uplinkLoss_eq]
  refine forEach_keeps (P := fun c' => c'.uplink v = (discardEgress u c).uplink v) _ holdForUplink (fun _ _ hx => hx) _ ?_
  exact forEach_keeps (P := fun c' => c'.uplink v = (discardEgress u c).uplink v) _ failOver (fun _ _ hx => hx) _ rfl

theorem uplinkLoss_alerted : (uplinkLoss u c).alerted (.uplink u) .linkDown := by
  rw [uplinkLoss_eq]
  exact alerted_raise _ _ _

/-- R174: a channel in PASS on the lost uplink, moved or held. -/
theorem uplinkLoss_of_channel (hc : c.channel h = some ch) (ha : ch.active = u) (hs : ch.state = .pass) :
    ∃ ch', (uplinkLoss u c).channel h = some ch' ∧
      if ch.fallback = true ∧ c.usable (otherUplink u) = true then
        ch'.state = .pass ∧ ch'.active = otherUplink u ∧ (uplinkLoss u c).alerted (.channel h) .failover
      else ch'.state = .hold ∧ ch'.holdCause = some .uplink ∧ ch'.active = u ∧
        (uplinkLoss u c).alerted (.channel h) .uplinkHold := by
  obtain ⟨ch1, hc1, ha1, hs1, hf1⟩ := stands_discardEgress (u := u) hc
  have husable : (discardEgress u c).usable (otherUplink u) = c.usable (otherUplink u) :=
    congrArg Uplink.usable (uplink_discardEgress_ne (otherUplink_ne u))
  have hfails : (discardEgress u c).failsOver ch1 = (ch.fallback && c.usable (otherUplink u)) := by
    rw [Chip.failsOver, hf1, ha1, ha, husable]
  have hpass : decide (ch1.active = u ∧ ch1.state = .pass) = true := decide_eq_true ⟨ha1.trans ha, hs1.trans hs⟩
  rw [uplinkLoss_eq]
  by_cases hmove : ch.fallback = true ∧ c.usable (otherUplink u) = true
  · have hb : (discardEgress u c).failsOver ch1 = true := by rw [hfails, hmove.1, hmove.2]; rfl
    have hin : h ∈ (discardEgress u c).movedFrom u true := mem_channelsWith_of hc1 (by rw [hpass, hb]; rfl)
    have hout : h ∉ (discardEgress u c).movedFrom u false := not_mem_channelsWith_of hc1 (by rw [hpass, hb]; rfl)
    obtain ⟨c', _, hc', hf, hR⟩ := channel_forEach_of_mem failOver_own (P := fun _ => True) (fun _ _ _ => trivial)
      (nodup_channelsWith _) hin trivial
    refine ⟨_, (channel_forEach_of_not_mem holdForUplink_own hout).trans
      (hf.trans (failOver_of_channel (hc'.trans hc1))), ?_⟩
    rw [if_pos hmove]
    have halert := hR (fun c => c.alerted (.channel h) .failover)
      (fun i c' hx => (Chip.alerted_keeps _ _).toHubKeeps.failOver i hx) (alerted_raise _ _ _)
    exact ⟨hs1.trans hs, congrArg otherUplink (ha1.trans ha), (Chip.alerted_keeps _ _).raise _ _ _
      (forEach_keeps (P := fun c => c.alerted (.channel h) .failover) ((discardEgress u c).movedFrom u false) holdForUplink
        (fun i c' hx => (Chip.alerted_keeps _ _).toHubKeeps.holdForUplink i hx) _ halert)⟩
  · have hb : (discardEgress u c).failsOver ch1 = false := by
      rw [hfails]
      simpa using hmove
    have hout : h ∉ (discardEgress u c).movedFrom u true := not_mem_channelsWith_of hc1 (by rw [hb]; simp)
    have hin : h ∈ (discardEgress u c).movedFrom u false := mem_channelsWith_of hc1 (by rw [hpass, hb]; rfl)
    have hc2 := (channel_forEach_of_not_mem failOver_own (c := discardEgress u c) hout).trans hc1
    obtain ⟨c', _, hc', hf, hR⟩ := channel_forEach_of_mem holdForUplink_own (P := fun _ => True) (fun _ _ _ => trivial)
      (nodup_channelsWith _) hin trivial
    refine ⟨_, hf.trans (holdForUplink_of_channel (hc'.trans hc2)), ?_⟩
    rw [if_neg hmove]
    exact ⟨rfl, rfl, ha1.trans ha, (Chip.alerted_keeps _ _).raise _ _ _ (hR (fun c => c.alerted (.channel h) .uplinkHold)
      (fun i c' hx => (Chip.alerted_keeps _ _).toHubKeeps.holdForUplink i hx) (alerted_raise _ _ _))⟩

/-! ## The return of an uplink (R175, R176) -/

theorem passOn_own (u : Fin 2) : OwnChannel fun h => modChannel h (Channel.passOn u) :=
  fun h _ c hj => channel_modChannel_ne (h := h) (c := c) hj

/-- R175 step 2, for one channel. -/
def takeOver (u : Fin 2) (h : Fin 32) (c : Chip) : Chip := c |> modChannel h (Channel.passOn u) |> raise (.channel h) .failover

theorem takeOver_own (u : Fin 2) : OwnChannel (takeOver u) := fun h _ c hj => channel_modChannel_ne (h := h) (c := c) hj

theorem revert_own : OwnChannel revert := fun h _ c hj => channel_modChannel_ne (h := h) (c := c) hj

theorem passOn_of_channel (hc : c.channel h = some ch) : (modChannel h (Channel.passOn u) c).channel h = some (ch.passOn u) := by
  rw [modChannel_of_channel hc, channel_setChannel_self]

/-- The uplinks, the slots and what the return of an uplink asks of them. -/
abbrev Chip.SamePins (c c' : Chip) : Prop := c'.hub.uplinks = c.hub.uplinks ∧ c'.slots = c.slots

theorem samePins_lift (c : Chip) (u : Fin 2) : c.SamePins (liftChannels u c) :=
  forEach_keeps (P := c.SamePins) _ (fun h => modChannel h (Channel.passOn u)) (fun _ _ hx => hx) _ ⟨rfl, rfl⟩

theorem samePins_takeOver (c : Chip) (u : Fin 2) : c.SamePins (takeOverChannels u c) :=
  ite_keeps (P := c.SamePins) ⟨rfl, rfl⟩ (forEach_keeps (P := c.SamePins) _ (takeOver u) (fun _ _ hx => hx) _ ⟨rfl, rfl⟩)

theorem samePins_revert (c : Chip) (u : Fin 2) : c.SamePins (revertChannels u c) :=
  forEach_keeps (P := c.SamePins) _ revert (fun _ _ hx => hx) _ ⟨rfl, rfl⟩

theorem Chip.SamePins.trans {c c' c'' : Chip} (h : c.SamePins c') (h' : c'.SamePins c'') : c.SamePins c'' :=
  ⟨h'.1.trans h.1, h'.2.trans h.2⟩

theorem samePins_uplinkReturn (c : Chip) (u : Fin 2) : c.SamePins (uplinkReturn u c) :=
  ((samePins_lift c u).trans (samePins_takeOver _ u)).trans (samePins_revert _ u)

theorem Chip.SamePins.usable {c c' : Chip} (h : c.SamePins c') (u : Fin 2) : c'.usable u = c.usable u :=
  congrArg (fun b : Bank 2 Uplink => (b.read u).usable) h.1

theorem Chip.SamePins.liftable {c c' : Chip} (h : c.SamePins c') (ch : Channel) : c'.liftable ch = c.liftable ch := by
  have hs : c'.slot ch.slot = c.slot ch.slot := congrArg (fun b : Bank 16 Slot => b.read ch.slot) h.2
  rw [Chip.liftable, Chip.liftable, Chip.mayCarry, Chip.mayCarry, hs]

/-- R175 step 1: the channels that the return lifts where they stand. -/
theorem liftChannels_of_channel (hc : c.channel h = some ch) : (liftChannels u c).channel h =
    some (if c.liftable ch = true ∧ ch.active = u then ch.passOn u else ch) := by
  split
  · rename_i hl
    obtain ⟨c', _, hc', hf, _⟩ := channel_forEach_of_mem (passOn_own u) (P := fun _ => True) (fun _ _ _ => trivial)
      (nodup_channelsWith (fun ch => c.liftable ch && decide (ch.active = u)))
      (mem_channelsWith_of hc (by simp [hl])) trivial
    exact hf.trans (passOn_of_channel (hc'.trans hc))
  · rename_i hl
    exact (channel_forEach_of_not_mem (passOn_own u) (not_mem_channelsWith_of hc (by simpa using hl))).trans hc

/-- R175 step 2: the channels that the return takes over. -/
theorem takeOverChannels_of_channel (hc : c.channel h = some ch) : (takeOverChannels u c).channel h =
    some (if c.usable (otherUplink u) = false ∧ c.liftable ch = true ∧ ch.active ≠ u ∧ ch.fallback = true then ch.passOn u
      else ch) := by
  unfold takeOverChannels
  by_cases hu : c.usable (otherUplink u) = true
  · rw [if_pos hu, if_neg (by simp [hu])]
    exact hc
  · rw [if_neg hu]
    show (forEach _ (takeOver u) c).channel h = _
    split
    · rename_i hl
      obtain ⟨c', _, hc', hf, _⟩ := channel_forEach_of_mem (takeOver_own u) (P := fun _ => True) (fun _ _ _ => trivial)
        (nodup_channelsWith (fun ch => c.liftable ch && decide (ch.active ≠ u) && ch.fallback))
        (mem_channelsWith_of hc (by simp [hl])) trivial
      exact hf.trans (passOn_of_channel (hc'.trans hc))
    · rename_i hl
      refine (channel_forEach_of_not_mem (takeOver_own u) (not_mem_channelsWith_of hc ?_)).trans hc
      rw [Bool.not_eq_true] at hu
      simpa [hu, and_assoc] using hl

theorem takeOverChannels_alerted (hc : c.channel h = some ch) (hu : c.usable (otherUplink u) = false)
    (hl : c.liftable ch = true) (ha : ch.active ≠ u) (hf : ch.fallback = true) :
    (takeOverChannels u c).alerted (.channel h) .failover := by
  unfold takeOverChannels
  rw [hu, if_neg (by decide)]
  obtain ⟨c', _, _, _, hR⟩ := channel_forEach_of_mem (takeOver_own u) (P := fun _ => True) (fun _ _ _ => trivial)
    (nodup_channelsWith (fun ch => c.liftable ch && decide (ch.active ≠ u) && ch.fallback))
    (mem_channelsWith_of hc (by simp [hl, ha, hf])) trivial
  exact hR (fun c => c.alerted (.channel h) .failover) (fun i c' hx => hx.raise _ _) (alerted_raise _ _ _)

/-- R175 step 3, R176: the channels that come back. -/
theorem revertChannels_of_channel (hc : c.channel h = some ch) (hu : c.usable u = true) : (revertChannels u c).channel h =
    some (if ch.preferred = u ∧ ch.active ≠ u ∧ ch.busy = false then { ch with active := u } else ch) := by
  split
  · rename_i hl
    obtain ⟨hp, ha, hb⟩ := hl
    obtain ⟨c', hpins, hc', hf, _⟩ := channel_forEach_of_mem revert_own (P := c.SamePins) (fun _ _ hx => hx)
      (nodup_channelsWith (fun ch => decide (ch.preferred = u ∧ ch.active ≠ u) && !ch.busy))
      (mem_channelsWith_of hc (by simp [hp, ha, hb])) ⟨rfl, rfl⟩
    have hgo : (ch.away && c'.usable ch.preferred) = true := by
      rw [hp, hpins.usable, hu, Channel.away, hp, decide_eq_true ha]
      rfl
    refine hf.trans ?_
    rw [revert, modChannel_of_channel (hc'.trans hc), channel_setChannel_self, if_pos hgo, hp]
  · rename_i hl
    refine (channel_forEach_of_not_mem revert_own (not_mem_channelsWith_of hc ?_)).trans hc
    simpa [and_assoc] using hl

/-! ## Changes of a pin (R168) -/

theorem usable_modUplink (f : Uplink → Uplink) : (modUplink u f c).usable u = (f (c.uplink u)).usable :=
  congrArg Uplink.usable (uplink_setUplink_self ..)

theorem changeUplink_loss {f : Uplink → Uplink} (hu : (c.uplink u).usable = true) (hf : (f (c.uplink u)).usable = false) :
    changeUplink u f c = uplinkLoss u (modUplink u f c) := by
  have hbefore : c.usable u = true := hu
  have hafter : (modUplink u f c).usable u = false := (usable_modUplink f).trans hf
  simp [changeUplink, hbefore, hafter]

theorem changeUplink_return {f : Uplink → Uplink} (hu : (c.uplink u).usable = false) (hf : (f (c.uplink u)).usable = true) :
    changeUplink u f c = uplinkReturn u (modUplink u f c) := by
  have hbefore : c.usable u = false := hu
  have hafter : (modUplink u f c).usable u = true := (usable_modUplink f).trans hf
  simp [changeUplink, hbefore, hafter]

theorem changeUplink_same {f : Uplink → Uplink} (hf : (f (c.uplink u)).usable = (c.uplink u).usable) :
    changeUplink u f c = modUplink u f c := by
  have hafter : (modUplink u f c).usable u = c.usable u := (usable_modUplink f).trans hf
  unfold changeUplink
  simp only [hafter]
  rw [if_neg (by simp), if_neg (by simp)]

theorem linkChanged_of_ne {level : Bool} (h : (c.uplink u).link ≠ level) :
    linkChanged u level c = changeUplink u (fun r => { r with link := level, receiving := r.receiving && level }) c := if_neg h

/-- UPL_LINK_CHANGE that takes a usable uplink down. -/
theorem linkChanged_loss (hl : (c.uplink u).link = true) (ha : (c.uplink u).admin = true) : linkChanged u false c =
    uplinkLoss u (setUplink u { c.uplink u with link := false, receiving := false } c) := by
  rw [linkChanged_of_ne (by simp [hl]), changeUplink_loss (usable_of_link hl ha) rfl, modUplink, Bool.and_false]

theorem linkChanged_return (hl : (c.uplink u).link = false) (ha : (c.uplink u).admin = true) : linkChanged u true c =
    uplinkReturn u (setUplink u { c.uplink u with link := true } c) := by
  rw [linkChanged_of_ne (by simp [hl]), changeUplink_return (by simp [Uplink.usable, hl]) (usable_of_link rfl ha), modUplink,
    Bool.and_true]

theorem lift_unmoved (hc : c.channel h = some ch) (ha : ch.active ≠ u) : (liftChannels u c).channel h = some ch :=
  (liftChannels_of_channel (u := u) hc).trans (by rw [if_neg (by simp [ha])])

section

variable {c : Chip} (hu : c.usable u = true)
include hu

/-- R175 step 1: a channel held for UPLINK that may carry traffic passes again where it stands. -/
theorem uplinkReturn_lifts (hc : c.channel h = some ch) (hl : c.liftable ch = true) (ha : ch.active = u) :
    (uplinkReturn u c).channel h = some (ch.passOn u) := by
  have h1 := (liftChannels_of_channel (u := u) hc).trans (by rw [if_pos ⟨hl, ha⟩])
  have hn : (liftChannels u c).liftable (ch.passOn u) = false := by simp [Chip.liftable, Channel.passOn]
  have h2 := (takeOverChannels_of_channel (u := u) h1).trans (by rw [hn, if_neg (by simp)])
  have hu2 : (takeOverChannels u (liftChannels u c)).usable u = true :=
    (((samePins_lift c u).trans (samePins_takeOver _ u)).usable u).trans hu
  exact (revertChannels_of_channel h2 hu2).trans (by rw [if_neg (by simp [Channel.passOn])])

/-- R175 step 2: with the other uplink lost, a channel held for UPLINK there that may fall back is taken over. -/
theorem uplinkReturn_takesOver (hc : c.channel h = some ch) (hl : c.liftable ch = true) (ha : ch.active ≠ u)
    (hf : ch.fallback = true) (ho : c.usable (otherUplink u) = false) :
    (uplinkReturn u c).channel h = some (ch.passOn u) ∧ (uplinkReturn u c).alerted (.channel h) .failover := by
  have h1 := lift_unmoved hc ha
  have hl1 : (liftChannels u c).liftable ch = true := ((samePins_lift c u).liftable ch).trans hl
  have ho1 : (liftChannels u c).usable (otherUplink u) = false := ((samePins_lift c u).usable _).trans ho
  have h2 := (takeOverChannels_of_channel (u := u) h1).trans (by rw [if_pos ⟨ho1, hl1, ha, hf⟩])
  have hu2 : (takeOverChannels u (liftChannels u c)).usable u = true :=
    (((samePins_lift c u).trans (samePins_takeOver _ u)).usable u).trans hu
  refine ⟨(revertChannels_of_channel h2 hu2).trans (by rw [if_neg (by simp [Channel.passOn])]), ?_⟩
  exact (Chip.alerted_keeps _ _).raise _ _ _ (forEach_keeps (P := fun c => c.alerted (.channel h) .failover) _ revert
    (fun i c' hx => (Chip.alerted_keeps _ _).toHubKeeps.revert i hx) _ (takeOverChannels_alerted h1 ho1 hl1 ha hf))

/-- A channel that stands elsewhere, and that the return neither lifts nor takes over, comes back alone. -/
theorem uplinkReturn_reverts (hc : c.channel h = some ch) (ha : ch.active ≠ u)
    (hl : c.liftable ch = false ∨ ch.fallback = false) : (uplinkReturn u c).channel h =
      some (if ch.preferred = u ∧ ch.active ≠ u ∧ ch.busy = false then { ch with active := u } else ch) := by
  have h1 := lift_unmoved hc ha
  have h2 := (takeOverChannels_of_channel (u := u) h1).trans (by
    rw [(samePins_lift c u).liftable ch, if_neg (by rcases hl with hl | hl <;> simp [hl])])
  have hu2 : (takeOverChannels u (liftChannels u c)).usable u = true :=
    (((samePins_lift c u).trans (samePins_takeOver _ u)).usable u).trans hu
  exact revertChannels_of_channel h2 hu2

end

theorem liftable_of_held (hs : ch.state = .hold) (hh : ch.holdCause = some .uplink) (hg : ch.granted = true)
    (hk : (c.slot ch.slot).state.isCounted = true) : c.liftable ch = true := by
  simp [Chip.liftable, Chip.mayCarry, hs, hh, hg, hk]

theorem not_liftable_of_not_carrying (h : ch.granted = false ∨ (c.slot ch.slot).state.isCounted = false) :
    c.liftable ch = false := by
  rcases h with h | h <;> simp [Chip.liftable, Chip.mayCarry, h]

/-- Settles O34, by the level and by where a channel stands. -/
theorem linkChangesMoveChannels : Obligations.LinkChangesMoveChannels := by
  refine ⟨fun s u hl ha => ?loss, fun s u hl => ⟨fun ha => ?lifts, fun ha ho => ?takesOver, fun ha => ?reverts,
    fun hq ha => ?disabledUp⟩, fun s u hq hl ha => ?disabledDown⟩
  case loss =>
    have hk := (Chip.sameButHub_keeps s.chip).linkChanged u false (.refl _)
    rw [linkChanged_loss hl ha] at hk
    obtain ⟨n, hn⟩ := uplink_discardEgress (u := u)
      (c := setUplink u { s.chip.uplink u with link := false, receiving := false } s.chip)
    rw [← uplink_uplinkLoss, uplink_setUplink_self] at hn
    have hup := (queueService_uplink (uplinkLoss u _) u).trans hn
    have hend := queueService_same (uplinkLoss u
      (setUplink u { s.chip.uplink u with link := false, receiving := false } s.chip))
    refine ⟨_, congrArg (fun c => Host.Outcome.next (s.onChip (queueService c))) (linkChanged_loss hl ha),
      uplinkLoss_alerted.queueService, congrArg Uplink.link hup, congrArg Uplink.receiving hup, congrArg Uplink.egress hup,
      congrArg Uplink.sending hup, hend.slots.trans hk.slots, hend.engines.trans hk.engines, fun h ch hc hact hs => ?_⟩
    obtain ⟨ch', hch', hm⟩ := uplinkLoss_of_channel
      (c := setUplink u { s.chip.uplink u with link := false, receiving := false } s.chip) hc hact hs
    refine ⟨ch', (queueService_channel ..).trans hch', ?_⟩
    have hother : (setUplink u { s.chip.uplink u with link := false, receiving := false } s.chip).usable (otherUplink u) =
        s.chip.usable (otherUplink u) := by
      rw [Chip.usable, uplink_setUplink, if_neg (otherUplink_ne u)]
      rfl
    rw [hother] at hm
    split
    · rename_i hmove
      rw [if_pos hmove] at hm
      exact ⟨hm.1, hm.2.1, hm.2.2.queueService⟩
    · rename_i hmove
      rw [if_neg hmove] at hm
      exact ⟨hm.1, hm.2.1, hm.2.2.1, hm.2.2.2.queueService⟩
  case disabledUp =>
    have hsame := changeUplink_same (c := s.chip) (u := u)
      (f := fun r => { r with link := true, receiving := r.receiving && true }) (by simp [Uplink.usable, ha, hl])
    refine taken_settled (((linkChanged_of_ne (by simp [hl])).trans hsame).trans ?_) hq
    rw [modUplink, Bool.and_true]
  case disabledDown =>
    have hsame := changeUplink_same (c := s.chip) (u := u)
      (f := fun r => { r with link := false, receiving := r.receiving && false }) (by simp [Uplink.usable, ha])
    refine taken_settled (((linkChanged_of_ne (by simp [hl])).trans hsame).trans ?_) hq
    rw [modUplink, Bool.and_false]
  all_goals
    have hu : (setUplink u { s.chip.uplink u with link := true } s.chip).usable u = true := by
      rw [Chip.usable, uplink_setUplink_self]
      exact usable_of_link rfl ha
    have hx := congrArg (fun c => (Host.Outcome.next (s.onChip (queueService c)) : Result)) (linkChanged_return hl ha)
  case lifts =>
    have hpins := samePins_uplinkReturn (setUplink u { s.chip.uplink u with link := true } s.chip) u
    refine ⟨_, hx, (alerted_raise (.uplink u) .linkUp _).queueService, ?_,
      (queueService_same _).slots.trans hpins.2, fun h ch hc hact hs hh hg hk => ?_⟩
    · refine (congrArg Uplink.link (queueService_uplink _ u)).trans ?_
      refine (congrArg (fun b : Bank 2 Uplink => (b.read u).link) hpins.1).trans ?_
      exact congrArg Uplink.link (uplink_setUplink_self ..)
    · refine (queueService_channel ..).trans ((uplinkReturn_lifts hu hc (liftable_of_held hs hh hg hk) hact).trans ?_)
      rw [Channel.passOn, ← hact]
  case takesOver =>
    refine ⟨_, hx, (alerted_raise (.uplink u) .linkUp _).queueService, fun h ch hc hact hs hh =>
      ⟨fun hf hg hk => ?_, fun hn hp => ?_⟩⟩
    · have hother : (setUplink u { s.chip.uplink u with link := true } s.chip).usable (otherUplink u) = false := by
        rw [Chip.usable, uplink_setUplink, if_neg (otherUplink_ne u)]
        exact Bool.not_eq_true _ ▸ not_usable_of_link ho
      obtain ⟨hch, halert⟩ := uplinkReturn_takesOver hu hc (liftable_of_held hs hh hg hk) hact hf hother
      exact ⟨(queueService_channel ..).trans hch, halert.queueService⟩
    · have hl' : (setUplink u { s.chip.uplink u with link := true } s.chip).liftable ch = false ∨ ch.fallback = false :=
        hn.symm.imp (not_liftable_of_not_carrying (c := setUplink u { s.chip.uplink u with link := true } s.chip)) id
      refine (queueService_channel ..).trans ((uplinkReturn_reverts hu hc hact hl').trans ?_)
      rw [if_neg (fun hx => hp hx.1)]
  case reverts =>
    refine ⟨_, hx, fun h ch hc hs hact hp => (queueService_channel ..).trans ?_⟩
    have hl' : (setUplink u { s.chip.uplink u with link := true } s.chip).liftable ch = false := by
      simp [Chip.liftable, hs]
    refine (uplinkReturn_reverts hu hc hact (.inl hl')).trans ?_
    cases hb : ch.busy <;> simp [hp, hact]

/-! ## ENABLE, DISABLE and RESTART (R168, R184) -/

/-- An uplink after its admin field was written. -/
theorem adminOrder_same {admin : Bool} (h : (c.uplink u).link = false ∨ (c.uplink u).admin = admin) :
    adminOrder u admin c = (setUplink u { c.uplink u with admin := admin } c, .ok) := by
  refine congrArg (fun c => (c, Status.ok)) (changeUplink_same ?_)
  rcases h with h | h <;> simp [Uplink.usable, h]

/-- R168: DISABLE of a usable uplink loses it. -/
theorem adminOrder_loss (hl : (c.uplink u).link = true) (ha : (c.uplink u).admin = true) :
    adminOrder u false c = (uplinkLoss u (setUplink u { c.uplink u with admin := false } c), .ok) :=
  congrArg (fun c => (c, Status.ok)) (changeUplink_loss (usable_of_link hl ha) (by simp [Uplink.usable]))

/-- R168: ENABLE of an uplink whose link is up returns it. -/
theorem adminOrder_return (hl : (c.uplink u).link = true) (ha : (c.uplink u).admin = false) :
    adminOrder u true c = (uplinkReturn u (setUplink u { c.uplink u with admin := true } c), .ok) :=
  congrArg (fun c => (c, Status.ok)) (changeUplink_return (by simp [Uplink.usable, ha]) (usable_of_link hl rfl))

/-- R168: a write of the admin field that changes what is usable, answered. -/
theorem adminOrder_changes {s : State} {i : Instr} {admin : Bool} (hq : s.chip.quiescent) (ht : s.chip.takes i)
    (hl : (s.chip.uplink u).link = true) (ha : (s.chip.uplink u).admin = !admin) : ∃ t, takenOrder i (adminOrder u admin) s = .next t ∧
      (t.chip.uplink u).admin = admin ∧ t.chip.alerted (.uplink u) (if admin then .linkUp else .linkDown) ∧
      t.chip.port.response = some (answerMessage i { status := .ok, result := [] }) := by
  have hk := (Chip.sameButHub_keeps (s.chip.opened i)).changeUplink u (fun r => { r with admin := admin }) (.refl _)
  refine ⟨_, takenOrder_hub ht hq rfl hk, ?_, ?_, rfl⟩
  · show ((adminOrder u admin (s.chip.opened i)).1.uplink u).admin = admin
    cases admin with
    | true =>
      rw [adminOrder_return (c := s.chip.opened i) hl ha]
      have hpins := samePins_uplinkReturn
        (setUplink u { (s.chip.opened i).uplink u with admin := true } (s.chip.opened i)) u
      refine (congrArg (fun b : Bank 2 Uplink => (b.read u).admin) hpins.1).trans ?_
      exact congrArg Uplink.admin (uplink_setUplink_self ..)
    | false =>
      rw [adminOrder_loss (c := s.chip.opened i) hl ha, uplink_uplinkLoss]
      obtain ⟨n, hn⟩ := uplink_discardEgress (u := u)
        (c := setUplink u { (s.chip.opened i).uplink u with admin := false } (s.chip.opened i))
      rw [hn, uplink_setUplink_self]
  · show (adminOrder u admin (s.chip.opened i)).1.alerted _ _
    cases admin with
    | true =>
      rw [adminOrder_return (c := s.chip.opened i) hl ha]
      exact alerted_raise _ _ _
    | false =>
      rw [adminOrder_loss (c := s.chip.opened i) hl ha]
      exact uplinkLoss_alerted

/-- Settles O54, order by order. -/
theorem adminAndRestartOrders : Obligations.AdminAndRestartOrders := by
  intro s u admin hq
  refine ⟨fun ht => ?_, fun ht => takenOrder_answered
    (c := setPort { s.chip.port with restartWaiting := true } s.chip) ht hq rfl⟩
  cases admin with
  | true => exact ⟨fun h => takenOrder_answered ht hq (adminOrder_same (c := s.chip.opened _) h), adminOrder_changes hq ht⟩
  | false => exact ⟨fun h => takenOrder_answered ht hq (adminOrder_same (c := s.chip.opened _) h), adminOrder_changes hq ht⟩

/-! ## DEFINE and RETIRE of a channel (R153, R155) -/

section

variable {s : State} {items : List Item} {d : Definition}

theorem namesHubField_of_fields (h : ∀ x ∈ items, x.field ≠ 1 ∧ x.field ≤ 10) : namesHubField items = false := by
  simp only [namesHubField, List.any_eq_false, decide_eq_true_eq, not_or]
  exact fun x hx => ⟨(h x hx).1, by have := (h x hx).2; omega⟩

/-- A DEFINE of good form is answered as its owner answers. -/
theorem exec_defineChannel {c : Chip} {a : Answer} (hq : c.quiescent) (ht : s.chip.takes (.defineChannel items))
    (hw : defineWellFormed items = true)
    (ho : defineOwner items (s.chip.opened (.defineChannel items)) = (c.opened (.defineChannel items), a)) :
    exec (.defineChannel items) s = .next (s.onChip (c.answered (.defineChannel items) a)) :=
  taken_answered ht hq ((if_pos hw).trans ho)

theorem defineOwner_of_definition (hf : namesHubField items = false) (hd : Definition.blank.with items = some d) :
    defineOwner items c = defineRecord d c := by
  simp only [defineOwner, hf, hd]
  rfl

theorem defineOwner_of_none (hf : namesHubField items = false) (hd : Definition.blank.with items = none) :
    defineOwner items c = (c, { status := .range, result := [] }) := by
  simp only [defineOwner, hf, hd]
  rfl

theorem defineRecord_of_breaksRange (hr : d.breaksRange) : defineRecord d c = (c, { status := .range, result := [] }) := by
  have hin : ¬ d.inRange = true := fun h => Definition.inRange_iff.1 h hr
  simp [defineRecord, hin]

theorem defineRecord_full (hs : d.slot < 16) (hr : d.inRange = true) (h : c.freeChannel = none ∨ c.slotFull d.slot = true) :
    defineRecord d c = (c, { status := .full, result := [] }) := by
  unfold defineRecord
  rw [dif_pos hs, if_pos hr]
  split
  · rfl
  · rename_i i hi
    rw [if_pos (h.resolve_left (by simp [hi]))]

theorem defineRecord_overlap (hs : d.slot < 16) (hr : d.inRange = true) (hf : c.freeChannel = some h)
    (hn : c.slotFull d.slot = false) (ho : c.overlaps none d = true) :
    defineRecord d c = (c, { status := .overlap, result := [] }) := by
  unfold defineRecord
  rw [dif_pos hs, if_pos hr]
  simp only [hf, hn, ho]
  rfl

theorem defineRecord_ok (hs : d.slot < 16) (hr : d.inRange = true) (hf : c.freeChannel = some h)
    (hn : c.slotFull d.slot = false) (ho : c.overlaps none d = false) :
    defineRecord d c = (setChannel h (some (newChannel ⟨d.slot, hs⟩ d)) c,
      { status := .ok, result := [BitVec.ofNat 8 h.val] }) := by
  unfold defineRecord
  rw [dif_pos hs, if_pos hr]
  simp only [hf, hn, ho]
  rfl

/-- Log 19: a code that names no uplink, fallback or auto pass makes no definition. -/
theorem with_eq_none {d : Definition} {f n : Nat} (hf : f ∈ [5, 6, 7]) (hn : numberOf items f = some n) (h2 : 2 ≤ n) :
    d.with items = none := by
  simp only [List.mem_cons, List.not_mem_nil, or_false] at hf
  unfold Definition.with
  rcases hf with rfl | rfl | rfl
  · simp only [hn, Option.getD_some]
    exact dif_neg (by omega)
  · simp only [hn, Option.getD_some]
    split
    · exact if_neg (by omega)
    · rfl
  · simp only [hn, Option.getD_some]
    split
    · exact if_neg (by omega)
    · rfl

theorem retireRecord_of_busy (hc : c.channel h = some ch) (hs : ch.state = .hold) (hb : ch.busy = true) :
    retireRecord h c = (c, .busy) := by
  simp [retireRecord, hc, hs, hb]

theorem retireRecord_of_state (hc : c.channel h = some ch) (hs : ch.state ≠ .hold) : retireRecord h c = (c, .state) := by
  simp [retireRecord, hc, hs]

theorem retireRecord_ok (hc : c.channel h = some ch) (hs : ch.state = .hold) (hb : ch.busy = false) :
    retireRecord h c = (dropObject (.channel h) (setChannel h none c), .ok) := by
  simp [retireRecord, hc, hs, hb]

/-- Settles O42, by what R153 and R155 check first. -/
theorem defineAndRetireChannel : Obligations.DefineAndRetireChannel := by
  refine ⟨fun s items d slot hq hw hfields hd hslot hr ht => ?_, fun s items hq hw hfields ht hbad => ?_,
    fun s h ch hq hc => ?_⟩
  · have hs : d.slot < 16 := hslot ▸ slot.isLt
    have howner := defineOwner_of_definition (c := s.chip.opened (.defineChannel items)) (namesHubField_of_fields hfields) hd
    refine ⟨fun h hf hn ho => ?_, fun hfull => ?_, fun h hf hn ho => ?_⟩
    · refine exec_defineChannel (c := setChannel h (some (newChannel slot d)) s.chip) hq ht hw (howner.trans ?_)
      rw [defineRecord_ok (c := s.chip.opened _) hs hr hf hn ho]
      have hk : (⟨d.slot, hs⟩ : Fin 16) = slot := Fin.ext hslot
      rw [hk]
      rfl
    · exact exec_defineChannel hq ht hw (howner.trans (defineRecord_full (c := s.chip.opened _) hs hr hfull))
    · have hover : s.chip.overlaps none d = true := Chip.overlaps_iff.2 ho
      exact exec_defineChannel hq ht hw (howner.trans (defineRecord_overlap (c := s.chip.opened _) hs hr hf hn hover))
  · refine exec_defineChannel hq ht hw ?_
    rcases hbad with ⟨d, hd, hr⟩ | ⟨f, hf, n, hn, h2⟩
    · exact (defineOwner_of_definition (namesHubField_of_fields hfields) hd).trans (defineRecord_of_breaksRange hr)
    · exact defineOwner_of_none (namesHubField_of_fields hfields) (with_eq_none hf hn h2)
  · have answered {c : Chip} {x : Status} (ht : s.chip.takes (.retireChannel h)) (hq : c.quiescent)
        (ho : retireRecord h (s.chip.opened (.retireChannel h)) = (c.opened (.retireChannel h), x)) :
        exec (.retireChannel h) s = .next (s.onChip (c.answered (.retireChannel h) { status := x, result := [] })) :=
      taken_answered ht hq (congrArg statusOnly ho)
    intro i ht
    refine ⟨fun hs hb => ?_, fun hs hb => ?_, fun hs => ?_⟩
    · exact answered (c := dropObject (.channel h) (setChannel h none s.chip)) ht hq
        (retireRecord_ok (c := s.chip.opened (.retireChannel h)) hc hs hb)
    · exact answered ht hq (retireRecord_of_busy (c := s.chip.opened (.retireChannel h)) hc hs hb)
    · refine answered ht hq (retireRecord_of_state (c := s.chip.opened (.retireChannel h)) hc ?_)
      rcases hs with hs | hs <;> simp [hs]

end

end Sys2Proof.Machine

/-!
PROOF. The grant queue (R95 to R97), the AMENDs of a slot, an inventory record and a zone (R2, R64, R96, R116), and the order
to renegotiate (R53).
-/

namespace Sys2Proof.Machine

variable {c : Chip} {k : Fin 16}

/-! ## The queue -/

/-- A setting of what already stands. -/
theorem setServiceDue_of_due {b : Bool} (h : c.power.serviceDue = b) : setServiceDue b c = c := by
  subst h
  rfl

theorem queueEntry_slot {e : QueueEntry} (h : c.queueEntry k = some e) : e.slot = k := by
  have := List.find?_some h
  simpa using this

theorem queueEntry_mem {e : QueueEntry} (h : c.queueEntry k = some e) : e ∈ c.power.queue := List.mem_of_find?_eq_some h

theorem queueEntry_eq_none_iff : c.queueEntry k = none ↔ ∀ e ∈ c.power.queue, e.slot ≠ k := by
  simp [Chip.queueEntry, List.find?_eq_none]

/-- The marks of an event are cleared; a queue without marks stays as it is. -/
theorem map_clearFresh {q : List QueueEntry} (h : ∀ e ∈ q, e.fresh = false) :
    q.map (fun e => { e with fresh := false }) = q := by
  conv => rhs; rw [← List.map_id q]
  refine List.map_congr_left fun e he => ?_
  have := h e he
  cases e
  simp_all

/-- R96: in a queue in order, an entry joins behind every entry of its priority. -/
theorem insertEntry_of_sorted (e : QueueEntry) : ∀ {q : List QueueEntry}, (∀ x ∈ q, x.fresh = false) →
    q.Pairwise (fun x y => y.priority ≤ x.priority) → ∃ before after, before ++ after = q ∧
      insertEntry e q = before ++ e :: after ∧ (∀ x ∈ before, e.priority ≤ x.priority) ∧ ∀ x ∈ after, x.priority < e.priority
  | [], _, _ => ⟨[], [], rfl, rfl, nofun, nofun⟩
  | x :: q, hf, hq => by
    obtain ⟨hx, hq⟩ := List.pairwise_cons.1 hq
    have hfx : x.fresh = false := hf x List.mem_cons_self
    by_cases hlt : x.priority < e.priority
    · refine ⟨[], x :: q, rfl, if_pos (.inl hlt), nofun, fun y hy => ?_⟩
      rcases List.mem_cons.1 hy with rfl | hy
      · exact hlt
      · exact lt_of_le_of_lt (hx y hy) hlt
    · obtain ⟨before, after, hsplit, hins, hbefore, hafter⟩ :=
        insertEntry_of_sorted e (fun y hy => hf y (List.mem_cons_of_mem x hy)) hq
      refine ⟨x :: before, after, congrArg (x :: ·) hsplit, ?_, fun y hy => ?_, hafter⟩
      · rw [insertEntry, if_neg (by simp [hlt, hfx]), hins]
        rfl
      · rcases List.mem_cons.1 hy with rfl | hy
        · exact Nat.le_of_not_lt hlt
        · exact hbefore y hy

/-- Table 38: an entry that cannot be served. -/
abbrev Chip.waits (c : Chip) (e : QueueEntry) : Prop :=
  c.available < e.need ∧ (e.kind = .admission → c.settings.floorAdmission = false ∨ c.floorDraw e.slot = 0 ∨
    c.available < c.floorDraw e.slot)

theorem serveHead_of_waits {e : QueueEntry} (h : c.waits e) : serveHead e c = none := by
  obtain ⟨hneed, hfloor⟩ := h
  unfold serveHead
  cases hk : e.kind with
  | admission =>
    have hno : ¬ (c.settings.floorAdmission = true ∧ 0 < c.floorDraw e.slot ∧ (c.floorDraw e.slot : Int) ≤ c.available) := by
      rcases hfloor hk with h | h | h
      · simp [h]
      · simp [h]
      · exact fun hx => absurd hx.2.2 (Int.not_le.2 h)
    dsimp only
    rw [if_neg (Int.not_le.2 hneed), if_neg hno]
  | uplift => exact if_neg (Int.not_le.2 hneed)

/-- R97: with a shed list, or with a head that cannot be served, nothing is served. -/
theorem queueService_waiting (h : c.power.shed ≠ [] ∨ ∀ e ∈ c.power.queue, c.waits e) :
    queueService c = setServiceDue false (setQueue (c.power.queue.map fun e => { e with fresh := false }) c) := by
  have hserved : (if c.power.serviceDue ∧ c.power.shed.isEmpty then serveQueue c.power.queue c else c) = c := by
    split
    · rename_i hdue
      have hq : ∀ e ∈ c.power.queue, c.waits e := h.resolve_left (fun hn => hn (List.isEmpty_iff.1 hdue.2))
      have hself : setQueue c.power.queue c = c := rfl
      cases hl : c.power.queue with
      | nil => rw [serveQueue, ← hl, hself]
      | cons e rest =>
        have he := serveHead_of_waits (hq e (hl ▸ List.mem_cons_self))
        simp only [serveQueue, he]
        rw [← hl, hself]
    · rfl
  unfold queueService
  simp only [hserved]

/-! ## AMEND of a slot (R2, R96) -/

section

variable {s : State} {items : List Item}

/-- An AMEND of good form is answered as its owner answers. -/
theorem exec_amendSlot {c : Chip} {a : Answer} (hq : c.quiescent) (ht : s.chip.takes (.amendSlot k items))
    (hw : amendWellFormed .slot items = true)
    (ho : amendSlotOwner k items (s.chip.opened (.amendSlot k items)) = (c.opened (.amendSlot k items), a)) :
    exec (.amendSlot k items) s = .next (s.onChip (c.answered (.amendSlot k items) a)) :=
  taken_answered ht hq ((if_pos hw).trans ho)

theorem amendSlotOwner_write (v : Byte) : amendSlotOwner k [{ field := 10, value := some [v] }] c =
    if v.toNat ≤ 7 then (writeOverride k (some v.toNat) c, { status := .ok, result := [] })
    else (c, { status := .range, result := [] }) := by
  have hn : numberOf [({ field := 10, value := some [v] } : Item)] 10 = some v.toNat := by
    simp [numberOf, valueOf]
  unfold amendSlotOwner
  rw [if_neg (by simp)]
  simp only [hn]
  rfl

theorem amendSlotOwner_remove : amendSlotOwner k [{ field := 10, value := none }] c =
    (writeOverride k none c, { status := .ok, result := [] }) := rfl

theorem amendSlotOwner_state {n : Nat} {w : Option (List Byte)} (hn : n ≠ 10) :
    amendSlotOwner k [{ field := n, value := w }] c = (c, { status := .state, result := [] }) :=
  if_pos (by simp [hn])

/-- R2: without a queue entry the override is all that is written. -/
theorem writeOverride_of_none {p : Option Nat} (h : c.queueEntry k = none) :
    writeOverride k p c = setSlot k { c.slot k with priorityOverride := p } c := by
  have hq : (modSlot k (fun s => { s with priorityOverride := p }) c).queueEntry k = none := h
  show replaceEntry k _ = _
  rw [replaceEntry, hq]
  rfl

/-- R2: the effective priority after an override is written. -/
theorem effectivePriority_override (p : Option Nat) :
    (setSlot k { c.slot k with priorityOverride := p } c).effectivePriority k =
      p.or ((c.slot k).terms.map Terms.priority) := by
  rw [Chip.effectivePriority, slot_setSlot_self]
  cases p <;> rfl

/-- R96: the entry of a slot is placed again. -/
theorem writeOverride_of_entry {p : Option Nat} {e : QueueEntry} {n : Nat} (h : c.queueEntry k = some e)
    (hp : ((setSlot k { c.slot k with priorityOverride := p } c).effectivePriority k).getD 0 = n) :
    writeOverride k p c = setServiceDue true (setQueue
      (insertEntry { slot := k, kind := e.kind, need := e.need, priority := n, fresh := true }
        (c.power.queue.filter fun x => decide (x.slot ≠ k))) (setSlot k { c.slot k with priorityOverride := p } c)) := by
  have hq : (modSlot k (fun s => { s with priorityOverride := p }) c).queueEntry k = some e := h
  subst hp
  show replaceEntry k _ = _
  rw [replaceEntry, hq]
  rfl

/-- R96, R97: the AMEND of the override of a slot whose entry waits, at the end of the event. -/
theorem exec_amendSlot_entry {e : QueueEntry} {p : Option Nat} {n : Nat} (hq : s.chip.quiescent)
    (he : s.chip.queueEntry k = some e) (hsort : s.chip.power.queue.Pairwise (fun x y => y.priority ≤ x.priority))
    (hwait : s.chip.power.shed ≠ [] ∨ ∀ x ∈ s.chip.power.queue, s.chip.waits x) (ht : s.chip.takes (.amendSlot k items))
    (hw : amendWellFormed .slot items = true)
    (ho : amendSlotOwner k items (s.chip.opened (.amendSlot k items)) =
      (writeOverride k p (s.chip.opened (.amendSlot k items)), { status := .ok, result := [] }))
    (hp : ((setSlot k { s.chip.slot k with priorityOverride := p } s.chip).effectivePriority k).getD 0 = n) :
    ∃ before after, before ++ after = s.chip.power.queue.filter (fun x => decide (x.slot ≠ k)) ∧
      (∀ x ∈ before, n ≤ x.priority) ∧ (∀ x ∈ after, x.priority < n) ∧
      exec (.amendSlot k items) s = .next (s.onChip ((setQueue (before ++ { e with priority := n } :: after) (setSlot k
        { s.chip.slot k with priorityOverride := p } s.chip)).answered (.amendSlot k items) { status := .ok, result := [] })) := by
  obtain ⟨hdue, hfresh⟩ := hq
  have hef : e.fresh = false := hfresh e (queueEntry_mem he)
  have hek : e.slot = k := queueEntry_slot he
  obtain ⟨before, after, hsplit, hins, hbefore, hafter⟩ :=
    insertEntry_of_sorted { slot := k, kind := e.kind, need := e.need, priority := n, fresh := true }
      (q := s.chip.power.queue.filter fun x => decide (x.slot ≠ k)) (fun x hx => hfresh x (List.mem_of_mem_filter hx))
      (hsort.filter _)
  refine ⟨before, after, hsplit, hbefore, hafter, ?_⟩
  have hwrite := writeOverride_of_entry (c := s.chip.opened (.amendSlot k items)) (p := p) (n := n) he hp
  rw [show (s.chip.opened (.amendSlot k items)).power.queue = s.chip.power.queue from rfl, hins] at hwrite
  refine (taken_of_takes _ ht).trans (congrArg (fun c => Host.Outcome.next (s.onChip c)) ?_)
  rw [show onItems (amendWellFormed .slot items) (amendSlotOwner k items) (s.chip.opened (.amendSlot k items)) = _ from
    (if_pos hw).trans ho, hwrite]
  set c1 := writeAnswer (.amendSlot k items) (setServiceDue true (setQueue
    (before ++ { slot := k, kind := e.kind, need := e.need, priority := n, fresh := true } :: after)
    (setSlot k { (s.chip.opened (.amendSlot k items)).slot k with priorityOverride := p }
      (s.chip.opened (.amendSlot k items)))), ({ status := .ok, result := [] } : Answer)) with hc1
  have hterms : ∀ j, c1.floorDraw j = s.chip.floorDraw j := fun j => by
    have hslot : (c1.slot j).terms = (s.chip.slot j).terms := by
      show ((setSlot k _ s.chip).slot j).terms = _
      rw [slot_setSlot]
      split
      · rename_i hj
        rw [hj]
        rfl
      · rfl
    rw [Chip.floorDraw, hslot]
    rfl
  have hwaits : ∀ {x y : QueueEntry}, s.chip.waits x → y.need = x.need → y.kind = x.kind → y.slot = x.slot → c1.waits y := by
    intro x y hx hneed hkind hslot
    rw [Chip.waits, hneed, hkind, hslot, hterms]
    exact hx
  have hwait1 : c1.power.shed ≠ [] ∨ ∀ x ∈ c1.power.queue, c1.waits x := by
    refine hwait.imp id fun h x hx => ?_
    have hold : x ∈ before ++ after → c1.waits x := fun hm =>
      hwaits (h x (List.mem_of_mem_filter (hsplit ▸ hm))) rfl rfl rfl
    rcases List.mem_append.1 (show x ∈ before ++ _ :: after from hx) with hb | ha
    · exact hold (List.mem_append_left _ hb)
    · rcases List.mem_cons.1 ha with rfl | ha
      · exact hwaits (h e (queueEntry_mem he)) rfl rfl hek.symm
      · exact hold (List.mem_append_right _ ha)
  have hclear : c1.power.queue.map (fun e => { e with fresh := false }) = before ++ { e with priority := n } :: after := by
    have hold : ∀ x ∈ before ++ after, x.fresh = false := fun x hx => hfresh x (List.mem_of_mem_filter (hsplit ▸ hx))
    show (before ++ _ :: after).map _ = _
    rw [List.map_append, List.map_cons, map_clearFresh fun x hx => hold x (List.mem_append_left _ hx),
      map_clearFresh fun x hx => hold x (List.mem_append_right _ hx), ← hek, ← hef]
  rw [queueService_waiting hwait1, hclear]
  exact setServiceDue_of_due (c := (setQueue (before ++ { e with priority := n } :: after) (setSlot k
    { s.chip.slot k with priorityOverride := p } s.chip)).answered (.amendSlot k items) { status := .ok, result := [] }) hdue

end

/-! ## AMEND of an inventory record and of a zone (R64, R116) -/

section

variable {s : State}

theorem amendInventoryOwner_handle {h : Fin 48} {r : InvRecord} {tag : List Byte} (hr : (c.invHandle h).record = some r) :
    amendInventoryOwner (.handle h (c.invHandle h).generation) [{ field := 14, value := some tag }] c =
      if tagAccepted (some tag) then (writeRecord h { r with assetTag := some tag } c, { status := .ok, result := [] })
      else (c, { status := .range, result := [] }) := by
  have hres : c.resolve (.handle h (c.invHandle h).generation) = .found h r := (resolve_handle rfl).trans (resolvedAt_some hr)
  unfold amendInventoryOwner
  rw [if_neg nofun, hres]
  dsimp only
  rw [if_neg (by simp)]
  rfl

theorem amendZoneOwner_curve {z : Fin 4} {v : List Byte} (hv : Curve.inRange (readCurve v) = true) :
    amendZoneOwner z [{ field := 2, value := some v }] c =
      (setZone z { c.zone z with staged := readCurve v } c, { status := .ok, result := [] }) := by
  unfold amendZoneOwner
  rw [if_neg (by simp)]
  exact if_pos hv

end

/-- Settles O40, table by table. -/
theorem amendsOfSlotInventoryAndZone : Obligations.AmendsOfSlotInventoryAndZone := by
  refine ⟨fun s k v n w hq hno => ⟨fun ht => ⟨fun hv => ?_, fun hv => ?_⟩, fun ht => ?_, fun ht hn hw => ?_⟩,
    fun s k e v hq he hv hsort hwait => ?_, fun s h r tag hq hr hlen => ?_, fun s z v hq hlen hin => ?_⟩
  · refine exec_amendSlot (c := setSlot k { s.chip.slot k with priorityOverride := some v.toNat } s.chip) hq ht rfl ?_
    rw [amendSlotOwner_write, if_pos hv]
    exact congrArg (fun c => (c, _)) (writeOverride_of_none (c := s.chip.opened _) hno)
  · refine exec_amendSlot hq ht rfl ?_
    rw [amendSlotOwner_write, if_neg (Nat.not_le.2 hv)]
  · refine exec_amendSlot (c := setSlot k { s.chip.slot k with priorityOverride := none } s.chip) hq ht rfl ?_
    exact congrArg (fun c => (c, _)) (writeOverride_of_none (c := s.chip.opened _) hno)
  · refine exec_amendSlot hq ht ?_ (amendSlotOwner_state hn)
    simp [amendWellFormed, itemsWellFormed, allDistinct, hw]
  · intro i p ht
    cases v with
    | none =>
      refine exec_amendSlot_entry (p := none) hq he hsort hwait ht rfl rfl ?_
      exact congrArg (Option.getD · 0) (effectivePriority_override none)
    | some n =>
      refine exec_amendSlot_entry (p := some n.toNat) hq he hsort hwait ht rfl ?_ ?_
      · exact (amendSlotOwner_write n).trans (if_pos (hv n rfl))
      · exact congrArg (Option.getD · 0) (effectivePriority_override (some n.toNat))
  · intro i ht
    have hw : amendWellFormed .inventory [{ field := 14, value := some tag }] = true := by
      simp [amendWellFormed, itemsWellFormed, allDistinct, itemWellFormed, fieldShape, shapes, Shape.accepts, hlen]
    have howner := amendInventoryOwner_handle (c := s.chip.opened i) (tag := tag) hr
    refine ⟨fun h32 hp => ?_, fun hbad => ?_⟩
    · have hok : tagAccepted (some tag) = true := by simp [tagAccepted, h32, hp]
      rw [if_pos hok] at howner
      exact taken_answered (c := writeRecord h { r with assetTag := some tag } s.chip) ht hq ((if_pos hw).trans howner)
    · have hno : ¬ tagAccepted (some tag) = true := by
        simp only [tagAccepted, Bool.and_eq_true, decide_eq_true_eq]
        rintro ⟨h32, hp⟩
        rcases hbad with h | h
        · omega
        · rw [hp] at h
          cases h
      rw [if_neg hno] at howner
      exact taken_answered ht hq ((if_pos hw).trans howner)
  · intro i ht
    have hw : amendWellFormed .zone [{ field := 2, value := some v }] = true := by
      simp [amendWellFormed, itemsWellFormed, allDistinct, itemWellFormed, fieldShape, shapes, Shape.accepts, hlen]
    have hcurve : Curve.inRange (readCurve v) = true := List.all_eq_true.2 fun j _ => decide_eq_true (hin j)
    exact taken_answered (c := setZone z { s.chip.zone z with staged := readCurve v } s.chip) ht hq
      ((if_pos hw).trans (amendZoneOwner_curve (c := s.chip.opened i) hcurve))

/-! ## RENEGOTIATE (R53) -/

theorem renegotiateSlot_refused (h : (c.slot k).state ≠ .running ∨ (c.engine k).renegRequest = true ∨
    (c.engine k).phase = .renegotiation) : renegotiateSlot k c = (c, .state) := by
  unfold renegotiateSlot
  refine if_neg ?_
  rintro ⟨h1, h2, h3⟩
  rcases h with h | h | h
  · exact h h1
  · simp [h] at h2
  · exact h3 h

theorem renegotiateSlot_taken (hs : (c.slot k).state = .running) (hr : (c.engine k).renegRequest = false)
    (hp : (c.engine k).phase ≠ .renegotiation) :
    renegotiateSlot k c = (arbitrate k (setEngine k { c.engine k with renegRequest := true } c), .ok) := by
  unfold renegotiateSlot
  exact if_pos ⟨hs, by simp [hr], hp⟩

/-- R35 step 3: an idle link starts the renegotiation asked for. -/
theorem arbitrate_renegotiation {e : Engine} (hx : e.inFlight = none) (hq : e.quiet = false) (hp : e.phase = .idle)
    (hs : e.settlement = none) (hr : e.renegRequest = false) :
    arbitrate k (setEngine k { e with renegRequest := true } c) = setEngine k
      { e with
        phase := .renegotiation, toggle := false, responses := 0, draft := some .fresh
        inFlight := sentPage .negotiate false } c := by
  simp [arbitrate, hx, hq, hp, hs, hr, sendRenegotiationOrPending, modEngine, startPhase, send, sentPage]

/-- Settles O47, by the link. -/
theorem renegotiateStartsOrWaits : Obligations.RenegotiateStartsOrWaits := by
  intro s k hq ht e i
  refine ⟨fun hs hr hx hqt hp hst => ?_, fun hs hr hp hb => ?_, fun hno => ?_⟩
  · have hrow := renegotiateSlot_taken (c := s.chip.opened i) (k := k) hs hr
      (fun h => absurd (hp.symm.trans h) (by decide))
    rw [show ((s.chip.opened i).engine k) = e from rfl, arbitrate_renegotiation hx hqt hp hst hr] at hrow
    exact takenOrder_answered (c := setEngine k { e with
      phase := .renegotiation, toggle := false, responses := 0, draft := some .fresh,
      inFlight := sentPage .negotiate false } s.chip) ht hq hrow
  · have hrow := renegotiateSlot_taken (c := s.chip.opened i) (k := k) hs hr hp
    have hbusy : arbitrate k (setEngine k { e with renegRequest := true } (s.chip.opened i)) =
        setEngine k { e with renegRequest := true } (s.chip.opened i) := by
      rcases hb with h | h
      · exact arbitrate_of_inFlight (by rw [engine_setEngine_self]; exact h)
      · exact arbitrate_of_quiet (by rw [engine_setEngine_self]; exact h)
    exact takenOrder_answered (c := setEngine k { e with renegRequest := true } s.chip) ht hq
      (hrow.trans (congrArg (fun c => (c, Status.ok)) hbusy))
  · exact takenOrder_answered ht hq (renegotiateSlot_refused (c := s.chip.opened i) hno)

end Sys2Proof.Machine

/-!
PROOF. What the events of one slot reach: a property that the writes of the slot's own record and engine, and those of the
power unit, the fan controller and the hub, do not disturb is kept by every event of the slot. That every other slot and
engine stays as it is, with the settings, the module link and the two slots of the port, is such a property (R27).
-/

namespace Sys2Proof.Machine

/-- A property that no write an event of slot `k` makes disturbs, but for writes of the inventory. -/
structure OneSlotKeeps (k : Fin 16) (P : Chip → Prop) : Prop extends FanKeeps P where
  hub : ∀ b c, P c → P { c with hub := b }
  slot : ∀ s c, P c → P (setSlot k s c)
  engine : ∀ e c, P c → P (setEngine k e c)
  statusPages : ∀ n c, P c → P (setStatusPages n c)

namespace OneSlotKeeps

variable {k : Fin 16} {P : Chip → Prop} (h : OneSlotKeeps k P) {c : Chip}
include h

theorem toHubKeeps : HubKeeps P := ⟨h.hub, h.raise⟩
theorem post (m : Instr) (hc : P c) : P (post m c) := h.toPowerKeeps.post m hc

/-! ## The link of the slot -/

theorem send (x : PageRequest) (toggle : Bool) (hc : P c) : P (send k x toggle c) := h.engine _ _ hc
theorem startPhase (x : Phase) (hc : P c) : P (startPhase k x c) := h.engine _ _ hc

theorem sendPending (hc : P c) : P (sendPending k c) := by
  unfold Machine.sendPending
  refine ite_keeps (h.send _ _ (h.engine _ _ hc)) ?_
  split
  case h_4 => exact ite_keeps (h.send _ _ (h.engine _ _ hc)) hc
  all_goals exact h.send _ _ (h.engine _ _ hc)

theorem sendRenegotiationOrPending (hc : P c) : P (sendRenegotiationOrPending k c) :=
  ite_keeps (h.send _ _ (h.startPhase _ (h.engine _ _ hc))) (h.sendPending hc)

theorem arbitrate (hc : P c) : P (arbitrate k c) := by
  unfold Machine.arbitrate
  refine ite_keeps hc (ite_keeps (h.send _ _ hc) ?_)
  split
  · split
    · exact h.send _ _ (h.engine _ _ hc)
    · exact h.sendRenegotiationOrPending (h.post _ (h.engine _ _ hc))
  · exact h.sendRenegotiationOrPending hc

theorem startInterrogation (hc : P c) : P (startInterrogation k c) := h.arbitrate (h.startPhase _ hc)
theorem startNegotiation (hc : P c) : P (startNegotiation k c) := h.arbitrate (h.startPhase _ hc)
theorem requestShutdown (hc : P c) : P (requestShutdown k c) := ite_keeps hc (h.arbitrate (h.engine _ _ hc))

theorem emptyEngine (hc : P c) : P (emptyEngine k c) := by
  unfold Machine.emptyEngine
  extract_lets e r c1 c2 c3 c4
  have h1 : P c1 := h.engine _ _ hc
  have h2 : P c2 := by
    show P (match e.inFlight with | some x => reportAbandoned k x c1 | none => c1)
    split
    · rename_i x _
      unfold reportAbandoned
      cases x.request
      case cap | uncap | grant => exact h.post _ h1
      all_goals exact h1
    · exact h1
  have h3 : P c3 := ite_keeps (h.post _ h2) h2
  have h4 : P c4 := ite_keeps (h.post _ h3) h3
  exact ite_keeps (h.post _ h4) h4

theorem endExchange (failed : Bool) (hc : P c) : P (endExchange k failed c) := h.engine _ _ hc
theorem endPhase (hc : P c) : P (endPhase k c) := h.engine _ _ hc
theorem answerPhase (hc : P c) : P (answerPhase k c) := h.engine _ _ (h.endExchange _ hc)
theorem gather (d : Draft) (hc : P c) : P (gather k d c) := h.engine _ _ hc

/-! ## States -/

theorem reportSlot (old new : SlotState) (hc : P c) : P (reportSlot k old new c) :=
  h.toHubKeeps.hubOnSlot _ _ _ (h.toFanKeeps.fanOnSlot _ _ _ (h.toPowerKeeps.powerOnSlot _ _ hc))

theorem enterState (new : SlotState) (own : Slot → Slot) (hc : P c) : P (enterState k new own c) := by
  have he : ∀ old, P (engineOnSlot k old new (modSlot k (fun s => own (s.enter new)) c)) := fun _ =>
    have h1 := h.slot (own ((c.slot k).enter new)) c hc
    ite_keeps (h.emptyEngine h1) (ite_keeps (h.engine _ _ h1) h1)
  exact h.reportSlot _ _ (ite_keeps (h.toPowerKeeps.releaseGrant _ (he _)) (he _))

theorem toHeld (r : HoldReason) (hc : P c) : P (toHeld k r c) := h.raise _ _ _ (h.enterState _ _ hc)
theorem toInterrogating (hc : P c) : P (toInterrogating k c) := h.startInterrogation (h.enterState _ _ hc)
theorem toNegotiating (hc : P c) : P (toNegotiating k c) := h.startNegotiation (h.enterState _ _ hc)

theorem toPowering (hc : P c) : P (toPowering k c) :=
  have h1 := h.enterState .powering (fun s => { s with powerUpDelay := some c.settings.powerUpDelay }) hc
  ite_keeps (h.enterState _ _ h1) h1

theorem toDraining (cause : DrainCause) (hc : P c) : P (toDraining k cause c) := h.requestShutdown (h.enterState _ _ hc)

theorem toOutcome (o : PdOutcome) (hc : P c) : P (toOutcome k o c) := by
  cases o
  case interrogating => exact h.toInterrogating hc
  all_goals exact h.toHeld _ hc

theorem completePowerDown (hc : P c) : P (completePowerDown k c) := by
  unfold Machine.completePowerDown
  extract_lets o c1
  have h1 : P c1 := ite_keeps (h.toOutcome _ hc) (h.enterState _ _ hc)
  clear_value c1
  split
  · exact h.raise _ _ _ h1
  · exact h1

theorem toPoweringDown (cause : Option DrainCause) (o : PdOutcome) (hc : P c) : P (toPoweringDown k cause o c) := by
  unfold Machine.toPoweringDown
  extract_lets c1
  have h1 : P c1 := h.enterState _ _ hc
  exact ite_keeps h1 (h.completePowerDown h1)

theorem endDrain (hc : P c) : P (endDrain k c) := h.toPoweringDown _ _ hc
theorem powerFault (hc : P c) : P (powerFault k c) := h.raise _ _ _ (h.raise _ _ _ (h.enterState _ _ hc))
theorem drainAdopting (cause : DrainCause) (hc : P c) : P (drainAdopting k cause c) := h.toDraining _ (h.emptyEngine hc)

/-! ## Events of the inputs and the timers -/

theorem contactMade (hc : P c) : P (contactMade k c) := ite_keeps (ite_keeps (h.toInterrogating hc) (h.enterState _ _ hc)) hc
theorem latchClosed (hc : P c) : P (latchClosed k c) := ite_keeps (h.toInterrogating hc) hc

theorem latchOpened (hc : P c) : P (latchOpened k c) := by
  unfold Machine.latchOpened
  cases (c.slot k).state
  case powering | starting => exact h.toPoweringDown _ _ hc
  case running => exact h.toDraining _ hc
  case adopting => exact h.drainAdopting _ hc
  case empty | seated | draining | poweringDown => exact hc
  all_goals exact h.enterState .seated id hc

theorem shedOff (hc : P c) : P (shedOff k c) := by
  unfold Machine.shedOff
  cases (c.slot k).state
  case powering | starting => exact h.toPoweringDown _ _ hc
  case running => exact h.toDraining _ hc
  case adopting => exact h.drainAdopting _ hc
  all_goals exact hc

theorem thermalDrain (hc : P c) : P (thermalDrain k c) := by
  unfold Machine.thermalDrain
  cases (c.slot k).state
  case running => exact h.toDraining _ hc
  case adopting => exact h.drainAdopting _ hc
  all_goals exact hc

theorem slotDebounced (i : SlotInput) {made lost : Chip → Chip} (hm : ∀ c, P c → P (made c)) (hl : ∀ c, P c → P (lost c))
    (hc : P c) : P (slotDebounced k i made lost c) := by
  unfold Machine.slotDebounced
  extract_lets d c1
  have h1 : P c1 := h.slot _ _ hc
  exact ite_keeps (ite_keeps h1 (ite_keeps (hm _ h1) (hl _ h1))) hc

theorem pwrGoodChanged (level : Bool) (hc : P c) : P (pwrGoodChanged k level c) := by
  unfold Machine.pwrGoodChanged
  extract_lets c1
  have h1 : P c1 := h.slot _ _ hc
  clear_value c1
  refine ite_keeps hc ?_
  split
  case h_1 => exact h.enterState _ _ h1
  case h_6 => exact h.completePowerDown h1
  case h_7 => exact h1
  all_goals exact h.powerFault h1

theorem powerUpExpired (together : Bool) (hc : P c) : P (powerUpExpired k together c) :=
  ite_keeps (h.toPoweringDown _ _ (h.raise _ _ _ (h.slot _ _ hc))) hc

theorem resetHoldExpired (hc : P c) : P (resetHoldExpired k c) := ite_keeps (h.enterState _ _ hc) hc
theorem drainExpired (hc : P c) : P (drainExpired k c) := ite_keeps (h.endDrain hc) hc
theorem powerDownExpired (hc : P c) : P (powerDownExpired k c) := ite_keeps (h.powerFault hc) hc

theorem takeCloseOrder (hc : P c) : P (takeCloseOrder k c) :=
  ite_keeps (ite_keeps (h.toPowering hc) (h.toPowerKeeps.releaseGrant _ hc)) hc

/-! ## Reports of the link -/

theorem endAdoption (hc : P c) : P (endAdoption k c) := by
  unfold Machine.endAdoption
  split
  · exact h.enterState _ _ hc
  · exact h.toDraining _ hc

theorem takeNoIdentity (hc : P c) : P (takeNoIdentity k c) := by
  unfold Machine.takeNoIdentity
  split
  · exact h.toHeld _ hc
  · exact h.endAdoption (h.raise _ _ _ (h.slot _ _ hc))
  · exact hc

theorem takeDraw (measured : Nat) (hc : P c) : P (takeDraw k measured c) :=
  ite_keeps (h.raise _ _ _ (h.slot _ _ hc)) (h.slot _ _ hc)

theorem takeStatus (st : BladeStatus) (hc : P c) : P (takeStatus k st c) := by
  unfold Machine.takeStatus
  extract_lets c1 c2
  have h1 : P c1 := h.takeDraw _ (h.toFanKeeps.fanOnStatus _ (h.slot _ _ hc))
  have h2 : P c2 := ite_keeps (h.raise _ _ _ h1) h1
  exact ite_keeps (h.endDrain h2) h2

theorem takeSilence (hc : P c) : P (takeSilence k c) := by
  unfold Machine.takeSilence
  extract_lets old c1
  have h1 : P c1 := h.slot _ _ hc
  exact ite_keeps (h.toFanKeeps.fanOnStatus _ (h.raise _ _ _ (h.slot _ _ h1))) h1

theorem failInterrogation (hc : P c) : P (failInterrogation k c) := h.takeNoIdentity (h.endPhase hc)

theorem failNegotiation (r : HoldReason) (hc : P c) : P (failNegotiation k r c) := by
  unfold Machine.failNegotiation
  extract_lets phase c1
  have h1 : P c1 := h.endPhase hc
  clear_value c1 phase
  split
  · exact h.toHeld _ h1
  · exact h.raise _ _ _ h1
  · exact h1

theorem failSettlement (hc : P c) : P (failSettlement k c) :=
  have h1 := h.post (.settlementReport k .failed) (h.engine _ _ hc)
  ite_keeps (h.raise _ _ _ h1) h1

theorem exchangeFailed (x : PageRequest) (r : HoldReason) (hc : P c) : P (exchangeFailed k x r c) := by
  cases x
  case interrogate => exact h.failInterrogation hc
  case negotiate => exact h.failNegotiation _ hc
  case next => exact ite_keeps (h.failInterrogation hc) (h.failNegotiation _ hc)
  case grant | channelGrant => exact h.failSettlement hc
  case cap | uncap => exact h.post _ hc
  case shutdown => exact hc
  case poll => exact h.takeSilence hc

theorem rejectPage (x : PageRequest) (r : HoldReason) (hc : P c) : P (rejectPage k x r c) :=
  h.exchangeFailed _ _ (h.endExchange _ hc)

theorem raiseDegraded (f : FaultCode) (hc : P c) : P (raiseDegraded k f c) := ite_keeps (h.raise _ _ _ hc) hc

theorem resolve (run floor priority : Nat) (l : List Nat) (hc : P c) : P (resolve k run floor priority l c) := by
  unfold Machine.resolve
  split
  · exact h.failNegotiation _ hc
  · unfold resolved
    extract_lets phase handles short terms written c1
    have hw : ∀ x, P x → P (written x) := fun x hx =>
      have h1 := h.post (.matchHandoff k handles) (h.slot { x.slot k with terms := some terms } x hx)
      ite_keeps (h.raise _ _ _ h1) h1
    have h1 : P c1 := h.endPhase hc
    clear_value c1 phase written
    split
    · exact h.enterState _ _ (hw _ h1)
    · exact h.toPowerKeeps.settleTerms _ (hw _ h1)
    · exact h1

theorem continueTerms (more : Bool) (run floor priority count : Nat) (l : List Nat) (hc : P c) :
    P (continueTerms k more run floor priority count l c) :=
  ite_keeps (h.failNegotiation _ hc) (ite_keeps (ite_keeps (h.failNegotiation _ hc) (h.gather _ hc))
    (ite_keeps (h.resolve _ _ _ _ hc) (h.failNegotiation _ hc)))

theorem negotiationPage (x : Exchange) (p : Page) (hc : P c) : P (negotiationPage k x p c) := by
  unfold Machine.negotiationPage
  extract_lets c1
  have h1 : P c1 := h.raiseDegraded _ hc
  clear_value c1
  split
  · exact h.rejectPage _ _ h1
  · have h2 := h.answerPhase h1
    exact ite_keeps (h.rejectPage _ _ h1) (ite_keeps (h.failNegotiation _ h2) (h.continueTerms _ _ _ _ _ _ h2))

theorem takeAck (x : PageRequest) (ok : Bool) (hc : P c) : P (takeAck k x ok c) := by
  unfold Machine.takeAck
  cases x
  case grant | channelGrant => exact ite_keeps hc (h.failSettlement hc)
  case cap | uncap => exact h.post _ hc
  all_goals exact hc

theorem ackPage (x : Exchange) (p : Page) (hc : P c) : P (ackPage k x p c) :=
  ite_keeps (h.takeAck _ _ (h.raiseDegraded _ (h.endExchange _ hc))) (h.rejectPage _ _ hc)

theorem statusPage (x : Exchange) (p : Page) (hc : P c) : P (statusPage k x p c) := by
  unfold Machine.statusPage
  split
  · exact h.takeStatus _ (h.endExchange _ (h.statusPages _ _ hc))
  · exact h.rejectPage _ _ hc

theorem takeTimeout (x : Exchange) (hc : P c) : P (takeTimeout k x c) :=
  ite_keeps (h.exchangeFailed _ _ (h.endExchange _ hc)) (h.engine _ _ hc)

theorem slotTimeout (hc : P c) : P (slotTimeout k c) := by
  unfold Machine.slotTimeout
  split
  · exact hc
  · exact h.arbitrate (h.takeTimeout _ hc)

theorem slotQuietEnded (hc : P c) : P (slotQuietEnded k c) := ite_keeps (h.arbitrate (h.engine _ _ hc)) hc

/-! ## Events that reach the inventory -/

theorem toEmpty (hv : ∀ c, P c → P (vacate (.slot k) c)) (hc : P c) : P (toEmpty k c) :=
  have h1 := h.enterState .empty id hc
  ite_keeps (hv _ h1) h1

theorem contactLost (hv : ∀ c, P c → P (vacate (.slot k) c)) (hc : P c) : P (contactLost k c) :=
  ite_keeps hc (ite_keeps (h.raise _ _ _ (h.toEmpty hv hc)) (h.toEmpty hv hc))

/-- The queue service at the end of the event. -/
theorem queueService (hc : P c) : P (queueService c) := h.toPowerKeeps.queueService hc

end OneSlotKeeps

/-! ## What an event of one slot leaves alone -/

variable {c : Chip} {k : Fin 16}

theorem Chip.onlySlotRecord_refl (k : Fin 16) (c : Chip) : c.onlySlotRecord k c :=
  ⟨⟨fun _ _ => ⟨rfl, rfl⟩, rfl, rfl, rfl, rfl⟩, rfl⟩

/-- R27: the writes of an event of one slot leave the other slots alone. -/
theorem onlySlot_keeps (k : Fin 16) (c : Chip) : OneSlotKeeps k (c.onlySlot k) where
  power _ _ h := h
  raise _ _ _ h := h
  messages _ _ h := h
  fans _ _ h := h
  hub _ _ h := h
  statusPages _ _ h := h
  slot s c' h := by
    obtain ⟨hother, hrest⟩ := h
    exact ⟨fun j hj => ⟨by rw [slot_setSlot, if_neg hj]; exact (hother j hj).1, (hother j hj).2⟩, hrest⟩
  engine e c' h := by
    obtain ⟨hother, hrest⟩ := h
    exact ⟨fun j hj => ⟨(hother j hj).1, by rw [engine_setEngine, if_neg hj]; exact (hother j hj).2⟩, hrest⟩

theorem onlySlotRecord_keeps (k : Fin 16) (c : Chip) : OneSlotKeeps k (c.onlySlotRecord k) where
  power _ _ h := h
  raise _ _ _ h := h
  messages _ _ h := h
  fans _ _ h := h
  hub _ _ h := h
  statusPages _ _ h := h
  slot _ _ h := ⟨(onlySlot_keeps k c).slot _ _ h.1, h.2⟩
  engine _ _ h := ⟨(onlySlot_keeps k c).engine _ _ h.1, h.2⟩

theorem onlySlot_writeRecord {c' : Chip} (i : Fin 48) (r : InvRecord) (h : c.onlySlot k c') :
    c.onlySlot k (writeRecord i r c') := h

theorem onlySlot_vacate {c' : Chip} (l : Location) (h : c.onlySlot k c') : c.onlySlot k (vacate l c') := by
  unfold vacate
  split
  · exact h
  · split
    · exact h
    · exact h

/-! ## The record of the slot and its engine -/

/-- Two parts with the same slots, engines, inventory, module link, settings and port slots. -/
structure Chip.SameSlots (c c' : Chip) : Prop where
  slots : c'.slots = c.slots
  engines : c'.engines = c.engines
  inventory : c'.inventory = c.inventory

theorem Chip.SameSlots.refl (c : Chip) : c.SameSlots c := ⟨rfl, rfl, rfl⟩

theorem Chip.sameSlots_keeps (c : Chip) : FanKeeps c.SameSlots where
  power _ _ h := ⟨h.slots, h.engines, h.inventory⟩
  raise _ _ _ h := ⟨h.slots, h.engines, h.inventory⟩
  messages _ _ h := ⟨h.slots, h.engines, h.inventory⟩
  fans _ _ h := ⟨h.slots, h.engines, h.inventory⟩

theorem Chip.sameSlots_hub (c : Chip) : HubKeeps c.SameSlots where
  hub _ _ h := ⟨h.slots, h.engines, h.inventory⟩
  raise _ _ _ h := ⟨h.slots, h.engines, h.inventory⟩

theorem Chip.SameSlots.slot {c c' : Chip} (h : c.SameSlots c') (j : Fin 16) : c'.slot j = c.slot j :=
  congrArg (fun b : Bank 16 Slot => b.read j) h.slots

theorem Chip.SameSlots.engine {c c' : Chip} (h : c.SameSlots c') (j : Fin 16) : c'.engine j = c.engine j :=
  congrArg (fun b : Bank 16 Engine => b.read j) h.engines

/-- The engine writes no slot record. -/
theorem slots_keeps (c : Chip) : EngineKeeps fun c' => c'.slots = c.slots := ⟨fun _ _ h => h, fun _ _ h => h⟩

/-- Reports of a slot write the records of no slot. -/
theorem reportSlot_same (old new : SlotState) (c : Chip) : c.SameSlots (reportSlot k old new c) :=
  c.sameSlots_hub.hubOnSlot _ _ _ (c.sameSlots_keeps.fanOnSlot _ _ _ (c.sameSlots_keeps.toPowerKeeps.powerOnSlot _ _ (.refl c)))

theorem grantOnSlot_same (old new : SlotState) (c : Chip) : c.SameSlots (grantOnSlot k old new c) :=
  ite_keeps (c.sameSlots_keeps.toPowerKeeps.releaseGrant _ (.refl c)) (.refl c)

theorem queueService_sameSlots (c : Chip) : c.SameSlots (queueService c) :=
  c.sameSlots_keeps.toPowerKeeps.queueService (.refl c)

theorem slots_engineOnSlot (old new : SlotState) (c : Chip) : (engineOnSlot k old new c).slots = c.slots :=
  ite_keeps (P := fun c' => c'.slots = c.slots) ((slots_keeps c).emptyEngine _ rfl)
    (ite_keeps (P := fun c' => c'.slots = c.slots) ((slots_keeps c).clearRenegotiation _ rfl) rfl)

/-- An entry to a state, up to its reports. -/
abbrev Chip.entered (c : Chip) (k : Fin 16) (new : SlotState) (own : Slot → Slot) : Chip :=
  engineOnSlot k (c.slot k).state new (setSlot k (own ((c.slot k).enter new)) c)

theorem enterState_eq (new : SlotState) (own : Slot → Slot) (c : Chip) : enterState k new own c =
    reportSlot k (c.slot k).state new (grantOnSlot k (c.slot k).state new (c.entered k new own)) := rfl

/-- R3, R6, R7: the record of a slot that has entered a state. -/
@[simp] theorem slot_enterState (new : SlotState) (own : Slot → Slot) (c : Chip) :
    (enterState k new own c).slot k = own ((c.slot k).enter new) := by
  rw [enterState_eq, (reportSlot_same ..).slot, (grantOnSlot_same ..).slot]
  show (engineOnSlot k _ new _).slots.read k = _
  rw [slots_engineOnSlot]
  exact slot_setSlot_self ..

/-- R36, R54: the engine of a slot that has entered a state. -/
theorem engine_enterState (new : SlotState) (own : Slot → Slot) (c : Chip) :
    (enterState k new own c).engine k = (c.entered k new own).engine k := by
  rw [enterState_eq, (reportSlot_same ..).engine, (grantOnSlot_same ..).engine]

@[simp] theorem slot_raise (o : AlertObject) (x : Cause) (c : Chip) (j : Fin 16) : (raise o x c).slot j = c.slot j := rfl

theorem slot_startInterrogation (j : Fin 16) (c : Chip) : (startInterrogation k c).slot j = c.slot j :=
  congrArg (fun b : Bank 16 Slot => b.read j) ((slots_keeps c).startInterrogation k rfl)

theorem slot_startNegotiation (j : Fin 16) (c : Chip) : (startNegotiation k c).slot j = c.slot j :=
  congrArg (fun b : Bank 16 Slot => b.read j) ((slots_keeps c).startNegotiation k rfl)

theorem slot_requestShutdown (j : Fin 16) (c : Chip) : (requestShutdown k c).slot j = c.slot j :=
  congrArg (fun b : Bank 16 Slot => b.read j) ((slots_keeps c).requestShutdown k rfl)

theorem slot_emptyEngine (j : Fin 16) (c : Chip) : (emptyEngine k c).slot j = c.slot j :=
  congrArg (fun b : Bank 16 Slot => b.read j) ((slots_keeps c).emptyEngine k rfl)

theorem slot_arbitrate (j : Fin 16) (c : Chip) : (arbitrate k c).slot j = c.slot j :=
  congrArg (fun b : Bank 16 Slot => b.read j) ((slots_keeps c).arbitrate k rfl)

@[simp] theorem slot_toHeld (r : HoldReason) (c : Chip) :
    (toHeld k r c).slot k = { (c.slot k).enter .held with holdReason := some r } := slot_enterState ..

@[simp] theorem slot_toInterrogating (c : Chip) : (toInterrogating k c).slot k = (c.slot k).enter .interrogating :=
  (slot_startInterrogation ..).trans (slot_enterState ..)

@[simp] theorem slot_toNegotiating (c : Chip) : (toNegotiating k c).slot k = (c.slot k).enter .negotiating :=
  (slot_startNegotiation ..).trans (slot_enterState ..)

@[simp] theorem slot_toSeated (c : Chip) : (toSeated k c).slot k = (c.slot k).enter .seated := slot_enterState ..

/-- R17: the record of a slot that drains. -/
@[simp] theorem slot_toDraining (cause : DrainCause) (c : Chip) : (toDraining k cause c).slot k =
    { (c.slot k).enter .draining with
      drainCause := some cause, drainTimer := some (c.drainTime cause)
      pollTimer := some ((c.slot k).pollTimer.getD c.settings.pollInterval) } := by
  refine (slot_requestShutdown ..).trans ((slot_enterState ..).trans ?_)
  cases (c.slot k).pollTimer <;> rfl

@[simp] theorem slot_powerFault (c : Chip) : (powerFault k c).slot k =
    { (c.slot k).enter .held with holdReason := some .powerFault } := slot_enterState ..

/-- R18: the record of a slot that powers down with its power good asserted. -/
theorem slot_toPoweringDown (cause : Option DrainCause) (o : PdOutcome) (hg : (c.slot k).powerGood = true) :
    (toPoweringDown k cause o c).slot k = { (c.slot k).enter .poweringDown with
      drainCause := cause, outcome := some o, powerDownTimer := some Config.powerDownMs } := by
  have he := slot_enterState (k := k) .poweringDown (fun s => { s with
    drainCause := cause, outcome := some o, powerDownTimer := some Config.powerDownMs }) c
  unfold toPoweringDown
  dsimp only
  rw [if_pos (by rw [he]; exact hg)]
  exact he

/-- Table 10: the record after an outcome. -/
theorem slot_toOutcome (o : PdOutcome) (c : Chip) : (toOutcome k o c).slot k = match o with
    | .interrogating => (c.slot k).enter .interrogating
    | .heldEvicted => { (c.slot k).enter .held with holdReason := some .evicted }
    | .heldShed => { (c.slot k).enter .held with holdReason := some .shed }
    | .heldThermal => { (c.slot k).enter .held with holdReason := some .thermal }
    | .heldAdoptMismatch => { (c.slot k).enter .held with holdReason := some .adoptMismatch }
    | .heldForced => { (c.slot k).enter .held with holdReason := some .forced }
    | .heldPowerFault => { (c.slot k).enter .held with holdReason := some .powerFault } := by
  cases o
  case interrogating => exact slot_toInterrogating c
  all_goals exact slot_toHeld _ c

/-- R19: the record of a slot whose power-down is complete. -/
theorem slot_completePowerDown (c : Chip) : (completePowerDown k c).slot k =
    if (c.slot k).latch.field then (toOutcome k ((c.slot k).outcome.getD .interrogating) c).slot k
    else (c.slot k).enter .seated := by
  unfold completePowerDown
  extract_lets o c1
  have h1 : c1.slot k = if (c.slot k).latch.field then (toOutcome k o c).slot k else (c.slot k).enter .seated := by
    show (if _ then _ else _ : Chip).slot k = _
    split
    · rfl
    · exact slot_toSeated c
  rw [← h1]
  clear_value c1
  split <;> rfl

/-- R18, R19: the power-down of a slot whose power good is deasserted is complete at once. -/
theorem toPoweringDown_complete (cause : Option DrainCause) (o : PdOutcome) (hg : (c.slot k).powerGood = false) :
    toPoweringDown k cause o c = completePowerDown k (enterState k .poweringDown (fun s => { s with
      drainCause := cause, outcome := some o, powerDownTimer := some Config.powerDownMs }) c) := by
  have hp : ((enterState k .poweringDown (fun s => { s with
      drainCause := cause, outcome := some o, powerDownTimer := some Config.powerDownMs }) c).slot k).powerGood = false := by
    rw [slot_enterState]
    exact hg
  unfold toPoweringDown
  dsimp only
  rw [hp]
  rfl

/-- R37: a slot that enters INTERROGATING starts its interrogation, and sends the first page on a free link. -/
theorem engine_startPhase_arbitrate {phase : Phase} (hp : phase ≠ .idle) (c : Chip) :
    ((arbitrate k (startPhase k phase c)).engine k).phase = phase ∧
      ((c.engine k).inFlight = none → (c.engine k).quiet = false →
        ((arbitrate k (startPhase k phase c)).engine k).inFlight =
          sentPage (if phase = .interrogation then .interrogate else .negotiate) false) := by
  have he : (startPhase k phase c).engine k =
      { c.engine k with phase := phase, toggle := false, responses := 0, draft := some .fresh } := engine_setEngine_self ..
  by_cases hb : (c.engine k).inFlight.isSome = true ∨ (c.engine k).quiet = true
  · have ha : arbitrate k (startPhase k phase c) = startPhase k phase c := if_pos (by simpa [he] using hb)
    rw [ha, he]
    refine ⟨rfl, fun hx hq => ?_⟩
    simp [hx, hq] at hb
  · have ha : arbitrate k (startPhase k phase c) =
        send k (phasePage ((startPhase k phase c).engine k)) ((startPhase k phase c).engine k).toggle (startPhase k phase c) := by
      unfold arbitrate
      dsimp only
      rw [if_neg (by simpa [he] using hb), if_pos (by rw [he]; exact hp)]
    rw [ha, send, modEngine, engine_setEngine_self, he]
    exact ⟨rfl, fun _ _ => rfl⟩

/-- The engine of a slot that enters INTERROGATING. -/
theorem engine_toInterrogating (c : Chip) : ((toInterrogating k c).engine k).phase = .interrogation ∧
    (((c.entered k .interrogating id).engine k).inFlight = none → ((c.entered k .interrogating id).engine k).quiet = false →
      ((toInterrogating k c).engine k).inFlight = sentPage .interrogate false) := by
  have h := engine_startPhase_arbitrate (k := k) (phase := .interrogation) (by decide) (enterState k .interrogating id c)
  rw [engine_enterState] at h
  exact h

/-- R54: an entry to a state whose list is kept leaves the exchange in flight and the quiet period. -/
theorem engine_entered_of_keeps {new : SlotState} (own : Slot → Slot) (hn : new.keepsListEmpty = false) :
    (c.entered k new own).engine k =
      if (c.slot k).state = .running then { c.engine k with renegRequest := false } else c.engine k := by
  unfold Chip.entered engineOnSlot
  rw [hn, if_neg (by decide)]
  split
  · exact engine_setEngine_self ..
  · rfl

end Sys2Proof.Machine

/-!
PROOF. The debounced inputs of a slot (R4, R8, R20 to R22): a level that is taken moves the slot by its state, and no move
changes an input.
-/

namespace Sys2Proof.Machine

variable {c : Chip} {k : Fin 16}

/-! ## Inputs stay (R4, R5) -/

/-- Two records with the same inputs. -/
structure Slot.SamePins (s s' : Slot) : Prop where
  early : s'.early = s.early
  late : s'.late = s.late
  latch : s'.latch = s.latch
  powerGood : s'.powerGood = s.powerGood

theorem Slot.SamePins.refl (s : Slot) : s.SamePins s := ⟨rfl, rfl, rfl, rfl⟩

theorem Slot.SamePins.trans {s s' s'' : Slot} (h : s.SamePins s') (h' : s'.SamePins s'') : s.SamePins s'' :=
  ⟨h'.early.trans h.early, h'.late.trans h.late, h'.latch.trans h.latch, h'.powerGood.trans h.powerGood⟩

theorem samePins_enterState (new : SlotState) {own : Slot → Slot} (ho : ∀ s : Slot, s.SamePins (own s)) (c : Chip) :
    (c.slot k).SamePins ((enterState k new own c).slot k) := by
  rw [slot_enterState]
  have h := ho ((c.slot k).enter new)
  exact ⟨h.early, h.late, h.latch, h.powerGood⟩

theorem samePins_toHeld (r : HoldReason) (c : Chip) : (c.slot k).SamePins ((toHeld k r c).slot k) := by
  rw [slot_toHeld]
  exact ⟨rfl, rfl, rfl, rfl⟩

theorem samePins_toInterrogating (c : Chip) : (c.slot k).SamePins ((toInterrogating k c).slot k) := by
  rw [slot_toInterrogating]
  exact ⟨rfl, rfl, rfl, rfl⟩

theorem samePins_toSeated (c : Chip) : (c.slot k).SamePins ((toSeated k c).slot k) :=
  samePins_enterState .seated (fun s => .refl s) c

theorem samePins_toDraining (cause : DrainCause) (c : Chip) : (c.slot k).SamePins ((toDraining k cause c).slot k) := by
  rw [slot_toDraining]
  exact ⟨rfl, rfl, rfl, rfl⟩

theorem samePins_powerFault (c : Chip) : (c.slot k).SamePins ((powerFault k c).slot k) := by
  rw [slot_powerFault]
  exact ⟨rfl, rfl, rfl, rfl⟩

theorem samePins_toOutcome (o : PdOutcome) (c : Chip) : (c.slot k).SamePins ((toOutcome k o c).slot k) := by
  cases o
  case interrogating => exact samePins_toInterrogating c
  all_goals exact samePins_toHeld _ c

theorem samePins_completePowerDown (c : Chip) : (c.slot k).SamePins ((completePowerDown k c).slot k) := by
  rw [slot_completePowerDown]
  split
  · exact samePins_toOutcome _ c
  · exact ⟨rfl, rfl, rfl, rfl⟩

theorem samePins_toPoweringDown (cause : Option DrainCause) (o : PdOutcome) (c : Chip) :
    (c.slot k).SamePins ((toPoweringDown k cause o c).slot k) := by
  cases hg : (c.slot k).powerGood with
  | true =>
    rw [slot_toPoweringDown _ _ hg]
    exact ⟨rfl, rfl, rfl, rfl⟩
  | false =>
    rw [toPoweringDown_complete _ _ hg]
    have h1 := samePins_enterState (k := k) .poweringDown (own := fun s => { s with
      drainCause := cause, outcome := some o, powerDownTimer := some Config.powerDownMs }) (fun _ => ⟨rfl, rfl, rfl, rfl⟩) c
    exact h1.trans (samePins_completePowerDown _)

theorem samePins_drainAdopting (cause : DrainCause) (c : Chip) : (c.slot k).SamePins ((drainAdopting k cause c).slot k) := by
  have h := samePins_toDraining (k := k) ((c.slot k).adoptCause.getD cause) (emptyEngine k c)
  rwa [slot_emptyEngine] at h

theorem samePins_latchOpened (c : Chip) : (c.slot k).SamePins ((latchOpened k c).slot k) := by
  unfold latchOpened
  cases (c.slot k).state
  case powering | starting => exact samePins_toPoweringDown _ _ c
  case running => exact samePins_toDraining _ c
  case adopting => exact samePins_drainAdopting _ c
  case empty | seated | draining | poweringDown => exact .refl _
  all_goals exact samePins_toSeated c

theorem samePins_latchClosed (c : Chip) : (c.slot k).SamePins ((latchClosed k c).slot k) := by
  unfold latchClosed
  split
  · exact samePins_toInterrogating c
  · exact .refl _

theorem samePins_contactMade (c : Chip) : (c.slot k).SamePins ((contactMade k c).slot k) := by
  unfold contactMade
  dsimp only
  split
  · split
    · exact samePins_toInterrogating c
    · exact samePins_toSeated c
  · exact .refl _

theorem slots_vacate (l : Location) (c : Chip) : (vacate l c).slots = c.slots := by
  unfold vacate
  split
  · rfl
  · split <;> rfl

/-- R22, R23: the record of a slot whose blade has left. -/
theorem slot_toEmpty (c : Chip) : (toEmpty k c).slot k = (c.slot k).enter .empty := by
  have h := slot_enterState (k := k) .empty id c
  unfold toEmpty
  dsimp only
  split
  · exact (congrArg (fun b : Bank 16 Slot => b.read k) (slots_vacate _ _)).trans h
  · exact h

theorem contactLost_eq (hs : (c.slot k).state ≠ .empty) : contactLost k c =
    if (c.slot k).state.powered then raise (.slot k) .surpriseRemoval (toEmpty k c) else toEmpty k c := if_neg hs

theorem slot_contactLost (hs : (c.slot k).state ≠ .empty) : (contactLost k c).slot k = (c.slot k).enter .empty := by
  rw [contactLost_eq hs]
  split
  · exact slot_toEmpty c
  · exact slot_toEmpty c

theorem samePins_contactLost (c : Chip) : (c.slot k).SamePins ((contactLost k c).slot k) := by
  by_cases hs : (c.slot k).state = .empty
  · rw [contactLost, if_pos hs]
    exact .refl _
  · rw [slot_contactLost hs]
    exact ⟨rfl, rfl, rfl, rfl⟩

/-! ## A debounced level (R4) -/

/-- R4: the field of an input takes the level of its pin. -/
abbrev Chip.debounced (c : Chip) (k : Fin 16) (i : SlotInput) : Chip :=
  setSlot k ((c.slot k).putInput i ((c.slot k).input i).expire) c

theorem slotDebounced_eq {i : SlotInput} {made lost : Chip → Chip} (ht : ((c.slot k).input i).timer = true) :
    slotDebounced k i made lost c = if ((c.slot k).input i).pin = ((c.slot k).input i).field then c.debounced k i
      else if ((c.slot k).input i).pin = true then made (c.debounced k i) else lost (c.debounced k i) := if_pos ht

theorem slotDebounced_made {i : SlotInput} {made lost : Chip → Chip} (ht : ((c.slot k).input i).timer = true)
    (hp : ((c.slot k).input i).pin = true) (hf : ((c.slot k).input i).field = false) :
    slotDebounced k i made lost c = made (c.debounced k i) := by
  rw [slotDebounced_eq ht, hp, hf, if_neg (by decide), if_pos rfl]

theorem slotDebounced_lost {i : SlotInput} {made lost : Chip → Chip} (ht : ((c.slot k).input i).timer = true)
    (hp : ((c.slot k).input i).pin = false) (hf : ((c.slot k).input i).field = true) :
    slotDebounced k i made lost c = lost (c.debounced k i) := by
  rw [slotDebounced_eq ht, hp, hf, if_neg (by decide), if_neg (by decide)]

theorem slot_debounced (i : SlotInput) : (c.debounced k i).slot k = (c.slot k).putInput i ((c.slot k).input i).expire :=
  slot_setSlot_self ..

/-- What an expiry leaves of the slot: its inputs are those of the debounced slot, and the other slots stay. -/
theorem debounceExpiry_writes {s : State} {i : SlotInput} {made lost : Chip → Chip} (hq : s.chip.quiescent)
    (ht : ((s.chip.slot k).input i).timer = true) (hm : ∀ c : Chip, (c.slot k).SamePins ((made c).slot k))
    (hl : ∀ c : Chip, (c.slot k).SamePins ((lost c).slot k)) (hkm : ∀ c, s.chip.onlySlot k c → s.chip.onlySlot k (made c))
    (hkl : ∀ c, s.chip.onlySlot k c → s.chip.onlySlot k (lost c)) :
    ((s.chip.debounced k i).slot k).SamePins ((queueService (slotDebounced k i made lost s.chip)).slot k) ∧
      s.chip.onlySlot k (queueService (slotDebounced k i made lost s.chip)) ∧
      (((s.chip.slot k).input i).pin = ((s.chip.slot k).input i).field →
        queueService (slotDebounced k i made lost s.chip) = s.chip.debounced k i) := by
  have hk := onlySlot_keeps k s.chip
  refine ⟨?_, hk.queueService (hk.slotDebounced i hkm hkl (Chip.onlySlotRecord_refl k s.chip).1), fun he => ?_⟩
  · rw [(queueService_sameSlots _).slot, slotDebounced_eq ht]
    split
    · exact .refl _
    · split
      · exact hm _
      · exact hl _
  · rw [slotDebounced_eq ht, if_pos he]
    exact queueService_of_settled (c := s.chip.debounced k i) hq.1 hq.2

theorem onlySlot_contactMade {c' : Chip} (h : c.onlySlot k c') : c.onlySlot k (contactMade k c') :=
  (onlySlot_keeps k c).contactMade h

theorem onlySlot_contactLost {c' : Chip} (h : c.onlySlot k c') : c.onlySlot k (contactLost k c') :=
  (onlySlot_keeps k c).contactLost (fun _ hx => onlySlot_vacate _ hx) h

/-- Settles O6, input by input. -/
theorem debounceExpiryWritesField : Obligations.DebounceExpiryWritesField := by
  intro s k hq
  have contact {i : SlotInput} (ht : ((s.chip.slot k).input i).timer = true) :=
    debounceExpiry_writes (k := k) (i := i) (made := contactMade k) (lost := contactLost k) hq ht
      samePins_contactMade samePins_contactLost (fun _ hx => onlySlot_contactMade hx) (fun _ hx => onlySlot_contactLost hx)
  refine ⟨fun ht => ?_, fun ht => ?_, fun ht => ?_⟩
  · obtain ⟨hpins, honly, hsame⟩ := contact (i := .early) ht
    refine ⟨_, rfl, hpins.early.trans ?_, honly, hsame⟩
    rw [slot_debounced]
    rfl
  · obtain ⟨hpins, honly, hsame⟩ := contact (i := .late) ht
    refine ⟨_, rfl, hpins.late.trans ?_, honly, hsame⟩
    rw [slot_debounced]
    rfl
  · have hk := onlySlot_keeps k s.chip
    obtain ⟨hpins, honly, hsame⟩ := debounceExpiry_writes (k := k) (i := .latch) (made := latchClosed k)
      (lost := latchOpened k) hq ht samePins_latchClosed samePins_latchOpened (fun _ hx => hk.latchClosed hx)
      (fun _ hx => hk.latchOpened hx)
    refine ⟨_, rfl, hpins.latch.trans ?_, honly, hsame⟩
    rw [slot_debounced]
    rfl

/-! ## Contacts made (R8) -/

/-- R8: with both contacts PRESENT an empty slot moves by its latch. -/
theorem contactMade_of_empty (hs : (c.slot k).state = .empty) (he : (c.slot k).early.field = true)
    (hl : (c.slot k).late.field = true) : contactMade k c =
      if (c.slot k).latch.field then toInterrogating k c else toSeated k c := if_pos ⟨hs, he, hl⟩

theorem engine_entered_of_ne_running {new : SlotState} (own : Slot → Slot) (hn : new.keepsListEmpty = false)
    (hs : (c.slot k).state ≠ .running) : (c.entered k new own).engine k = c.engine k := by
  rw [engine_entered_of_keeps own hn, if_neg hs]

/-- R8, R37: what the making of the second contact leaves. -/
theorem contactMade_admits (hs : (c.slot k).state = .empty) (he : (c.slot k).early.field = true)
    (hl : (c.slot k).late.field = true) :
    ((c.slot k).latch.field = false → ((queueService (contactMade k c)).slot k).state = .seated) ∧
    ((c.slot k).latch.field = true → ((queueService (contactMade k c)).slot k).state = .interrogating ∧
      ((queueService (contactMade k c)).engine k).phase = .interrogation ∧
      ((c.engine k).inFlight = none → (c.engine k).quiet = false →
        ((queueService (contactMade k c)).engine k).inFlight = sentPage .interrogate false)) := by
  rw [(queueService_sameSlots _).slot, (queueService_sameSlots _).engine, contactMade_of_empty hs he hl]
  refine ⟨fun hl => ?_, fun hl => ?_⟩
  · rw [hl, if_neg (by decide), slot_toSeated]
    rfl
  · have hx := engine_toInterrogating (k := k) c
    rw [engine_entered_of_ne_running id rfl (by rw [hs]; decide)] at hx
    rw [hl, if_pos rfl, slot_toInterrogating]
    exact ⟨rfl, hx⟩

/-- Settles O7, contact by contact. -/
theorem contactsMadeBeginAdmission : Obligations.ContactsMadeBeginAdmission := by
  intro s k x r moved other hs ht hp hf ho
  have hrec := onlySlotRecord_keeps k s.chip
  cases x with
  | early =>
    have hevent := slotDebounced_made (c := s.chip) (k := k) (i := .early) (made := contactMade k) (lost := contactLost k) ht hp hf
    obtain ⟨hseated, hinter⟩ := contactMade_admits (c := s.chip.debounced k .early) (k := k)
      (by rw [slot_debounced]; exact hs) (by rw [slot_debounced]; exact hp) (by rw [slot_debounced]; exact ho)
    rw [slot_debounced] at hseated hinter
    exact ⟨_, congrArg (fun c => (Host.Outcome.next (s.onChip (queueService c)) : Result)) hevent, hseated, hinter,
      hrec.queueService (hrec.contactMade (hrec.slot _ _ (Chip.onlySlotRecord_refl k s.chip)))⟩
  | late =>
    have hevent := slotDebounced_made (c := s.chip) (k := k) (i := .late) (made := contactMade k) (lost := contactLost k) ht hp hf
    obtain ⟨hseated, hinter⟩ := contactMade_admits (c := s.chip.debounced k .late) (k := k)
      (by rw [slot_debounced]; exact hs) (by rw [slot_debounced]; exact ho) (by rw [slot_debounced]; exact hp)
    rw [slot_debounced] at hseated hinter
    exact ⟨_, congrArg (fun c => (Host.Outcome.next (s.onChip (queueService c)) : Result)) hevent, hseated, hinter,
      hrec.queueService (hrec.contactMade (hrec.slot _ _ (Chip.onlySlotRecord_refl k s.chip)))⟩

/-! ## The latch (Table 9, R20, R21) -/

/-- Table 9: with its power good deasserted a slot in POWERING or STARTING is seated at once. -/
theorem toPoweringDown_seats (cause : Option DrainCause) (o : PdOutcome) (hl : (c.slot k).latch.field = false)
    (hg : (c.slot k).powerGood = false) : (toPoweringDown k cause o c).slot k = { (c.slot k).enter .seated with
      terms := none, switchClosed := false } := by
  rw [toPoweringDown_complete _ _ hg, slot_completePowerDown, slot_enterState]
  have hlatch : ({ (c.slot k).enter .poweringDown with
    drainCause := cause, outcome := some o, powerDownTimer := some Config.powerDownMs } : Slot).latch.field = false := hl
  rw [hlatch, if_neg (by decide)]
  rfl

/-- Settles O9, by the level and the state. -/
theorem latchChangeByState : Obligations.LatchChangeByState := by
  refine ⟨fun s k ht hp hf => ?_, fun s k ht hp hf => ?_⟩
  all_goals
    have hrec := onlySlotRecord_keeps k s.chip
    have hstart := hrec.slot { s.chip.slot k with latch := (s.chip.slot k).latch.expire } s.chip
      (Chip.onlySlotRecord_refl k s.chip)
    have hc : (s.chip.debounced k .latch).slot k = { s.chip.slot k with latch := (s.chip.slot k).latch.expire } :=
      slot_debounced .latch
    have hl : ((s.chip.debounced k .latch).slot k).latch.field = (s.chip.slot k).latch.pin := by
      rw [hc]
      rfl
    have hst : ((s.chip.debounced k .latch).slot k).state = (s.chip.slot k).state := by rw [hc]
  · have hevent := slotDebounced_lost (c := s.chip) (k := k) (i := .latch) (made := latchClosed k) (lost := latchOpened k) ht hp hf
    rw [hp] at hl
    have hslot := (queueService_sameSlots (latchOpened k (s.chip.debounced k .latch))).slot k
    refine ⟨_, congrArg (fun c => (Host.Outcome.next (s.onChip (queueService c)) : Result)) hevent, ?_, ?_,
      hrec.queueService (hrec.latchOpened hstart)⟩
    · refine (congrArg (fun r : Slot => r.latch.field) hslot).trans ?_
      exact (congrArg Debounced.field (samePins_latchOpened _).latch).trans hl
    · dsimp only [State.onChip]
      rw [hslot]
      cases hs : (s.chip.slot k).state
      case powering | starting =>
        have he : latchOpened k (s.chip.debounced k .latch) =
            toPoweringDown k (some .latch) .interrogating (s.chip.debounced k .latch) := by
          simp only [latchOpened, hst.trans hs]
        rw [he]
        cases hg : (s.chip.slot k).powerGood with
        | true =>
          rw [slot_toPoweringDown _ _ (by rw [hc]; exact hg)]
          exact ⟨rfl, rfl, rfl, rfl, rfl⟩
        | false =>
          rw [toPoweringDown_seats _ _ hl (by rw [hc]; exact hg)]
          exact ⟨rfl, rfl⟩
      case running =>
        have he : latchOpened k (s.chip.debounced k .latch) = toDraining k .latch (s.chip.debounced k .latch) := by
          simp only [latchOpened, hst.trans hs]
        rw [he, slot_toDraining]
        exact ⟨rfl, rfl, rfl, rfl, rfl⟩
      case adopting =>
        have he : latchOpened k (s.chip.debounced k .latch) = toDraining k
            (((s.chip.debounced k .latch).slot k).adoptCause.getD .latch) (emptyEngine k (s.chip.debounced k .latch)) := by
          simp only [latchOpened, hst.trans hs]
          rfl
        rw [he, slot_toDraining, hc]
        exact ⟨rfl, rfl, rfl, rfl⟩
      case empty | seated | draining | poweringDown =>
        have he : latchOpened k (s.chip.debounced k .latch) = s.chip.debounced k .latch := by
          simp only [latchOpened, hst.trans hs]
        rw [he]
        change (s.chip.debounced k .latch).slot k = _
        rw [hc, ← hs]
      all_goals
        have he : latchOpened k (s.chip.debounced k .latch) = toSeated k (s.chip.debounced k .latch) := by
          simp only [latchOpened, hst.trans hs]
        rw [he, slot_toSeated, hc]
        exact ⟨rfl, rfl, rfl, rfl⟩
  · have hevent := slotDebounced_made (c := s.chip) (k := k) (i := .latch) (made := latchClosed k) (lost := latchOpened k) ht hp hf
    rw [hp] at hl
    have hsame := queueService_sameSlots (latchClosed k (s.chip.debounced k .latch))
    refine ⟨_, congrArg (fun c => (Host.Outcome.next (s.onChip (queueService c)) : Result)) hevent, ?_, fun hs => ?_,
      fun hs => ?_, hrec.queueService (hrec.latchClosed hstart)⟩
    · refine (congrArg (fun r : Slot => r.latch.field) (hsame.slot k)).trans ?_
      exact (congrArg Debounced.field (samePins_latchClosed _).latch).trans hl
    · have he : latchClosed k (s.chip.debounced k .latch) = toInterrogating k (s.chip.debounced k .latch) :=
        if_pos (hst.trans hs)
      rw [he] at hsame ⊢
      exact ⟨(congrArg Slot.state ((hsame.slot k).trans (slot_toInterrogating _))),
        (congrArg Engine.phase (hsame.engine k)).trans (engine_toInterrogating _).1⟩
    · have he : latchClosed k (s.chip.debounced k .latch) = s.chip.debounced k .latch := if_neg (by rw [hst]; exact hs)
      rw [he] at hsame ⊢
      exact ⟨(hsame.slot k).trans hc, hsame.engine k⟩

end Sys2Proof.Machine

/-!
PROOF. The answers to the exchanges of the pending list (R45 to R50): an answered POLL, an ACK_PAGE, and what a failed
exchange does.
-/

namespace Sys2Proof.Machine

variable {k : Fin 16} {c : Chip}

/-! ## An answered POLL (R50, R17) -/

/-- R50, R52: the record of a slot after an answered POLL, its draw judged against a grant. -/
def Slot.polled (st : BladeStatus) (grant : Nat) (s : Slot) : Slot :=
  { s with lastStatus := some st, silence := 0, silent := false, overdraw := judgeDraw grant st.measured s.overdraw }

/-- R50: the part after an answered POLL, before the end of a drain. -/
def Chip.polled (c : Chip) (k : Fin 16) (st : BladeStatus) : Chip :=
  let c := c
    |> modSlot k (fun s => { s with lastStatus := some st, silence := 0, silent := false })
    |> fanOnStatus k
    |> takeDraw k st.measured
  if st.fault = .degraded ∨ st.fault = .offline then raise (.slot k) .degraded c else c

theorem takeStatus_eq (st : BladeStatus) (c : Chip) : takeStatus k st c =
    if st.halted ∧ ((c.polled k st).slot k).state = .draining then endDrain k (c.polled k st) else c.polled k st := rfl

theorem slot_takeDraw (draw : Nat) (c : Chip) : (takeDraw k draw c).slot k =
    { c.slot k with overdraw := judgeDraw (c.grant k).grant draw (c.slot k).overdraw } := by
  unfold takeDraw
  extract_lets old new c1
  have h1 : c1.slot k = { c.slot k with overdraw := judgeDraw (c.grant k).grant draw (c.slot k).overdraw } :=
    slot_setSlot_self ..
  split
  · exact h1
  · exact h1

/-- R50, R52: the record after an answered POLL. -/
theorem slot_polled (st : BladeStatus) (c : Chip) :
    (c.polled k st).slot k = (c.slot k).polled st (c.grant k).grant := by
  unfold Chip.polled
  extract_lets c1
  have h1 : (modSlot k (fun s => { s with lastStatus := some st, silence := 0, silent := false }) c).slot k =
      { c.slot k with lastStatus := some st, silence := 0, silent := false } := slot_setSlot_self _ _ _
  have h2 : c1.slot k = (c.slot k).polled st (c.grant k).grant := by
    refine (slot_takeDraw _ _).trans ?_
    rw [show ∀ c', ((fanOnStatus k c').grant k).grant = (c'.grant k).grant from
        fun _ => congrArg Prod.snd (fanOnStatus_judged k),
      show ∀ c', (fanOnStatus k c').slot k = c'.slot k from
        fun c' => (c'.sameSlots_keeps.fanOnStatus k (.refl c')).slot k, h1]
    rfl
  split
  · exact h2
  · exact h2

/-- R50, Table 73: the values that a STATUS page of eight bytes carries, when they are in their ranges. -/
theorem status_of_ranges (n : Nat) (flags check : Byte) {margin d1 d0 : Byte} (halted : Bool)
    (hm : margin.toNat ≤ 127) (hd : d1.toNat * 256 + d0.toNat ≤ 4095) :
    (readPage [20, flags, 4, margin, d1, d0, if halted then 1 else 0, check]).status n =
      some { margin := margin.toNat, measured := d1.toNat * 256 + d0.toNat,
             fault := (readPage [20, flags, 4, margin, d1, d0, if halted then 1 else 0, check]).fault,
             halted := halted } := by
  have hn : number [d1, d0] = d1.toNat * 256 + d0.toNat := by simp [number]
  have hstatus : (readPage [20, flags, 4, margin, d1, d0, if halted then 1 else 0, check]).status n =
      some { margin := if margin.toNat ≤ 127 then margin.toNat else (Config.freeMargin n).toNat,
             measured := if number [d1, d0] ≤ 4095 then number [d1, d0] else (Config.freeDraw n).toNat,
             fault := (readPage [20, flags, 4, margin, d1, d0, if halted then 1 else 0, check]).fault,
             halted := if (if halted then 1 else 0 : Byte) = 0 then false
               else if (if halted then 1 else 0 : Byte) = 1 then true else Config.freeHalted n } := rfl
  rw [hstatus, hn, if_pos hm, if_pos hd]
  cases halted <;> rfl

/-- R32: the part in which a page is judged once its POLL has ended. -/
theorem slotPage_status {x : Exchange} {page : List Byte} {st : BladeStatus} (hx : (c.engine k).inFlight = some x)
    (hp : x.request = .poll) (hsum : byteSum page = 0) (hst : (readPage page).status c.statusPages = some st) :
    slotPage k page c =
      arbitrate k (takeStatus k st (endExchange k false (setStatusPages (c.statusPages + 1) c))) := by
  rw [slotPage_of_inFlight _ hx, if_pos (checkPasses_iff.2 hsum), takePage_poll hp]
  unfold statusPage
  rw [hst]

/-- The events of a link page reach no other slot and no inventory record, but for an interrogation that ends. -/
theorem onlySlotRecord_slotPage_status {x : Exchange} {page : List Byte} {st : BladeStatus}
    (hx : (c.engine k).inFlight = some x) (hp : x.request = .poll) (hsum : byteSum page = 0)
    (hst : (readPage page).status c.statusPages = some st) :
    c.onlySlotRecord k (queueService (slotPage k page c)) := by
  have h := onlySlotRecord_keeps k c
  rw [slotPage_status hx hp hsum hst]
  exact h.queueService (h.arbitrate (h.takeStatus _ (h.endExchange _ (h.statusPages _ _ (c.onlySlotRecord_refl k)))))

/-- R17: the record of a slot whose drain ends with its power good asserted. -/
theorem slot_endDrain (hg : (c.slot k).powerGood = true) : (endDrain k c).slot k =
    { (c.slot k).enter .poweringDown with
      drainCause := some ((c.slot k).drainCause.getD .latch), outcome := some ((c.slot k).drainCause.getD .latch).outcome
      powerDownTimer := some Config.powerDownMs } := slot_toPoweringDown _ _ hg

/-- Settles O18, from the record after an answered POLL and the end of a drain. -/
theorem statusPageUpdatesSlot : Obligations.StatusPageUpdatesSlot := by
  unfold Obligations.StatusPageUpdatesSlot
  intro s k x flags margin d1 d0 check halted hx hp hm hd page draw old status hsum
  have hst : (readPage page).status s.chip.statusPages = some status := status_of_ranges _ flags check halted hm hd
  have honly := onlySlotRecord_slotPage_status hx hp hsum hst
  have hslot : (queueService (slotPage k page s.chip)).slot k =
      (takeStatus k status (endExchange k false (setStatusPages (s.chip.statusPages + 1) s.chip))).slot k := by
    rw [(queueService_sameSlots _).slot, slotPage_status hx hp hsum hst, slot_arbitrate]
  have hpolled := slot_polled (k := k) status (endExchange k false (setStatusPages (s.chip.statusPages + 1) s.chip))
  have hs' : (endExchange k false (setStatusPages (s.chip.statusPages + 1) s.chip)).slot k = s.chip.slot k := rfl
  have hg' : (endExchange k false (setStatusPages (s.chip.statusPages + 1) s.chip)).grant k = s.chip.grant k := rfl
  rw [hs', hg'] at hpolled
  rw [takeStatus_eq] at hslot
  refine ⟨fun hs => ⟨_, exec_slotPageReceived .., ?_, honly⟩, fun cause hs hh hc hg => ⟨_, exec_slotPageReceived .., ?_, honly⟩⟩
  · rw [if_neg] at hslot
    · exact hslot.trans hpolled
    · rw [hpolled]
      rintro ⟨hh, hst'⟩
      rcases hs with hr | ⟨-, hn⟩
      · exact absurd (hr.symm.trans hst') (by decide)
      · exact absurd (hn.symm.trans hh) (by decide)
  · rw [if_pos ⟨hh, by rw [hpolled]; exact hs⟩, slot_endDrain (by rw [hpolled]; exact hg), hpolled] at hslot
    have hd' : (((s.chip.slot k).polled status (s.chip.grant k).grant).drainCause.getD .latch) = cause := by
      show (s.chip.slot k).drainCause.getD .latch = cause
      rw [hc]
      rfl
    rw [hd'] at hslot
    dsimp only [State.onChip]
    rw [hslot]
    refine ⟨rfl, rfl, rfl, rfl, rfl, rfl, rfl, rfl, ?_⟩
    cases cause <;> rfl

/-! ## What the choice of a link writes (R35) -/

/-- R35 step 4: only the engine is written, and its quiet period is kept. -/
theorem sendPending_writes (k : Fin 16) (c : Chip) :
    ∃ e : Engine, sendPending k c = setEngine k e c ∧ e.quiet = (c.engine k).quiet := by
  unfold sendPending
  dsimp only
  split
  · exact ⟨_, send_setEngine .., rfl⟩
  · split
    case h_4 =>
      split
      · exact ⟨_, send_setEngine .., rfl⟩
      · exact ⟨_, (setEngine_engine k c).symm, rfl⟩
    all_goals exact ⟨_, send_setEngine .., rfl⟩

theorem sendRenegotiationOrPending_writes (k : Fin 16) (c : Chip) :
    ∃ e : Engine, sendRenegotiationOrPending k c = setEngine k e c ∧ e.quiet = (c.engine k).quiet := by
  unfold sendRenegotiationOrPending
  split
  · refine ⟨{ c.engine k with
      renegRequest := false, phase := .renegotiation, toggle := false, responses := 0, draft := some .fresh,
      inFlight := sentPage .negotiate false }, ?_, rfl⟩
    simp [send, startPhase, modEngine, sentPage]
  · exact sendPending_writes k c

/-- R35: a link that chooses writes its own engine, keeps its quiet period, and posts at most reports. -/
theorem arbitrate_writes (k : Fin 16) (c : Chip) :
    ∃ (e : Engine) (l : List Instr), arbitrate k c = (setEngine k e c).posting l ∧ e.quiet = (c.engine k).quiet := by
  unfold arbitrate
  dsimp only
  split
  · exact ⟨c.engine k, [], by rw [posting_nil, setEngine_engine], rfl⟩
  · split
    · exact ⟨_, [], (posting_nil _).symm, rfl⟩
    · split
      · split
        · exact ⟨_, [], (send_setEngine ..).trans (posting_nil _).symm, rfl⟩
        · obtain ⟨e, he, hq⟩ := sendRenegotiationOrPending_writes k
            (post (.settlementReport k .settled) (setEngine k { c.engine k with settlement := none } c))
          refine ⟨e, [.settlementReport k .settled], he.trans ?_, ?_⟩
          · rw [post_eq_posting, setEngine_posting, setEngine_setEngine]
          · rw [hq, post_eq_posting, engine_posting, engine_setEngine_self]
      · obtain ⟨e, he, hq⟩ := sendRenegotiationOrPending_writes k c
        exact ⟨e, [], he.trans (posting_nil _).symm, hq⟩

theorem quiet_arbitrate (k : Fin 16) (c : Chip) : ((arbitrate k c).engine k).quiet = (c.engine k).quiet := by
  obtain ⟨e, l, ha, hq⟩ := arbitrate_writes k c
  rw [ha, engine_posting, engine_setEngine_self, hq]

/-! ## Messages stand until they are taken -/

/-- A message posted stands in the messages. -/
theorem mem_messages_post (m : Instr) (c : Chip) : m ∈ (post m c).messages := by
  show m ∈ c.messages ++ [m]
  simp

theorem mem_messages_posting {m : Instr} (l : List Instr) (hm : m ∈ c.messages) : m ∈ (c.posting l).messages :=
  List.mem_append_left _ hm

theorem mem_messages_arbitrate {m : Instr} (k : Fin 16) (hm : m ∈ c.messages) : m ∈ (arbitrate k c).messages := by
  obtain ⟨e, l, ha, -⟩ := arbitrate_writes k c
  rw [ha]
  exact mem_messages_posting l hm

theorem mem_messages_serveHead {m : Instr} {e : QueueEntry} {c' : Chip} (hs : serveHead e c = some c') (hm : m ∈ c.messages) :
    m ∈ c'.messages := by
  have hserve (k : Fin 16) (g : Nat) (s : CapSet) : m ∈ (serveAdmission k g s c).messages := mem_messages_posting [_] hm
  have huplift (k : Fin 16) : m ∈ (serveUplift k c).messages := mem_messages_posting [_] hm
  unfold serveHead at hs
  split at hs
  · split at hs
    · exact Option.some.inj hs ▸ hserve _ _ _
    · split at hs
      · exact Option.some.inj hs ▸ hserve _ _ _
      · exact nomatch hs
  · split at hs
    · exact Option.some.inj hs ▸ huplift _
    · exact nomatch hs

theorem mem_messages_serveQueue {m : Instr} (q : List QueueEntry) :
    ∀ c : Chip, m ∈ c.messages → m ∈ (serveQueue q c).messages := by
  induction q with
  | nil => exact fun _ hm => hm
  | cons e rest ih =>
    intro c hm
    unfold serveQueue
    split
    · rename_i c' hs
      exact ih c' (mem_messages_serveHead hs hm)
    · exact hm

theorem mem_messages_queueService {m : Instr} (hm : m ∈ c.messages) : m ∈ (queueService c).messages := by
  have h : m ∈ (if c.power.serviceDue = true ∧ c.power.shed.isEmpty = true then serveQueue c.power.queue c else c).messages := by
    split
    · exact mem_messages_serveQueue _ _ hm
    · exact hm
  exact h

/-! ## An ACK_PAGE (R45 to R47) -/

/-- The requests that an ACK_PAGE answers. -/
def PageRequest.acked : PageRequest → Bool
  | .grant _ _ | .channelGrant _ _ | .cap _ | .uncap _ | .shutdown => true
  | .interrogate | .negotiate | .next | .poll => false

/-- R47: an ACK_PAGE against its exchange. -/
theorem slotPage_ack {x : Exchange} {page : List Byte} (hx : (c.engine k).inFlight = some x) (hr : x.request.acked = true)
    (hsum : byteSum page = 0) (hkind : (readPage page).kind = 19) (hpay : (readPage page).payload = []) :
    slotPage k page c = arbitrate k (takeAck k x.request (readPage page).accepts
      (raiseDegraded k (readPage page).fault (endExchange k false c))) := by
  have ha : (readPage page).isAck = true := decide_eq_true ⟨hkind, hpay⟩
  rw [slotPage_of_inFlight _ hx, if_pos (checkPasses_iff.2 hsum)]
  have htake : takePage k x (readPage page) c = ackPage k x (readPage page) c := by
    unfold takePage
    cases hreq : x.request <;> simp [hreq, PageRequest.acked] at hr <;> rfl
  rw [htake, ackPage, if_pos ha]

/-- A raise of DEGRADED for a page's fault stands until the end of the event. -/
theorem alerted_raiseDegraded {f : FaultCode} (hf : f = .degraded) (c : Chip) :
    (raiseDegraded k f c).alerted (.slot k) .degraded := by
  rw [raiseDegraded, if_pos hf]
  exact alerted_raise _ _ _

@[simp] theorem slot_raiseDegraded (f : FaultCode) (c : Chip) (j : Fin 16) : (raiseDegraded k f c).slot j = c.slot j := by
  unfold raiseDegraded
  split <;> rfl

@[simp] theorem engine_raiseDegraded (f : FaultCode) (c : Chip) (j : Fin 16) :
    (raiseDegraded k f c).engine j = c.engine j := by
  unfold raiseDegraded
  split <;> rfl

@[simp] theorem channel_raiseDegraded (f : FaultCode) (c : Chip) (h : Fin 32) :
    (raiseDegraded k f c).channel h = c.channel h := by
  unfold raiseDegraded
  split <;> rfl

/-- R31: the engine after an exchange that does not fail. -/
theorem engine_endExchange (c : Chip) : (endExchange k false c).engine k = { c.engine k with inFlight := none } := by
  rw [endExchange, modEngine, engine_setEngine_self, Bool.or_false]

/-- R35: with no renegotiation asked for and an empty list, nothing is sent. -/
theorem sendRenegotiationOrPending_of_empty (hr : (c.engine k).renegRequest = false) (hl : (c.engine k).list = .empty) :
    sendRenegotiationOrPending k c = c := by
  simp [sendRenegotiationOrPending, sendPending, hr, hl, PendingList.empty]

/-- R45: a settlement whose next channel is granted goes on. -/
theorem arbitrate_settlement_next {st : Settlement} {ch : Channel} {n : Nat} (hx : (c.engine k).inFlight = none)
    (hq : (c.engine k).quiet = false) (hp : (c.engine k).phase = .idle) (hs : (c.engine k).settlement = some st)
    (hn : nextChannel c k (st.channels.drop st.next) st.next = some (ch, n)) :
    arbitrate k c = setEngine k { c.engine k with
      settlement := some { st with next := n }, inFlight := sentPage (.channelGrant ch.base ch.limit) false } c := by
  simp [arbitrate, hx, hq, hp, hs, hn, send_setEngine]

/-- R45: a settlement with no channel left has settled. -/
theorem arbitrate_settlement_end {st : Settlement} (hx : (c.engine k).inFlight = none) (hq : (c.engine k).quiet = false)
    (hp : (c.engine k).phase = .idle) (hs : (c.engine k).settlement = some st)
    (hn : nextChannel c k (st.channels.drop st.next) st.next = none) (hr : (c.engine k).renegRequest = false)
    (hl : (c.engine k).list = .empty) :
    arbitrate k c = post (.settlementReport k .settled) (setEngine k { c.engine k with settlement := none } c) := by
  have he : ((post (.settlementReport k .settled) (setEngine k { c.engine k with settlement := none } c)).engine k) =
      { c.engine k with settlement := none } := engine_setEngine_self ..
  unfold arbitrate
  dsimp only
  rw [if_neg (by simp [hx, hq]), if_neg (by simp [hp]), hs]
  dsimp only
  rw [hn]
  exact sendRenegotiationOrPending_of_empty (by rw [he]; exact hr) (by rw [he]; exact hl)

/-- R45: the next channel of a list, when its head is granted to the slot. -/
theorem nextChannel_of_granted {h : Fin 32} {rest : List (Fin 32)} {n : Nat} {ch : Channel} (hch : c.channel h = some ch)
    (hg : ch.granted = true) (hk : ch.slot = k) : nextChannel c k (h :: rest) n = some (ch, n + 1) := by
  simp [nextChannel, Chip.grantedChannel, hch, hg, hk]

/-- R46: the part after a settlement has failed, but for the alert. -/
theorem engine_failSettlement (c : Chip) : (failSettlement k c).engine k = { c.engine k with settlement := none } := by
  unfold failSettlement
  dsimp only
  split
  · exact engine_setEngine_self ..
  · exact engine_setEngine_self ..

theorem slot_failSettlement (c : Chip) (j : Fin 16) : (failSettlement k c).slot j = c.slot j := by
  unfold failSettlement
  dsimp only
  split <;> rfl

theorem mem_messages_failSettlement (c : Chip) : Instr.settlementReport k .failed ∈ (failSettlement k c).messages := by
  unfold failSettlement
  dsimp only
  split
  · exact mem_messages_post _ _
  · exact mem_messages_post _ _

theorem alerted_failSettlement (hs : (c.slot k).state = .running) : (failSettlement k c).alerted (.slot k) .degraded := by
  unfold failSettlement
  dsimp only
  rw [if_pos (by exact hs)]
  exact alerted_raise _ _ _

/-- What the events of an ACK_PAGE leave: the record of the slot, the quiet period, and every other slot. -/
theorem ack_keeps {x : PageRequest} (accepted : Bool) (f : FaultCode) (c : Chip) :
    (takeAck k x accepted (raiseDegraded k f (endExchange k false c))).slot k = c.slot k ∧
      ((takeAck k x accepted (raiseDegraded k f (endExchange k false c))).engine k).quiet = (c.engine k).quiet := by
  have hs : (raiseDegraded k f (endExchange k false c)).slot k = c.slot k := slot_raiseDegraded ..
  have hq : ((raiseDegraded k f (endExchange k false c)).engine k).quiet = (c.engine k).quiet := by
    rw [engine_raiseDegraded, engine_endExchange]
  unfold takeAck
  cases x
  case grant | channelGrant =>
    dsimp only
    split
    · exact ⟨hs, hq⟩
    · exact ⟨(slot_failSettlement ..).trans hs, (congrArg Engine.quiet (engine_failSettlement _)).trans hq⟩
  all_goals exact ⟨hs, hq⟩

/-- R45: a settlement page leaves its own slot's engine with the exchange ended. -/
theorem engine_takeAck_accepted {x : PageRequest} (hx : (∃ g l, x = .grant g l) ∨ ∃ b l, x = .channelGrant b l) (f : FaultCode)
    (c : Chip) : (takeAck k x true (raiseDegraded k f (endExchange k false c))) =
      raiseDegraded k f (endExchange k false c) := by
  obtain ⟨g, l, rfl⟩ | ⟨b, l, rfl⟩ := hx <;> rfl

theorem engine_takeAck_refused {x : PageRequest} (hx : (∃ g l, x = .grant g l) ∨ ∃ b l, x = .channelGrant b l) (f : FaultCode)
    (c : Chip) : (takeAck k x false (raiseDegraded k f (endExchange k false c))) =
      failSettlement k (raiseDegraded k f (endExchange k false c)) := by
  obtain ⟨g, l, rfl⟩ | ⟨b, l, rfl⟩ := hx <;> rfl

/-- Settles O17, by the request the page answers. -/
theorem ackPageIsJudged : Obligations.AckPageIsJudged := by
  unfold Obligations.AckPageIsJudged
  intro s k x page w hx hsum hkind hpay p accepted
  have hframe (hr : x.request.acked = true) : s.chip.onlySlotRecord k (queueService (slotPage k page s.chip)) ∧
      (queueService (slotPage k page s.chip)).slot k = s.chip.slot k ∧
      ((queueService (slotPage k page s.chip)).engine k).quiet = (s.chip.engine k).quiet ∧
      (p.fault = .degraded → (queueService (slotPage k page s.chip)).alerted (.slot k) .degraded) := by
    have h := onlySlotRecord_keeps k s.chip
    have ha := Chip.alerted_keeps (.slot k) .degraded
    obtain ⟨hslot, hquiet⟩ := ack_keeps (k := k) (x := x.request) p.accepts p.fault s.chip
    rw [slotPage_ack hx hr hsum hkind hpay, (queueService_sameSlots _).slot, (queueService_sameSlots _).engine, slot_arbitrate,
      quiet_arbitrate]
    exact ⟨h.queueService (h.arbitrate (h.takeAck _ _ (h.raiseDegraded _ (h.endExchange _ (s.chip.onlySlotRecord_refl k))))),
      hslot, hquiet, fun hf => ha.toPowerKeeps.queueService (ha.toEngineKeeps.arbitrate k
        (ha.takeAck k _ _ (alerted_raiseDegraded hf _)))⟩
  refine ⟨fun hr => ⟨_, exec_slotPageReceived .., ?_⟩, fun hr => ⟨_, exec_slotPageReceived .., ?_⟩,
    fun channels next hr hset hphase hquiet => ⟨_, exec_slotPageReceived .., ?_⟩⟩
  · obtain ⟨honly, hslot, hq, hd⟩ := hframe (by rw [hr]; rfl)
    refine ⟨mem_messages_queueService ?_, hq, hslot, hd, honly⟩
    rw [slotPage_ack hx (by rw [hr]; rfl) hsum hkind hpay, hr]
    exact mem_messages_arbitrate k (mem_messages_post _ _)
  · obtain ⟨honly, hslot, hq, hd⟩ := hframe (by rw [hr]; rfl)
    refine ⟨mem_messages_queueService ?_, hq, hslot, hd, honly⟩
    rw [slotPage_ack hx (by rw [hr]; rfl) hsum hkind hpay, hr]
    exact mem_messages_arbitrate k (mem_messages_post _ _)
  · have hacked : x.request.acked = true := by
      obtain ⟨g, l, h⟩ | ⟨b, l, h⟩ := hr <;> rw [h] <;> rfl
    obtain ⟨honly, hslot, hq, hd⟩ := hframe hacked
    have hpage := slotPage_ack hx hacked hsum hkind hpay
    have hengine : (raiseDegraded k p.fault (endExchange k false s.chip)).engine k =
        { s.chip.engine k with inFlight := none } := by rw [engine_raiseDegraded, engine_endExchange]
    refine ⟨hslot, honly, hq.trans hquiet, hd, fun h rest ch ha hdrop hch hg hk => ?_, fun ha hdrop hl hrr => ?_,
      fun ha hl hrr => ?_⟩
    · rw [show (readPage page).accepts = true from ha, engine_takeAck_accepted hr,
        arbitrate_settlement_next (by rw [hengine]) (by rw [hengine]; exact hquiet) (by rw [hengine]; exact hphase)
          (by rw [hengine]; exact hset)
          (by rw [hdrop]; exact nextChannel_of_granted ((channel_raiseDegraded ..).trans hch) hg hk)] at hpage
      dsimp only [State.onChip]
      rw [(queueService_sameSlots _).engine, hpage, engine_setEngine_self, hengine]
    · rw [show (readPage page).accepts = true from ha, engine_takeAck_accepted hr,
        arbitrate_settlement_end (by rw [hengine]) (by rw [hengine]; exact hquiet) (by rw [hengine]; exact hphase)
          (by rw [hengine]; exact hset) (by rw [hdrop]; rfl) (by rw [hengine]; exact hrr) (by rw [hengine]; exact hl)] at hpage
      dsimp only [State.onChip]
      rw [(queueService_sameSlots _).engine, hpage]
      refine ⟨(engine_setEngine_self ..).trans (by rw [hengine]), mem_messages_queueService (mem_messages_post _ _)⟩
    · have hend : (failSettlement k (raiseDegraded k p.fault (endExchange k false s.chip))).engine k =
          { s.chip.engine k with settlement := none, inFlight := none } := by rw [engine_failSettlement, hengine]
      rw [show (readPage page).accepts = false from ha, engine_takeAck_refused hr,
        arbitrate_of_free (by rw [hend]; exact ⟨rfl, hquiet, hphase, rfl, hrr, hl⟩)] at hpage
      dsimp only [State.onChip]
      rw [(queueService_sameSlots _).engine, hpage]
      refine ⟨hend, mem_messages_queueService (mem_messages_failSettlement _), fun hs => ?_⟩
      exact (alerted_failSettlement (by rw [slot_raiseDegraded]; exact hs)).queueService

end Sys2Proof.Machine

/-!
PROOF. Timeouts and quiet periods of a link (R31, R33): what a failed exchange leaves of the engine, by the block that asked
for it, and what is sent when the quiet period ends.
-/

namespace Sys2Proof.Machine

variable {k : Fin 16} {c : Chip}

/-! ## Links in their quiet period -/

/-- R33: a link in its quiet period, with no exchange in flight. -/
def Chip.resting (c : Chip) (k : Fin 16) : Prop := (c.engine k).quiet = true ∧ (c.engine k).inFlight = none

theorem Chip.resting.arbitrate (h : c.resting k) : arbitrate k c = c := arbitrate_of_quiet h.1

theorem Chip.resting.of_engine {c' : Chip} (h : c.resting k) (he : c'.engine k = c.engine k) : c'.resting k := by
  unfold Chip.resting
  rw [he]
  exact h

/-- R33: a failed exchange starts the quiet period. -/
theorem resting_endExchange (k : Fin 16) (c : Chip) : (endExchange k true c).resting k := by
  have he : (endExchange k true c).engine k = { c.engine k with inFlight := none, quiet := true } := by
    rw [endExchange, modEngine, engine_setEngine_self, Bool.or_true]
  unfold Chip.resting
  rw [he]
  exact ⟨rfl, rfl⟩

@[simp] theorem engine_raise (o : AlertObject) (x : Cause) (c : Chip) (j : Fin 16) :
    (raise o x c).engine j = c.engine j := rfl

theorem engine_endPhase (c : Chip) : (endPhase k c).engine k = { c.engine k with phase := .idle, draft := none } :=
  engine_setEngine_self ..

/-- R36: the engine of an emptied link. -/
theorem engine_emptyEngine (c : Chip) : (emptyEngine k c).engine k =
    { Engine.reset with quiet := (c.engine k).quiet || (c.engine k).inFlight.isSome } := by
  have hpost (p : Prop) [Decidable p] (m : Instr) (c' : Chip) : (if p then post m c' else c').engine k = c'.engine k := by
    split <;> rfl
  have habandoned (x : Exchange) (c' : Chip) : (reportAbandoned k x c').engine k = c'.engine k := by
    unfold reportAbandoned
    split <;> rfl
  unfold emptyEngine
  dsimp only
  rw [hpost, hpost, hpost]
  split
  · exact (habandoned _ _).trans (engine_setEngine_self ..)
  · exact engine_setEngine_self ..

/-- R36: a link that is emptied in its quiet period stays in it. -/
theorem engine_emptyEngine_of_resting (h : c.resting k) : (emptyEngine k c).engine k = { Engine.reset with quiet := true } := by
  rw [engine_emptyEngine, h.1]
  rfl

/-- R36, R54: what an entry to a state makes of a link in its quiet period. -/
theorem engine_enterState_of_resting (new : SlotState) (own : Slot → Slot) (h : c.resting k) :
    (enterState k new own c).engine k = if new.keepsListEmpty then { Engine.reset with quiet := true }
      else if (c.slot k).state = .running then { c.engine k with renegRequest := false } else c.engine k := by
  rw [engine_enterState]
  split
  · rename_i hk
    unfold Chip.entered engineOnSlot
    rw [if_pos hk]
    exact engine_emptyEngine_of_resting (c := setSlot k _ c) h
  · rename_i hk
    exact engine_entered_of_keeps _ (Bool.eq_false_iff.2 hk)

theorem Chip.resting.enterState (new : SlotState) (own : Slot → Slot) (h : c.resting k) : (enterState k new own c).resting k := by
  unfold Chip.resting
  rw [engine_enterState_of_resting _ _ h]
  split
  · exact ⟨rfl, rfl⟩
  · split
    · exact h
    · exact h

/-- R17: a link in its quiet period takes SHUTDOWN into its list and sends nothing. -/
theorem engine_toDraining_of_resting (cause : DrainCause) (h : c.resting k) (hr : (c.slot k).state ≠ .running) :
    (toDraining k cause c).engine k = { c.engine k with list := { (c.engine k).list with shutdown := true } } := by
  have he (own : Slot → Slot) : (enterState k .draining own c).engine k = c.engine k := by
    rw [engine_enterState_of_resting _ _ h, if_neg (by decide), if_neg hr]
  have hs (own : Slot → Slot) : ((enterState k .draining own c).slot k) = own ((c.slot k).enter .draining) :=
    slot_enterState ..
  unfold toDraining
  dsimp only
  unfold requestShutdown
  rw [if_neg (by rw [hs]; exact Bool.false_ne_true), arbitrate_of_quiet (by rw [modEngine, engine_setEngine_self, he]; exact h.1),
    modEngine,
    engine_setEngine_self, he]

/-! ## Failed exchanges (R33) -/

theorem engine_toHeld_of_resting (r : HoldReason) (h : c.resting k) :
    (toHeld k r c).engine k = { Engine.reset with quiet := true } := by
  unfold toHeld
  dsimp only
  rw [engine_raise, engine_enterState_of_resting _ _ h, if_pos (by decide)]

/-- R51: a failed POLL writes no engine. -/
theorem takeSilence_engine (j : Fin 16) (c : Chip) : (takeSilence k c).engine j = c.engine j := by
  unfold takeSilence
  dsimp only
  split
  · exact (Chip.sameSlots_keeps _).fanOnStatus k (.refl _) |>.engine j
  · rfl

/-- R51: the record of a slot whose POLL has failed. -/
theorem slot_takeSilence (c : Chip) : (takeSilence k c).slot k =
    { c.slot k with
      silence := min 3 ((c.slot k).silence + 1), silent := if (c.slot k).silence = 2 then true else (c.slot k).silent } := by
  unfold takeSilence
  dsimp only
  split
  · rw [(Chip.sameSlots_keeps _).fanOnStatus k (.refl _) |>.slot k, slot_raise]
    simp [modSlot]
  · exact slot_setSlot_self ..

theorem alerted_takeSilence (hs : (c.slot k).silence = 2) : (takeSilence k c).alerted (.slot k) .bladeSilent := by
  unfold takeSilence
  dsimp only
  rw [if_pos hs]
  exact (Chip.alerted_keeps _ _).toFanKeeps.fanOnStatus k (alerted_raise _ _ _)

theorem exchangeFailed_interrogates {x : PageRequest} (r : HoldReason)
    (hx : x = .interrogate ∨ (x = .next ∧ (c.engine k).phase = .interrogation)) :
    exchangeFailed k x r c = failInterrogation k c := by
  obtain rfl | ⟨rfl, hp⟩ := hx
  · rfl
  · exact if_pos hp

theorem exchangeFailed_negotiates {x : PageRequest} (r : HoldReason)
    (hx : x = .negotiate ∨ (x = .next ∧ (c.engine k).phase ≠ .interrogation)) :
    exchangeFailed k x r c = failNegotiation k r c := by
  obtain rfl | ⟨rfl, hp⟩ := hx
  · rfl
  · exact if_neg hp

theorem exchangeFailed_settles {x : PageRequest} (r : HoldReason)
    (hx : (∃ w l, x = .grant w l) ∨ ∃ b l, x = .channelGrant b l) : exchangeFailed k x r c = failSettlement k c := by
  obtain ⟨w, l, rfl⟩ | ⟨b, l, rfl⟩ := hx <;> rfl

theorem Chip.resting.endPhase (h : c.resting k) : (endPhase k c).resting k := by
  unfold Chip.resting
  rw [engine_endPhase]
  exact h

theorem Chip.resting.toHeld (r : HoldReason) (h : c.resting k) : (toHeld k r c).resting k := by
  unfold Chip.resting
  rw [engine_toHeld_of_resting r h]
  exact ⟨rfl, rfl⟩

/-- Table 15: the end of an adoption on a link in its quiet period. -/
theorem Chip.resting.endAdoption (h : c.resting k) (hs : (c.slot k).state = .adopting) : (endAdoption k c).resting k := by
  unfold Machine.endAdoption
  split
  · exact h.enterState _ _
  · unfold Chip.resting
    rw [engine_toDraining_of_resting _ h (by rw [hs]; decide)]
    exact h

/-- R29: the part in which the adoption ends after a failed interrogation. -/
def Chip.silenced (c : Chip) (k : Fin 16) : Chip :=
  c |> modSlot k (fun s => { s with silence := 3, silent := true }) |> raise (.slot k) .bladeSilent

theorem slot_silenced (c : Chip) : (c.silenced k).slot k = { c.slot k with silence := 3, silent := true } :=
  (slot_raise ..).trans (slot_setSlot_self ..)

theorem takeNoIdentity_interrogating (hs : (c.slot k).state = .interrogating) : takeNoIdentity k c = toHeld k .noAnswer c := by
  unfold takeNoIdentity
  rw [hs]

theorem takeNoIdentity_adopting (hs : (c.slot k).state = .adopting) : takeNoIdentity k c = endAdoption k (c.silenced k) := by
  unfold takeNoIdentity
  rw [hs]
  rfl

theorem Chip.resting.failInterrogation (h : c.resting k) : (failInterrogation k c).resting k := by
  have h1 := h.endPhase
  unfold Machine.failInterrogation
  by_cases hi : (c.slot k).state = .interrogating
  · rw [takeNoIdentity_interrogating (c := Machine.endPhase k c) hi]
    exact h1.toHeld _
  · by_cases ha : (c.slot k).state = .adopting
    · rw [takeNoIdentity_adopting (c := Machine.endPhase k c) ha]
      refine Chip.resting.endAdoption h1 ?_
      rw [slot_silenced]
      exact ha
    · have hn : takeNoIdentity k (Machine.endPhase k c) = Machine.endPhase k c := by
        unfold takeNoIdentity
        split
        · rename_i hs
          exact absurd hs hi
        · rename_i hs
          exact absurd hs ha
        · rfl
      rw [hn]
      exact h1

theorem Chip.resting.failNegotiation (r : HoldReason) (h : c.resting k) : (failNegotiation k r c).resting k := by
  unfold Machine.failNegotiation
  dsimp only
  split
  · exact h.endPhase.toHeld r
  · exact h.endPhase
  · exact h.endPhase

/-- R33: whatever block a failed exchange is reported to, its link stays in the quiet period with nothing in flight. -/
theorem Chip.resting.exchangeFailed (x : PageRequest) (r : HoldReason) (h : c.resting k) :
    (exchangeFailed k x r c).resting k := by
  cases x
  case interrogate => exact h.failInterrogation
  case negotiate => exact h.failNegotiation r
  case next =>
    unfold Machine.exchangeFailed
    dsimp only
    split
    · exact h.failInterrogation
    · exact h.failNegotiation r
  case grant | channelGrant =>
    show (failSettlement k c).resting k
    unfold Chip.resting
    rw [engine_failSettlement]
    exact h
  case cap | uncap => exact h
  case shutdown => exact h
  case poll => exact h.of_engine (takeSilence_engine k c)

/-- R31, R33: an attempt 2 that expires. -/
theorem slotTimeout_failed {x : Exchange} (hx : (c.engine k).inFlight = some x) (hs : x.second = true) :
    slotTimeout k c = exchangeFailed k x.request .noAnswer (endExchange k true c) := by
  have ht : takeTimeout k x c = exchangeFailed k x.request .noAnswer (endExchange k true c) := if_pos hs
  rw [slotTimeout_of_inFlight hx, ht]
  exact ((resting_endExchange k c).exchangeFailed x.request .noAnswer).arbitrate

/-- R31: an attempt 1 that expires is sent again. -/
theorem slotTimeout_resent {x : Exchange} (hx : (c.engine k).inFlight = some x) (hs : x.second = false) :
    slotTimeout k c = setEngine k { c.engine k with inFlight := some { x with second := true } } c ∧
      ∀ page, byteSum page ≠ 0 →
        slotPage k page c = setEngine k { c.engine k with inFlight := some { x with second := true } } c := by
  have ht : takeTimeout k x c = setEngine k { c.engine k with inFlight := some { x with second := true } } c :=
    if_neg (by rw [hs]; decide)
  have ha : arbitrate k (takeTimeout k x c) = takeTimeout k x c :=
    arbitrate_of_inFlight (by rw [ht, engine_setEngine_self]; rfl)
  refine ⟨by rw [slotTimeout_of_inFlight hx, ha, ht], fun page hsum => ?_⟩
  rw [slotPage_of_inFlight _ hx, if_neg (mt checkPasses_iff.1 hsum), ha, ht]

/-! ## The four parts of the statement -/

/-- R33: the link after an exchange that has failed, whichever block it is reported to. -/
theorem slotTimeout_rests {x : Exchange} (hx : (c.engine k).inFlight = some x) (hs : x.second = true) :
    (queueService (slotTimeout k c)).resting k ∧ c.onlySlotRecord k (queueService (slotTimeout k c)) := by
  have h := onlySlotRecord_keeps k c
  refine ⟨Chip.resting.of_engine ?_ ((queueService_sameSlots _).engine k), h.queueService (h.slotTimeout (c.onlySlotRecord_refl k))⟩
  rw [slotTimeout_failed hx hs]
  exact (resting_endExchange k c).exchangeFailed _ _

/-- R31, R51: what a failed exchange of the pending list does. -/
theorem slotTimeout_of_list (s : State) {x : Exchange} (hq : s.chip.quiescent) (hx : (s.chip.engine k).inFlight = some x)
    (hs : x.second = true) : ∃ t, exec (.slotResponseTimeout k) s = .next t ∧
      (∀ w, x.request = .cap w → t.chip = setMessages (s.chip.messages ++ [.capOutcome k .failed])
        (setEngine k { s.chip.engine k with inFlight := none, quiet := true } s.chip)) ∧
      (∀ w, x.request = .uncap w → t.chip = setMessages (s.chip.messages ++ [.uncapOutcome k .failed])
        (setEngine k { s.chip.engine k with inFlight := none, quiet := true } s.chip)) ∧
      (x.request = .shutdown → t.chip = setEngine k { s.chip.engine k with inFlight := none, quiet := true } s.chip) ∧
      (x.request = .poll →
        (t.chip.engine k).inFlight = none ∧ (t.chip.engine k).quiet = true ∧
        (t.chip.slot k).silence = min 3 ((s.chip.slot k).silence + 1) ∧
        (t.chip.slot k).lastStatus = (s.chip.slot k).lastStatus ∧ (t.chip.slot k).state = (s.chip.slot k).state ∧
        (t.chip.slot k).overdraw = (s.chip.slot k).overdraw ∧
        ((s.chip.slot k).silence = 2 → (t.chip.slot k).silent = true ∧ t.chip.alerted (.slot k) .bladeSilent) ∧
        ((s.chip.slot k).silence ≠ 2 → (t.chip.slot k).silent = (s.chip.slot k).silent) ∧
        s.chip.onlySlotRecord k t.chip) := by
  obtain ⟨⟨hquiet, hflight⟩, honly⟩ := slotTimeout_rests hx hs
  have hfail := slotTimeout_failed hx hs
  have hend : endExchange k true s.chip =
      setEngine k { s.chip.engine k with inFlight := none, quiet := true } s.chip := by
    rw [endExchange, modEngine, Bool.or_true]
  refine ⟨_, exec_slotResponseTimeout .., fun w hr => ?_, fun w hr => ?_, fun hr => ?_, fun hr => ?_⟩
  · dsimp only [State.onChip]
    rw [hfail, hr, hend]
    exact queueService_of_settled (c := post (.capOutcome k .failed) _) hq.1 hq.2
  · dsimp only [State.onChip]
    rw [hfail, hr, hend]
    exact queueService_of_settled (c := post (.uncapOutcome k .failed) _) hq.1 hq.2
  · dsimp only [State.onChip]
    rw [hfail, hr, hend]
    exact queueService_of_settled (c := setEngine k _ _) hq.1 hq.2
  · rw [hr] at hfail
    have hslot : (queueService (slotTimeout k s.chip)).slot k = _ :=
      ((queueService_sameSlots _).slot k).trans ((congrArg (fun c' : Chip => c'.slot k) hfail).trans (slot_takeSilence _))
    dsimp only [State.onChip]
    rw [hslot]
    refine ⟨hflight, hquiet, rfl, rfl, rfl, rfl, fun h2 => ⟨if_pos h2, ?_⟩, fun h2 => if_neg h2, honly⟩
    rw [hfail]
    exact (alerted_takeSilence (c := endExchange k true s.chip) h2).queueService

/-- R38, Table 15: an interrogation whose exchange fails, in INTERROGATING and in ADOPTING. -/
theorem slotTimeout_of_interrogation {x : Exchange} (hx : (c.engine k).inFlight = some x) (hs : x.second = true)
    (hi : x.request = .interrogate ∨ (x.request = .next ∧ (c.engine k).phase = .interrogation)) :
    slotTimeout k c = failInterrogation k (endExchange k true c) := by
  rw [slotTimeout_failed hx hs]
  refine exchangeFailed_interrogates _ (hi.imp_right fun ⟨hn, hp⟩ => ⟨hn, ?_⟩)
  rw [endExchange, modEngine, engine_setEngine_self]
  exact hp

theorem slotTimeout_of_negotiation {x : Exchange} (hx : (c.engine k).inFlight = some x) (hs : x.second = true)
    (hi : x.request = .negotiate ∨ (x.request = .next ∧ (c.engine k).phase ≠ .interrogation)) :
    slotTimeout k c = failNegotiation k .noAnswer (endExchange k true c) := by
  rw [slotTimeout_failed hx hs]
  refine exchangeFailed_negotiates _ (hi.imp_right fun ⟨hn, hp⟩ => ⟨hn, ?_⟩)
  rw [endExchange, modEngine, engine_setEngine_self]
  exact hp

/-- R20: the part after a phase has failed with its slot held. -/
theorem held_after_phase (hs : slotTimeout k c = toHeld k .noAnswer (endPhase k (endExchange k true c))) :
    (let t := queueService (slotTimeout k c)
     (t.slot k).state = .held ∧ (t.slot k).holdReason = some .noAnswer ∧ t.alerted (.slot k) .held ∧
       (t.slot k).handle = (c.slot k).handle ∧ (t.engine k).phase = .idle) := by
  have hslot := (queueService_sameSlots (slotTimeout k c)).slot k
  have hengine := (queueService_sameSlots (slotTimeout k c)).engine k
  have hrest := (resting_endExchange k c).endPhase
  dsimp only
  rw [hslot, hengine, hs, engine_toHeld_of_resting _ hrest, slot_toHeld]
  refine ⟨rfl, rfl, ?_, rfl, rfl⟩
  exact (alerted_raise _ _ _).queueService

theorem endAdoption_of_none (h : (c.slot k).adoptCause = none) : endAdoption k c = toRunning k c := by
  unfold endAdoption
  rw [h]

theorem endAdoption_of_some {cause : DrainCause} (h : (c.slot k).adoptCause = some cause) :
    endAdoption k c = toDraining k cause c := by
  unfold endAdoption
  rw [h]

@[simp] theorem slot_toRunning (c : Chip) : (toRunning k c).slot k =
    { (c.slot k).enter .running with pollTimer := some c.settings.pollInterval } := slot_enterState ..

/-- R29, Table 15: the record of a slot at the end of its adoption. -/
theorem slot_endAdoption (c : Chip) : ((endAdoption k c).slot k).silence = (c.slot k).silence ∧
    ((endAdoption k c).slot k).silent = (c.slot k).silent ∧
    ((c.slot k).adoptCause = none → ((endAdoption k c).slot k).state = .running ∧
      ((endAdoption k c).slot k).pollTimer = some c.settings.pollInterval) ∧
    ∀ cause, (c.slot k).adoptCause = some cause → ((endAdoption k c).slot k).state = .draining ∧
      ((endAdoption k c).slot k).drainCause = some cause := by
  cases ha : (c.slot k).adoptCause with
  | none =>
    rw [endAdoption_of_none ha, slot_toRunning]
    exact ⟨rfl, rfl, fun _ => ⟨rfl, rfl⟩, nofun⟩
  | some x =>
    rw [endAdoption_of_some ha, slot_toDraining]
    exact ⟨rfl, rfl, nofun, fun cause h => ⟨rfl, h⟩⟩

/-- R29: an interrogation that fails in ADOPTING. -/
theorem adopted_after_phase (hst : (c.slot k).state = .adopting)
    (hs : slotTimeout k c = failInterrogation k (endExchange k true c)) :
    (let t := queueService (slotTimeout k c)
     (t.slot k).silence = 3 ∧ (t.slot k).silent = true ∧ t.alerted (.slot k) .bladeSilent ∧
      ((c.slot k).adoptCause = none → (t.slot k).state = .running ∧ (t.slot k).pollTimer = some c.settings.pollInterval) ∧
      ∀ cause, (c.slot k).adoptCause = some cause → (t.slot k).state = .draining ∧ (t.slot k).drainCause = some cause ∧
        (t.engine k).list.shutdown = true) := by
  have hslot := (queueService_sameSlots (slotTimeout k c)).slot k
  have hengine := (queueService_sameSlots (slotTimeout k c)).engine k
  have hrest : ((endPhase k (endExchange k true c)).silenced k).resting k := (resting_endExchange k c).endPhase
  have hfail : failInterrogation k (endExchange k true c) =
      endAdoption k ((endPhase k (endExchange k true c)).silenced k) :=
    takeNoIdentity_adopting (c := endPhase k (endExchange k true c)) hst
  have hsil : ((endPhase k (endExchange k true c)).silenced k).slot k = { c.slot k with silence := 3, silent := true } :=
    slot_silenced _
  obtain ⟨hcount, hsilent, hnone, hsome⟩ := slot_endAdoption ((endPhase k (endExchange k true c)).silenced k) (k := k)
  rw [hsil] at hcount hsilent hnone hsome
  dsimp only
  rw [hslot, hengine, hs, hfail]
  refine ⟨hcount, hsilent, ?_, hnone, fun cause hc => ⟨(hsome cause hc).1, (hsome cause hc).2, ?_⟩⟩
  · have ha := Chip.alerted_keeps (.slot k) .bladeSilent
    exact ha.toPowerKeeps.queueService (ha.toSlotKeeps.endAdoption k (alerted_raise _ _ _))
  · rw [endAdoption_of_some (by rw [hsil]; exact hc), engine_toDraining_of_resting _ hrest (by rw [hsil, hst]; decide)]

/-- R54: a renegotiation whose exchange fails leaves the terms and the grant. -/
theorem failNegotiation_renegotiation (r : HoldReason) (hp : (c.engine k).phase = .renegotiation)
    (hs : (c.slot k).state = .running) : failNegotiation k r c = raise (.slot k) .degraded (endPhase k c) := by
  have hs' : ((endPhase k c).slot k).state = .running := hs
  unfold failNegotiation
  dsimp only
  rw [hp, hs']

theorem failNegotiation_negotiation (r : HoldReason) (hp : (c.engine k).phase = .negotiation)
    (hs : (c.slot k).state = .negotiating) : failNegotiation k r c = toHeld k r (endPhase k c) := by
  have hs' : ((endPhase k c).slot k).state = .negotiating := hs
  unfold failNegotiation
  dsimp only
  rw [hp, hs']

theorem phase_endExchange (failed : Bool) (c : Chip) : ((endExchange k failed c).engine k).phase = (c.engine k).phase := by
  rw [endExchange, modEngine, engine_setEngine_self]

/-- R33: the end of the quiet period lets the link choose. -/
theorem slotQuietEnded_of_quiet (hq : (c.engine k).quiet = true) :
    slotQuietEnded k c = arbitrate k (setEngine k { c.engine k with quiet := false } c) := if_pos hq

/-- R35: a link whose quiet period ends goes on with its phase. -/
theorem slotQuietEnded_phase (hq : (c.engine k).quiet = true) (hx : (c.engine k).inFlight = none)
    (hp : (c.engine k).phase ≠ .idle) : slotQuietEnded k c = setEngine k { c.engine k with
      quiet := false, inFlight := sentPage (phasePage (c.engine k)) (c.engine k).toggle } c := by
  rw [slotQuietEnded_of_quiet hq]
  unfold arbitrate
  dsimp only
  rw [engine_setEngine_self, if_neg (by simp [hx]), if_pos hp, send_setEngine]
  rfl

/-- R35: a link whose quiet period ends, in no phase and no settlement. -/
theorem slotQuietEnded_idle (hq : (c.engine k).quiet = true) (hx : (c.engine k).inFlight = none)
    (hp : (c.engine k).phase = .idle) (hs : (c.engine k).settlement = none) :
    slotQuietEnded k c = sendRenegotiationOrPending k (setEngine k { c.engine k with quiet := false } c) := by
  rw [slotQuietEnded_of_quiet hq]
  unfold arbitrate
  dsimp only
  rw [engine_setEngine_self, if_neg (by simp [hx]), if_neg (by simp [hp]), hs]

theorem sendRenegotiationOrPending_pending (hr : (c.engine k).renegRequest = false) :
    sendRenegotiationOrPending k c = sendPending k c := if_neg (by rw [hr]; decide)

theorem sendRenegotiationOrPending_renegotiates {e : Engine} (hr : e.renegRequest = true) :
    sendRenegotiationOrPending k (setEngine k e c) = setEngine k { e with
      renegRequest := false, phase := .renegotiation, toggle := false, responses := 0, draft := some .fresh,
      inFlight := sentPage .negotiate false } c := by
  simp [sendRenegotiationOrPending, hr, send, startPhase, modEngine, sentPage]

/-- R33, R35: what the end of the quiet period sends. -/
theorem quietEnd_sends (s : State) (k : Fin 16) (hq : s.chip.quiescent) {e : Engine}
    (he : slotQuietEnded k s.chip = setEngine k e s.chip) :
    exec (.slotQuietEnd k) s = .next (s.onChip (setEngine k e s.chip)) := taken_settled he hq

/-- Settles O16: resends, failures by block, and the end of the quiet period. -/
theorem timeoutsAndQuietPeriod : Obligations.TimeoutsAndQuietPeriod := by
  refine ⟨fun s k x page hq hx hs => ?resends, fun s k x hq hx hs => slotTimeout_of_list s hq hx hs, fun s k x hq hx hs => ?fails,
    fun s k hq hquiet hx => ?quietEnd, fun s k w hq hquiet hfree => ?free⟩
  case resends =>
    obtain ⟨htimeout, hpage⟩ := slotTimeout_resent hx hs
    exact ⟨taken_settled htimeout hq, fun hsum => taken_settled (hpage page hsum) hq⟩
  case fails =>
    obtain ⟨⟨hquiet, hflight⟩, honly⟩ := slotTimeout_rests hx hs
    refine ⟨_, exec_slotResponseTimeout .., honly, hquiet, hflight, fun hi hst => ?_, fun hi hst => ?_, fun hn hp hst => ?_,
      fun hn hp hst => ?_, fun hr => ?_⟩
    · refine held_after_phase ((slotTimeout_of_interrogation hx hs hi).trans ?_)
      exact takeNoIdentity_interrogating (c := endPhase k (endExchange k true s.chip)) hst
    · exact adopted_after_phase hst (slotTimeout_of_interrogation hx hs hi)
    · refine held_after_phase ((slotTimeout_of_negotiation hx hs hn).trans ?_)
      exact failNegotiation_negotiation _ ((phase_endExchange _ _).trans hp) hst
    · have ht := (slotTimeout_of_negotiation hx hs hn).trans
        (failNegotiation_renegotiation _ ((phase_endExchange _ _).trans hp) hst)
      have hsettled : queueService (slotTimeout k s.chip) = slotTimeout k s.chip := by
        rw [ht]
        exact queueService_of_settled hq.1 hq.2
      dsimp only [State.onChip]
      rw [hsettled, ht]
      refine ⟨rfl, alerted_raise _ _ _, ?_, rfl⟩
      rw [engine_raise, engine_endPhase]
    · have ht : slotTimeout k s.chip = failSettlement k (endExchange k true s.chip) := by
        rw [slotTimeout_failed hx hs]
        exact exchangeFailed_settles _ hr
      dsimp only [State.onChip]
      rw [(queueService_sameSlots _).slot, (queueService_sameSlots _).engine, ht, engine_failSettlement, slot_failSettlement]
      exact ⟨rfl, mem_messages_queueService (mem_messages_failSettlement _), rfl,
        fun hst => (alerted_failSettlement (c := endExchange k true s.chip) hst).queueService⟩
  case quietEnd =>
    refine ⟨fun hp => quietEnd_sends s k hq (slotQuietEnded_phase hquiet hx hp |>.trans ?_), fun hp hset hr => ?_,
      fun hp hset hr => ?_⟩
    · unfold phasePage
      by_cases h0 : (s.chip.engine k).responses = 0 <;> simp [h0]
    · exact quietEnd_sends s k hq ((slotQuietEnded_idle hquiet hx hp hset).trans
        (sendRenegotiationOrPending_renegotiates hr))
    · have hpending : slotQuietEnded k s.chip = sendPending k (setEngine k { s.chip.engine k with quiet := false } s.chip) :=
        (slotQuietEnded_idle hquiet hx hp hset).trans
          (sendRenegotiationOrPending_pending (by rw [engine_setEngine_self]; exact hr))
      refine ⟨fun h1 => ?_, fun w h1 h2 => ?_, fun w h1 h2 h3 => ?_, fun w g h1 h2 h3 h4 => ?_, fun h1 h2 h3 h4 h5 => ?_⟩
      · exact quietEnd_sends s k hq (hpending.trans (sendPending_shutdown h1))
      · exact quietEnd_sends s k hq (hpending.trans (sendPending_cap h1 h2))
      · exact quietEnd_sends s k hq (hpending.trans (sendPending_uncap h1 h2 h3))
      · have hsend := hpending.trans
          (sendPending_grant (e := { s.chip.engine k with quiet := false }) (c := s.chip) h1 h2 h3 h4)
        rw [settlementChannels_eq] at hsend
        exact quietEnd_sends s k hq hsend
      · exact quietEnd_sends s k hq (hpending.trans (sendPending_poll h1 h2 h3 h4 h5))
  case free =>
    obtain ⟨hx, -, hp, hset, hr, hl⟩ := hfree
    refine ⟨quietEnd_sends s k hq ((slotQuietEnded_of_quiet hquiet).trans (arbitrate_of_free ?_)), ?_⟩
    · rw [engine_setEngine_self]
      exact ⟨hx, rfl, hp, hset, hr, hl⟩
    · intro waiting
      have he : (setEngine k waiting s.chip).engine k = waiting := engine_setEngine_self ..
      refine taken_settled (((slotQuietEnded_idle (c := setEngine k waiting s.chip) (by rw [he]; exact hquiet) (by rw [he]; exact hx)
        (by rw [he]; exact hp) (by rw [he]; exact hset)).trans
        (sendRenegotiationOrPending_pending (by rw [engine_setEngine_self, he]; exact hr))).trans ?_) hq
      rw [he, setEngine_setEngine, sendPending_cap rfl rfl]
      rfl

end Sys2Proof.Machine

/-!
PROOF. A grant that is given back stays given back (R94): a slot with no grant, no queue entry and no shed entry, whose switch
is open, is brought back into none of the three by what the power unit and the fan controller do for other slots.
-/

namespace Sys2Proof.Machine

variable {k : Fin 16} {c : Chip}

/-! ## The record, the queue and the shed list -/

theorem released_iff : c.released k ↔
    c.grant k = .reset ∧ (∀ e ∈ c.power.queue, e.slot ≠ k) ∧ ∀ e ∈ c.power.shed, e.slot ≠ k :=
  and_congr_right fun _ => and_congr_left fun _ => queueEntry_eq_none_iff

/-- A slot whose grant is given back, and which cannot be capped or switched off. -/
structure Chip.barren (c : Chip) (k : Fin 16) : Prop where
  grant : c.grant k = .reset
  queue : ∀ e ∈ c.power.queue, e.slot ≠ k
  shed : ∀ e ∈ c.power.shed, e.slot ≠ k
  switch : (c.slot k).switchClosed = false
  state : (c.slot k).state ≠ .running

theorem Chip.barren.released (h : c.barren k) : c.released k := released_iff.2 ⟨h.grant, h.queue, h.shed⟩

theorem mem_insertEntry {e x : QueueEntry} : ∀ {q : List QueueEntry}, x ∈ insertEntry e q → x = e ∨ x ∈ q
  | [], hx => .inl (List.mem_singleton.1 hx)
  | y :: q, hx => by
    unfold insertEntry at hx
    split at hx
    · exact List.mem_cons.1 hx
    · obtain rfl | hx := List.mem_cons.1 hx
      · exact .inr List.mem_cons_self
      · exact (mem_insertEntry hx).imp_right (List.mem_cons_of_mem y)

namespace Chip.barren

variable (h : c.barren k)
include h

theorem setGrant {j : Fin 16} (hj : j ≠ k) (g : GrantRecord) : (setGrant j g c).barren k where
  grant := (grant_setGrant ..).trans ((if_neg hj.symm).trans h.grant)
  queue := h.queue
  shed := h.shed
  switch := h.switch
  state := h.state

theorem setQueue {q : List QueueEntry} (hq : ∀ e ∈ q, e.slot ≠ k) : (setQueue q c).barren k :=
  ⟨h.grant, hq, h.shed, h.switch, h.state⟩

theorem setShed {l : List ShedEntry} (hl : ∀ e ∈ l, e.slot ≠ k) : (setShed l c).barren k :=
  ⟨h.grant, h.queue, hl, h.switch, h.state⟩

theorem setServiceDue (b : Bool) : (setServiceDue b c).barren k := ⟨h.grant, h.queue, h.shed, h.switch, h.state⟩
theorem post (m : Instr) : (post m c).barren k := ⟨h.grant, h.queue, h.shed, h.switch, h.state⟩
theorem raise (o : AlertObject) (x : Cause) : (raise o x c).barren k := ⟨h.grant, h.queue, h.shed, h.switch, h.state⟩
theorem queueEntry : c.queueEntry k = none := queueEntry_eq_none_iff.2 h.queue

theorem joinQueue {j : Fin 16} (hj : j ≠ k) (kind : QueueKind) (need : Nat) : (joinQueue j kind need c).barren k :=
  (h.setQueue fun x hx => (mem_insertEntry hx).elim (fun he => he ▸ hj) (h.queue x)).setServiceDue true

theorem leaveQueue (j : Fin 16) : (leaveQueue j c).barren k := by
  unfold Machine.leaveQueue
  split
  · exact h
  · exact (h.setQueue fun x hx => h.queue x (List.mem_of_mem_filter hx)).setServiceDue true

theorem alignUplift (j : Fin 16) : (alignUplift j c).barren k := by
  by_cases hj : j = k
  · subst hj
    have hq : c.qualifiesUplift j = false := decide_eq_false fun hq => h.state hq.1
    unfold Machine.alignUplift
    dsimp only
    rw [if_neg (by rw [hq]; decide), h.queueEntry]
    exact h
  · unfold Machine.alignUplift
    dsimp only
    split
    · split
      · exact h.joinQueue hj _ _
      · refine h.setQueue fun x hx => ?_
        obtain ⟨y, hy, rfl⟩ := List.mem_map.1 hx
        split
        · exact h.queue y hy
        · exact h.queue y hy
    · split
      · split
        · exact h.leaveQueue j
        · exact h
      · exact h

/-! ## Shedding -/

theorem capForShed {j : Fin 16} (hj : j ≠ k) : (capForShed j c).barren k := by
  unfold Machine.capForShed
  dsimp only
  split
  · exact ((h.setGrant hj _).post _).alignUplift j
  · exact (h.setGrant hj _).alignUplift j

theorem capWalk : ∀ (order : List (Fin 16)) (p : Nat), ∀ e ∈ (capWalk c order p).1, e.slot ≠ k
  | [], _ => nofun
  | j :: order, p => by
    unfold Machine.capWalk
    split
    · exact nofun
    · split
      · rename_i hc
        intro e he
        obtain rfl | he := List.mem_cons.1 he
        · rintro rfl
          exact h.state (of_decide_eq_true hc).1
        · exact capWalk order _ e he
      · exact capWalk order p

theorem offWalk : ∀ (order : List (Fin 16)) (p : Nat) (l : List ShedEntry), (∀ e ∈ l, e.slot ≠ k) →
    ∀ e ∈ offWalk c order p l, e.slot ≠ k
  | [], _, _, hl => hl
  | j :: order, p, l, hl => by
    unfold Machine.offWalk
    split
    · exact hl
    · split
      · rename_i hc
        split
        · refine offWalk order _ _ fun e he => ?_
          obtain ⟨x, hx, rfl⟩ := List.mem_map.1 he
          split
          · exact hl x hx
          · exact hl x hx
        · refine offWalk order _ _ fun e he => ?_
          obtain he | he := List.mem_append.1 he
          · exact hl e he
          · rw [List.mem_singleton.1 he]
            rintro rfl
            exact Bool.false_ne_true (h.switch.symm.trans (of_decide_eq_true hc).1)
      · exact offWalk order p l hl

theorem projectionWalk (kept : Option ShedEntry) : ∀ e ∈ c.projectionWalk kept, e.slot ≠ k :=
  h.offWalk _ _ _ (h.capWalk _ _)

theorem actHead : (actHead c).barren k := by
  unfold Machine.actHead
  split
  · exact h
  · rename_i e rest hl
    have hshed := h.shed
    rw [hl] at hshed
    have h1 : (Machine.setShed ({ e with acting := true } :: rest) c).barren k :=
      h.setShed fun x hx => by
        obtain rfl | hx := List.mem_cons.1 hx
        · exact hshed e List.mem_cons_self
        · exact hshed x (List.mem_cons_of_mem e hx)
    dsimp only
    split
    · exact h1.capForShed (hshed e List.mem_cons_self)
    · exact h1.post _

theorem startShedding : (startShedding c).barren k := by
  unfold Machine.startShedding
  split
  · split
    · exact h.raise _ _
    · exact h
  · rename_i hl
    exact (h.setShed (h.projectionWalk none)).actHead

theorem pruneShed : (pruneShed c).barren k := h.setShed fun e he => h.shed e (List.mem_of_mem_filter he)

/-- R90, R97, R111 to R114: the end of an event of the power unit. -/
theorem settlePower (before : Chip) (report : Bool) : (settlePower before report c).barren k := by
  unfold Machine.settlePower
  extract_lets c1 emptied more less c2 kept c3
  have h1 : c1.barren k := h.pruneShed
  have h2 : c2.barren k := ite_keeps (P := fun c' => c'.barren k) (h1.setServiceDue true) h1
  split
  · split
    · rename_i e rest hl
      have he : e.slot ≠ k := h2.shed e (by rw [hl]; exact List.mem_cons_self)
      split
      · split
        · refine h2.setShed fun x hx => ?_
          obtain rfl | hx := List.mem_cons.1 hx
          · exact he
          · exact h2.projectionWalk _ x hx
        · exact h2
      · exact h2.actHead
    · exact ite_keeps (P := fun c' => c'.barren k) h2.startShedding h2
  · have h3 : c3.barren k := h2.setShed fun e he => h2.shed e (List.mem_of_mem_filter he)
    exact ite_keeps (P := fun c' => c'.barren k) (h3.setServiceDue true) h3

omit h in
theorem powerEvent (report : Bool) {f : Chip → Chip} (hf : (f c).barren k) : (powerEvent report f c).barren k :=
  hf.settlePower c report

/-! ## What other blocks ask of the power unit -/

theorem giveReservation (f : Fin 8) (band rated : Nat) : (giveReservation f band rated c).barren k :=
  powerEvent false (c := c) ⟨h.grant, h.queue, h.shed, h.switch, h.state⟩

theorem addReason (r : CapReason) {j : Fin 16} (hj : j ≠ k) : (addReason r j c).barren k := by
  unfold Machine.addReason
  dsimp only
  split
  · exact h
  · split
    · split
      · exact ((h.setGrant hj _).post _).alignUplift j
      · exact (h.setGrant hj _).alignUplift j
    · exact (h.setGrant hj _).alignUplift j

/-- R101: a slot that is not RUNNING cannot be capped. -/
theorem requestThermal (j : Fin 16) : (requestThermal j c).barren k := by
  unfold Machine.requestThermal
  split
  · rename_i hc
    refine h.addReason _ ?_
    rintro rfl
    exact h.state (of_decide_eq_true hc).1
  · exact h

/-- R104: a cap set with no reason loses none. -/
theorem removeReason (r : CapReason) (j : Fin 16) : (removeReason r j c).barren k := by
  unfold Machine.removeReason
  split
  · rename_i hr
    have hj : j ≠ k := by
      rintro rfl
      rw [h.grant] at hr
      cases r <;> exact Bool.false_ne_true hr
    exact (((h.setGrant hj _).setGrant hj _)).alignUplift j
  · exact h

end Chip.barren

/-! ## The service of the queue -/

theorem released_serveHead {e : QueueEntry} {c' : Chip} (he : e.slot ≠ k) (hs : serveHead e c = some c')
    (hg : c.grant k = .reset) (hl : ∀ x ∈ c.power.shed, x.slot ≠ k) :
    c'.grant k = .reset ∧ ∀ x ∈ c'.power.shed, x.slot ≠ k := by
  have hgrant (g g' : GrantRecord) : (setGrant e.slot g' (setGrant e.slot g c)).grant k = .reset := by
    rw [grant_setGrant, if_neg he.symm, grant_setGrant, if_neg he.symm, hg]
  have hserve (w : Nat) (s : CapSet) : (serveAdmission e.slot w s c).grant k = .reset ∧
      ∀ x ∈ (serveAdmission e.slot w s c).power.shed, x.slot ≠ k := ⟨hgrant _ _, hl⟩
  unfold serveHead at hs
  split at hs
  · split at hs
    · exact Option.some.inj hs ▸ hserve _ _
    · split at hs
      · exact Option.some.inj hs ▸ hserve _ _
      · exact nomatch hs
  · split at hs
    · exact Option.some.inj hs ▸ ⟨hgrant _ _, hl⟩
    · exact nomatch hs

theorem released_serveQueue : ∀ (q : List QueueEntry) (c : Chip), (∀ e ∈ q, e.slot ≠ k) → c.grant k = .reset →
    (∀ x ∈ c.power.shed, x.slot ≠ k) → (serveQueue q c).released k
  | [], c, _, hg, hl => released_iff.2 ⟨hg, nofun, hl⟩
  | e :: q, c, hq, hg, hl => by
    unfold serveQueue
    split
    · rename_i c' hs
      obtain ⟨hg', hl'⟩ := released_serveHead (hq e List.mem_cons_self) hs hg hl
      exact released_serveQueue q c' (fun x hx => hq x (List.mem_cons_of_mem e hx)) hg' hl'
    · exact released_iff.2 ⟨hg, hq, hl⟩

/-- R97: the queue service gives nothing to a slot that does not wait. -/
theorem Chip.released.queueService (h : c.released k) : (queueService c).released k := by
  obtain ⟨hg, hq, hl⟩ := released_iff.1 h
  have hs : (if c.power.serviceDue = true ∧ c.power.shed.isEmpty = true then serveQueue c.power.queue c else c).released k := by
    split
    · exact released_serveQueue _ _ hq hg hl
    · exact h
  obtain ⟨hg', hq', hl'⟩ := released_iff.1 hs
  refine released_iff.2 ⟨hg', fun e he => ?_, hl'⟩
  obtain ⟨x, hx, rfl⟩ := List.mem_map.1 he
  exact hq' x hx

/-- What the release of a grant depends on. -/
theorem Chip.released.of_power {c' : Chip} (h : c.released k) (hp : c'.power = c.power) : c'.released k := by
  obtain ⟨hg, hq, hl⟩ := released_iff.1 h
  refine released_iff.2 ⟨?_, by rw [hp]; exact hq, by rw [hp]; exact hl⟩
  show c'.power.grants.read k = _
  rw [hp]
  exact hg

/-! ## What the fan controller asks of the other blocks -/

/-- A property that no call the fan controller makes of another block disturbs, and that says nothing of the fans. -/
structure FanCallsKeep (P : Chip → Prop) : Prop where
  fans : ∀ f c, P c → P { c with fans := f }
  raise : ∀ o x c, P c → P (raise o x c)
  post : ∀ m c, P c → P (post m c)
  giveReservation : ∀ f band rated c, P c → P (giveReservation f band rated c)
  requestThermal : ∀ k c, P c → P (requestThermal k c)
  removeReason : ∀ r k c, P c → P (removeReason r k c)

namespace FanCallsKeep

variable {P : Chip → Prop} (h : FanCallsKeep P) {c : Chip}
include h

theorem modZone (z : Fin 4) (f : Zone → Zone) (hc : P c) : P (modZone z f c) := h.fans _ _ hc
theorem modFan (i : Fin 8) (f : Fan → Fan) (hc : P c) : P (modFan i f c) := h.fans _ _ hc

theorem reserve (f : Fin 8) (step : Nat) (hc : P c) : P (reserve f step c) := h.giveReservation _ _ _ _ (h.modFan _ _ hc)

theorem startSearch (f : Fin 8) (hc : P c) : P (startSearch f c) := h.modFan _ _ hc

theorem enterCalibrating (f : Fin 8) (hc : P c) : P (enterCalibrating f c) :=
  h.startSearch _ (h.modFan _ _ (h.reserve _ _ hc))

theorem enterBoost (f : Fin 8) (hc : P c) : P (enterBoost f c) := by
  unfold Machine.enterBoost
  extract_lets restarted
  exact h.modFan _ _ (h.reserve _ _ hc)

theorem enterPinned (f : Fin 8) (band : Nat) (hc : P c) : P (enterPinned f band c) := h.reserve _ _ (h.modFan _ _ hc)

theorem targetChange (f : Fin 8) (t : Nat) (hc : P c) : P (targetChange f t c) := by
  have h1 := h.modFan f (fun r => { r with target := t }) hc
  unfold Machine.targetChange
  dsimp only
  split
  · exact ite_keeps (h.modFan _ _ h1) h1
  · exact h.modFan _ _ h1
  · exact ite_keeps (h.modFan _ _ h1) h1
  all_goals exact h1

theorem deliverTarget (f : Fin 8) (hc : P c) : P (deliverTarget f c) :=
  ite_keeps hc (ite_keeps hc (h.targetChange _ _ hc))

theorem recomputeTarget (z : Fin 4) (hc : P c) : P (recomputeTarget z c) :=
  ite_keeps hc (h.deliverTarget _ (h.deliverTarget _ (h.modZone _ _ hc)))

theorem recomputeDemand (z : Fin 4) (hc : P c) : P (recomputeDemand z c) :=
  ite_keeps hc (h.recomputeTarget _ (h.modZone _ _ hc))

theorem sendDrains (z : Fin 4) (hc : P c) : P (sendDrains z c) :=
  forEach_keeps _ _ (fun _ _ hx => ite_keeps (h.post _ _ (h.fans _ _ hx)) hx) _ hc

theorem boostFan (f : Fin 8) (hc : P c) : P (boostFan f c) := by
  unfold Machine.boostFan
  cases (c.fan f).state
  case calibrating | tracking | locked | pinned => exact h.enterBoost _ hc
  all_goals exact hc

theorem beginEmergency (z : Fin 4) (hc : P c) : P (beginEmergency z c) :=
  h.modZone _ _ (forEach_keeps _ _ (fun _ _ hx => h.requestThermal _ _ hx) _
    (h.boostFan _ (h.boostFan _ (h.raise _ _ _ (h.modZone _ _ hc)))))

theorem unboostFan (f : Fin 8) (hc : P c) : P (unboostFan f c) := by
  unfold Machine.unboostFan
  refine ite_keeps ?_ hc
  split
  · exact h.enterPinned _ _ hc
  · exact h.enterCalibrating _ hc

theorem endEmergency (z : Fin 4) (hc : P c) : P (endEmergency z c) :=
  h.modZone _ _ (h.unboostFan _ (h.unboostFan _ (forEach_keeps _ _ (fun _ _ hx => h.removeReason _ _ _ hx) _
    (h.modZone _ _ hc))))

theorem evaluateZone (z : Fin 4) (hc : P c) : P (evaluateZone z c) :=
  have h1 := h.modZone z (fun r => { r with cause := some (c.emergencyCause z) }) hc
  ite_keeps (ite_keeps (h.endEmergency _ hc) (ite_keeps (h.sendDrains _ h1) h1)) (ite_keeps (h.beginEmergency _ hc) hc)

theorem refreshZone (z : Fin 4) (hc : P c) : P (refreshZone z c) := h.evaluateZone _ (h.recomputeDemand _ hc)

/-- R27: a slot's change of state, reported to the fan controller. -/
theorem fanOnSlot (k : Fin 16) (old new : SlotState) (hc : P c) : P (fanOnSlot k old new c) := by
  unfold Machine.fanOnSlot
  extract_lets c1 c2
  have h1 : P c1 := ite_keeps (h.fans _ _ hc) hc
  have h2 : P c2 := h.refreshZone _ h1
  exact ite_keeps (ite_keeps (h.requestThermal _ _ h2) h2) h1

theorem fanOnStatus (k : Fin 16) (hc : P c) : P (fanOnStatus k c) := ite_keeps (h.refreshZone _ hc) hc

end FanCallsKeep

theorem Chip.barren_fanCalls (k : Fin 16) : FanCallsKeep fun c => c.barren k where
  fans _ _ h := ⟨h.grant, h.queue, h.shed, h.switch, h.state⟩
  raise _ _ _ h := h.raise _ _
  post _ _ h := h.post _
  giveReservation _ _ _ _ h := h.giveReservation _ _ _
  requestThermal _ _ h := h.requestThermal _
  removeReason _ _ _ h := h.removeReason _ _

/-! ## An entry that gives the grant back (R94) -/

/-- The states a slot's grant is given back for: none of them awaits, holds or draws one. -/
def SlotState.givesBack (s : SlotState) : Bool :=
  s = .empty ∨ s = .seated ∨ s = .interrogating ∨ s = .negotiating ∨ s = .awaitingAdmit ∨ s = .held

theorem holdsGrant_of_givesBack {s : SlotState} (h : s.givesBack = true) :
    s.holdsGrant = false ∧ s.powered = false ∧ s ≠ .running := by
  cases s <;> simp [SlotState.givesBack] at h <;> exact ⟨rfl, rfl, nofun⟩

/-- R94: the release itself. -/
theorem barren_releaseGrant (hw : (c.slot k).switchClosed = false) (hs : (c.slot k).state ≠ .running) :
    (releaseGrant k c).barren k := by
  have hleave : (leaveQueue k (setGrant k GrantRecord.reset c)).grant k = .reset ∧
      ∀ e ∈ (leaveQueue k (setGrant k GrantRecord.reset c)).power.queue, e.slot ≠ k := by
    unfold leaveQueue
    split
    · rename_i hq
      exact ⟨grant_setGrant_self .., queueEntry_eq_none_iff.1 hq⟩
    · exact ⟨grant_setGrant_self .., fun e he => of_decide_eq_true (List.mem_filter.1 he).2⟩
  have hslot : (leaveQueue k (setGrant k GrantRecord.reset c)).slot k = c.slot k :=
    (c.sameSlots_keeps.toPowerKeeps.leaveQueue k (c.sameSlots_keeps.power _ _ (.refl c))).slot k
  refine Chip.barren.powerEvent true (c := c) ⟨hleave.1, hleave.2, fun e he => of_decide_eq_true (List.mem_filter.1 he).2, ?_, ?_⟩
  · exact (congrArg Slot.switchClosed hslot).trans hw
  · exact fun h => hs ((congrArg Slot.state hslot).symm.trans h)

/-- R27: an entry to a state that gives the grant back, reported, leaves it given back. -/
theorem Chip.barren.reportSlot (h : c.barren k) (old : SlotState) {new : SlotState} (hn : new.givesBack = true) :
    (reportSlot k old new c).barren k := by
  have hpower : (powerOnSlot k new c).barren k := by
    refine Chip.barren.powerEvent true (c := c) (Chip.barren.alignUplift ?_ k)
    cases new
    case awaitingGrant | powering | running => exact absurd hn (by decide)
    all_goals exact h
  have hhub : HubKeeps fun c => c.barren k :=
    ⟨fun _ _ h => ⟨h.grant, h.queue, h.shed, h.switch, h.state⟩, fun _ _ _ h => h.raise _ _⟩
  exact hhub.hubOnSlot _ _ _ ((Chip.barren_fanCalls k).fanOnSlot _ _ _ hpower)

/-- R12, R19, R22 to R24: a slot that leaves the states that hold or await a grant has given it back. -/
theorem barren_enterState {new : SlotState} {own : Slot → Slot} (hold : (c.slot k).state.holdsGrant = true)
    (hn : new.givesBack = true) (hw : (own ((c.slot k).enter new)).switchClosed = new.powered)
    (hs : (own ((c.slot k).enter new)).state = new) : (enterState k new own c).barren k := by
  obtain ⟨hnew, hpow, hrun⟩ := holdsGrant_of_givesBack hn
  have hslot : (c.entered k new own).slot k = own ((c.slot k).enter new) := by
    show (engineOnSlot k _ new _).slots.read k = _
    rw [slots_engineOnSlot]
    exact slot_setSlot_self ..
  have hrel : grantOnSlot k (c.slot k).state new (c.entered k new own) = releaseGrant k (c.entered k new own) :=
    if_pos (by rw [hold, hnew]; rfl)
  rw [enterState_eq, hrel]
  refine Chip.barren.reportSlot (barren_releaseGrant ?_ ?_) _ hn
  · rw [hslot, hw, hpow]
  · rw [hslot, hs]
    exact hrun

end Sys2Proof.Machine

/-!
PROOF. The four slot timers (R13, R14, R17, R19): the statement about them does not hold. An ADMISSION entry before the slot in
the grant queue may stand for a slot whose grant is above the draw it is served at (no reachable part has one, and the
statement asks for none of the invariants): its service frees draw, and the uplift that the part had no draw for is served too.
-/

namespace Sys2Proof.Machine

/-- Slot 3 STARTING at level FLOOR, 50 W below its run draw with 10 W to spare, behind an ADMISSION entry of slot 5, which
holds 1000 W that it does not draw. -/
def upliftBehindSurplus : State :=
  { pending := [], chip := State.reset.chip
      |> modSlot 3 (fun s => { s with
          state := .starting, resetHold := some 100, switchClosed := true
          terms := some { runDraw := 100, floorDraw := 50, priority := 0, requests := [], short := false } })
      |> setGrant 3 { GrantRecord.reset with grant := 50, level := .floor, capSet := .onlyBudget }
      |> setGrant 5 { GrantRecord.reset with grant := 1000, level := .full }
      |> setQueue [{ slot := 5, kind := .admission, need := 0, priority := 7, fresh := false }]
      |> modFan 0 (fun r => { r with state := .pinned })
      |> modSupply 0 (fun p => { p with state := .online, capacity := 2000 })
      |> fun c => setSettings { c.settings with policy := .none, baseDraw := 940 } c }

set_option maxRecDepth 8000 in
/-- The part meets the hypotheses of the uplift that waits. -/
theorem upliftBehindSurplus_waits :
    (let c := upliftBehindSurplus.chip
     (c.slot 3).state = .starting ∧ (c.slot 3).resetHold.isSome = true ∧ (c.grant 3).level = .floor ∧
     (c.grant 3).capSet = { CapSet.empty with budget := true } ∧ c.queueEntry 3 = none ∧
     (c.zone (c.slotZone 3)).emergency = false ∧ c.runDraw 3 - (c.grant 3).grant = 50 ∧ c.available = 10) := by decide

set_option maxRecDepth 8000 in
/-- At the end of the event the zone has no emergency, and nothing waits. -/
theorem upliftBehindSurplus_served :
    (let c := queueService (resetHoldExpired 3 upliftBehindSurplus.chip)
     (c.zone (upliftBehindSurplus.chip.slotZone 3)).emergency = false ∧ c.power.queue = []) := by decide

/-- Refutes O11: the service of an entry before it frees the draw that the slot's uplift needs. -/
theorem not_slotTimersMoveSlot : ¬ Obligations.SlotTimersMoveSlot := by
  intro h
  obtain ⟨hstate, hhold, hlevel, hcaps, hentry, hzone, hneed, havailable⟩ := upliftBehindSurplus_waits
  obtain ⟨hquiet, hempty⟩ := upliftBehindSurplus_served
  obtain ⟨t, ht, -, -, -, -, -, -, -, -, -, -, huplift, -⟩ := h.2.1 upliftBehindSurplus 3 hstate hhold
  have hexec : exec (.resetHoldExpiry 3) upliftBehindSurplus =
      .next (upliftBehindSurplus.onChip (queueService (resetHoldExpired 3 upliftBehindSurplus.chip))) := rfl
  obtain rfl : _ = t := Host.Outcome.next.inj (hexec.symm.trans ht)
  obtain ⟨e, he, -⟩ := (huplift hlevel hcaps hentry hzone hquiet).1 (by rw [havailable, hneed]; decide)
  have hqueue : e ∈ (queueService (resetHoldExpired 3 upliftBehindSurplus.chip)).power.queue := he
  rw [hempty] at hqueue
  exact List.not_mem_nil hqueue

end Sys2Proof.Machine

/-!
PROOF. The events that give a slot's grant back: the loss of a contact (R22, R23), power good (R5, R19, R24), close orders and
drain requests (R12, R16), and the orders that readmit, evict and force off (R20, R25, R26).
-/

namespace Sys2Proof.Machine

variable {k : Fin 16} {c : Chip}

/-! ## Entries that give the grant back (R94) -/

theorem power_startInterrogation (c : Chip) : (startInterrogation k c).power = c.power :=
  (⟨fun _ _ h => h, fun _ _ h => h⟩ : EngineKeeps fun c' => c'.power = c.power).startInterrogation k rfl

theorem power_vacate (l : Location) (c : Chip) : (vacate l c).power = c.power :=
  (⟨fun _ _ h => h, fun _ _ _ h => h⟩ : InvKeeps fun c' => c'.power = c.power).vacate l rfl

theorem released_toHeld (r : HoldReason) (hs : (c.slot k).state.holdsGrant = true) : (toHeld k r c).released k :=
  (barren_enterState hs rfl rfl rfl).released.of_power rfl

theorem released_toSeated (hs : (c.slot k).state.holdsGrant = true) : (toSeated k c).released k :=
  (barren_enterState hs rfl rfl rfl).released

theorem released_toInterrogating (hs : (c.slot k).state.holdsGrant = true) : (toInterrogating k c).released k :=
  (barren_enterState hs rfl rfl rfl).released.of_power (power_startInterrogation _)

theorem released_powerFault (hs : (c.slot k).state.holdsGrant = true) : (powerFault k c).released k :=
  (barren_enterState hs rfl rfl rfl).released.of_power rfl

theorem released_toOutcome (o : PdOutcome) (hs : (c.slot k).state.holdsGrant = true) : (toOutcome k o c).released k := by
  cases o
  case interrogating => exact released_toInterrogating hs
  all_goals exact released_toHeld _ hs

theorem released_completePowerDown (hs : (c.slot k).state.holdsGrant = true) : (completePowerDown k c).released k := by
  unfold completePowerDown
  extract_lets o c1
  have h1 : c1.released k :=
    ite_keeps (P := fun c' => c'.released k) (released_toOutcome _ hs) (released_toSeated hs)
  clear_value c1
  split
  · exact h1.of_power rfl
  · exact h1

/-- R18, R19: a power-down that completes at once gives the grant back. -/
theorem released_toPoweringDown (cause : Option DrainCause) (o : PdOutcome) (hg : (c.slot k).powerGood = false) :
    (toPoweringDown k cause o c).released k := by
  rw [toPoweringDown_complete _ _ hg]
  refine released_completePowerDown ?_
  rw [slot_enterState]
  rfl

theorem toEmpty_eq (c : Chip) : toEmpty k c =
    if (c.slot k).handle.isSome then vacate (.slot k) (enterState k .empty id c) else enterState k .empty id c := rfl

theorem released_toEmpty (hs : (c.slot k).state.holdsGrant = true) : (toEmpty k c).released k := by
  have h := (barren_enterState (own := id) (new := .empty) hs rfl rfl rfl).released
  rw [toEmpty_eq]
  split
  · exact h.of_power (power_vacate _ _)
  · exact h

/-! ## The unit at a location that leaves (R62) -/

theorem departs_vacate (l : Location) (c : Chip) : c.departs l (vacate l c) := by
  refine ⟨fun hb => ?_, fun h r hb hr => ?_⟩
  · unfold vacate
    rw [hb]
  · have hv : vacate l c = writeRecord h { r with present := false } c := by
      unfold vacate
      rw [hb]
      dsimp only
      rw [hr]
    rw [hv]
    exact ⟨rfl, invHandle_setInvHandle_self .., fun j hj => (invHandle_setInvHandle ..).trans (if_neg hj)⟩

/-- What a departure depends on. -/
theorem Chip.departs.of_inventory {l : Location} {c' d d' : Chip} (h : c.departs l c') (hd : d.inventory = c.inventory)
    (hd' : d'.inventory = c'.inventory) : d.departs l d' := by
  unfold Chip.departs Chip.boundAt Chip.findHandle Chip.invHandle at *
  rw [hd, hd']
  exact h

theorem inventory_enterState (new : SlotState) (own : Slot → Slot) (c : Chip) :
    (enterState k new own c).inventory = c.inventory :=
  ((onlySlotRecord_keeps k c).enterState new own (c.onlySlotRecord_refl k)).2

/-- R62: what a slot that becomes EMPTY makes of the inventory. -/
theorem inventory_toEmpty (c : Chip) : ((c.slot k).handle.isSome = true → c.departs (.slot k) (toEmpty k c)) ∧
    ((c.slot k).handle = none → (toEmpty k c).inventory = c.inventory) := by
  rw [toEmpty_eq]
  refine ⟨fun h => ?_, fun h => ?_⟩
  · rw [if_pos h]
    exact (departs_vacate _ _).of_inventory (inventory_enterState ..).symm rfl
  · rw [h, if_neg (by decide)]
    exact inventory_enterState ..

/-! ## The channels of a slot that stops (R161) -/

/-- Every channel of a slot is held for it, with its queues empty. -/
abbrev Chip.stopped (c : Chip) (k : Fin 16) : Prop := ∀ h ch, c.channel h = some ch → ch.slot = k →
  ch.state = .hold ∧ ch.holdCause = some .slot ∧ ch.down = [] ∧ ch.up = []

theorem holdForSlot_own : OwnChannel holdForSlot := fun _ _ _ hj => (channel_flush_ne hj).trans (channel_modChannel_ne hj)

/-- R161: the slot's power stops. -/
theorem stopped_hubStop (k : Fin 16) (c : Chip) : (hubStop k c).stopped k := by
  intro h ch' hch' hk
  cases hc : c.channel h with
  | none =>
    have hn := channel_forEach_of_not_mem (c := c) holdForSlot_own
      (not_mem_channelsWith_of_none (p := fun ch => decide (ch.slot = k)) hc)
    exact nomatch (hn.trans hc).symm.trans hch'
  | some ch =>
    by_cases hs : ch.slot = k
    · obtain ⟨c', -, hc', hf, -⟩ := channel_forEach_of_mem holdForSlot_own (P := fun _ => True) (fun _ _ _ => trivial)
        (nodup_channelsWith fun ch => decide (ch.slot = k)) (mem_channelsWith_of hc (decide_eq_true hs)) trivial
      obtain ⟨x, hx, -, hstate, hcause, hdown, hup⟩ := holdForSlot_of_channel (hc'.trans hc)
      obtain rfl : x = ch' := Option.some.inj ((hf.trans hx).symm.trans hch')
      exact ⟨hstate, hcause, hdown, hup⟩
    · have hn := channel_forEach_of_not_mem (c := c) holdForSlot_own
        (not_mem_channelsWith_of (p := fun ch => decide (ch.slot = k)) hc (decide_eq_false hs))
      obtain rfl : ch = ch' := Option.some.inj ((hn.trans hc).symm.trans hch')
      exact absurd hk hs

theorem Chip.stopped.of_hub {c' : Chip} (h : c.stopped k) (hh : c'.hub = c.hub) : c'.stopped k := by
  intro i ch hch
  refine h i ch ?_
  show c.hub.channels.read i = _
  rw [← hh]
  exact hch

theorem stopped_hubClearGrants (j : Fin 16) (h : c.stopped k) : (hubClearGrants j c).stopped k := by
  refine forEach_keeps (P := fun c => c.stopped k) _ (fun h => modChannel h fun ch => { ch with granted := false })
    (fun i c' hc' => ?_) _ h
  intro i' ch hch hk
  by_cases hi : i' = i
  · subst hi
    cases hx : c'.channel i' with
    | none =>
      rw [modChannel_of_none hx, hx] at hch
      exact nomatch hch
    | some x =>
      rw [modChannel_of_channel hx, channel_setChannel_self] at hch
      obtain rfl := Option.some.inj hch
      exact hc' i' x hx hk
  · exact hc' i' ch ((channel_modChannel_ne hi).symm.trans hch) hk

/-- R161: a slot that becomes EMPTY from a powered state has its channels held for it. -/
theorem stopped_enterState_empty (hp : (c.slot k).state.powered = true) : (enterState k .empty id c).stopped k := by
  rw [enterState_eq]
  unfold reportSlot hubOnSlot
  dsimp only
  rw [if_pos (by rw [hp]; rfl)]
  exact stopped_hubClearGrants k (stopped_hubStop k _)

theorem hub_vacate (l : Location) (c : Chip) : (vacate l c).hub = c.hub :=
  (⟨fun _ _ h => h, fun _ _ _ h => h⟩ : InvKeeps fun c' => c'.hub = c.hub).vacate l rfl

theorem stopped_toEmpty (hp : (c.slot k).state.powered = true) : (toEmpty k c).stopped k := by
  have h := stopped_enterState_empty hp
  rw [toEmpty_eq]
  split
  · exact h.of_hub (hub_vacate _ _)
  · exact h

theorem hub_queueService (c : Chip) : (queueService c).hub = c.hub :=
  (⟨fun _ _ h => h, fun _ _ _ h => h, fun _ _ h => h⟩ : PowerKeeps fun c' => c'.hub = c.hub).queueService rfl

/-! ## The loss of a contact (R22, R23) -/

theorem engines_vacate (l : Location) (c : Chip) : (vacate l c).engines = c.engines :=
  (⟨fun _ _ h => h, fun _ _ _ h => h⟩ : InvKeeps fun c' => c'.engines = c.engines).vacate l rfl

/-- R36: the engine of a slot that enters a state in which its list is kept empty. -/
theorem engine_enterState_of_empties {new : SlotState} (own : Slot → Slot) (hn : new.keepsListEmpty = true) (c : Chip) :
    (enterState k new own c).engine k =
      { Engine.reset with quiet := (c.engine k).quiet || (c.engine k).inFlight.isSome } := by
  rw [engine_enterState]
  unfold Chip.entered engineOnSlot
  rw [if_pos hn]
  exact engine_emptyEngine _

theorem engine_toEmpty (c : Chip) : (toEmpty k c).engine k =
    { Engine.reset with quiet := (c.engine k).quiet || (c.engine k).inFlight.isSome } := by
  have h := engine_enterState_of_empties (k := k) (new := .empty) id rfl c
  rw [toEmpty_eq]
  split
  · exact (congrArg (fun b : Bank 16 Engine => b.read k) (engines_vacate _ _)).trans h
  · exact h

/-- What the loss of a contact leaves besides the record of its slot. -/
structure Chip.Emptied (k : Fin 16) (c t : Chip) : Prop where
  engine : t.engine k = { Engine.reset with quiet := (c.engine k).quiet || (c.engine k).inFlight.isSome }
  channels : (c.slot k).state.powered = true → t.stopped k
  grant : (c.slot k).state.holdsGrant = true → t.released k
  departs : (c.slot k).handle.isSome = true → c.departs (.slot k) t
  inventory : (c.slot k).handle = none → t.inventory = c.inventory

theorem emptied_toEmpty (k : Fin 16) (c : Chip) : c.Emptied k (toEmpty k c) :=
  ⟨engine_toEmpty c, stopped_toEmpty, released_toEmpty, (inventory_toEmpty c).1, (inventory_toEmpty c).2⟩

theorem Chip.Emptied.queueService {t : Chip} (h : c.Emptied k t) : c.Emptied k (queueService t) where
  engine := ((queueService_sameSlots t).engine k).trans h.engine
  channels hp := (h.channels hp).of_hub (hub_queueService t)
  grant hg := (h.grant hg).queueService
  departs hh := (h.departs hh).of_inventory rfl (queueService_sameSlots t).inventory
  inventory hh := ((queueService_sameSlots t).inventory).trans (h.inventory hh)

theorem emptied_contactLost (hs : (c.slot k).state ≠ .empty) : c.Emptied k (queueService (contactLost k c)) ∧
    ((c.slot k).state.powered = true → (queueService (contactLost k c)).alerted (.slot k) .surpriseRemoval) := by
  have h := emptied_toEmpty k c
  rw [contactLost_eq hs]
  split
  · have hraise : c.Emptied k (raise (.slot k) .surpriseRemoval (toEmpty k c)) :=
      ⟨h.engine, h.channels, fun hg => h.grant hg, h.departs, h.inventory⟩
    exact ⟨hraise.queueService, fun _ => (alerted_raise _ _ _).queueService⟩
  · rename_i hp
    exact ⟨h.queueService, fun hp' => absurd hp' hp⟩

/-- What a lost contact leaves of its slot, the other slots, and what is reported. -/
theorem contactLost_leaves {s : State} {i : SlotInput} (hs : (s.chip.slot k).state ≠ .empty)
    (ht : ((s.chip.slot k).input i).timer = true) (hp : ((s.chip.slot k).input i).pin = false)
    (hf : ((s.chip.slot k).input i).field = true) :
    (let t := queueService (slotDebounced k i (contactMade k) (contactLost k) s.chip)
     t.slot k = ((s.chip.slot k).putInput i ((s.chip.slot k).input i).expire).enter .empty ∧
     s.chip.Emptied k t ∧ ((s.chip.slot k).state.powered = true → t.alerted (.slot k) .surpriseRemoval) ∧
     s.chip.onlySlot k t) := by
  have hk := onlySlot_keeps k s.chip
  have hstate : ((s.chip.debounced k i).slot k).state = (s.chip.slot k).state := by
    rw [slot_debounced]
    cases i <;> rfl
  have hhandle : ((s.chip.debounced k i).slot k).handle = (s.chip.slot k).handle := by
    rw [slot_debounced]
    cases i <;> rfl
  obtain ⟨h, halert⟩ := emptied_contactLost (c := s.chip.debounced k i) (k := k) (by rw [hstate]; exact hs)
  dsimp only
  rw [slotDebounced_lost ht hp hf]
  refine ⟨?_, ⟨h.engine, ?_, ?_, ?_, ?_⟩, ?_, hk.queueService (onlySlot_contactLost (hk.slot _ _ (s.chip.onlySlotRecord_refl k).1))⟩
  · rw [(queueService_sameSlots _).slot, slot_contactLost (by rw [hstate]; exact hs), slot_debounced]
  · rw [← hstate]
    exact h.channels
  · rw [← hstate]
    exact h.grant
  · rw [← hhandle]
    exact fun hh => (h.departs hh).of_inventory rfl rfl
  · rw [← hhandle]
    exact h.inventory
  · rw [← hstate]
    exact halert

/-- Settles O8: both contacts take the same way out. -/
theorem contactLossEmptiesSlot : Obligations.ContactLossEmptiesSlot := by
  unfold Obligations.ContactLossEmptiesSlot
  intro s k x moved hs ht hp hf
  have hmoved : moved = (s.chip.slot k).input (contactInput x) := by cases x <;> rfl
  rw [hmoved] at ht hp hf
  obtain ⟨hslot, h, halert, honly⟩ := contactLost_leaves hs ht hp hf
  refine ⟨_, rfl, ?_, ?_, fun hpow => ⟨halert hpow, h.channels hpow⟩, h.grant, h.departs, h.inventory, honly⟩
  · dsimp only [State.onChip]
    rw [hslot]
    exact ⟨rfl, rfl, rfl, rfl, rfl, rfl, rfl, rfl, rfl, rfl, rfl, rfl, rfl, rfl, rfl, rfl, rfl⟩
  · dsimp only [State.onChip]
    rw [h.engine]
    exact ⟨rfl, rfl, rfl, rfl, rfl, rfl, rfl⟩

/-! ## Power good (R5, R19, R24, Table 8) -/

theorem alerted_completePowerDown {x : Cause} (ho : ((c.slot k).outcome.getD .interrogating).alert = some x) :
    (completePowerDown k c).alerted (.slot k) x := by
  unfold completePowerDown
  extract_lets o c1
  have ho' : o.alert = some x := ho
  rw [ho']
  exact alerted_raise _ _ _

/-- R19, Table 10: the slot after a power-down that completes, by its latch and its outcome. -/
theorem completePowerDown_leaves (hs : (c.slot k).state.holdsGrant = true) :
    (let t := queueService (completePowerDown k c)
     let r := t.slot k
     r.switchClosed = false ∧ r.powerDownTimer = none ∧ t.released k ∧
      (if (c.slot k).latch.field then
        (match (c.slot k).outcome.getD .interrogating with
         | .interrogating => r.state = .interrogating
         | .heldEvicted => r.state = .held ∧ r.holdReason = some .evicted
         | .heldShed => r.state = .held ∧ r.holdReason = some .shed ∧ t.alerted (.slot k) .shedOff
         | .heldThermal => r.state = .held ∧ r.holdReason = some .thermal ∧ t.alerted (.slot k) .thermalDrain
         | .heldAdoptMismatch => r.state = .held ∧ r.holdReason = some .adoptMismatch
         | .heldForced => r.state = .held ∧ r.holdReason = some .forced
         | .heldPowerFault => r.state = .held ∧ r.holdReason = some .powerFault)
       else r.state = .seated)) := by
  have hslot := (queueService_sameSlots (completePowerDown k c)).slot k
  have halert {x : Cause} (hx : ((c.slot k).outcome.getD .interrogating).alert = some x) :=
    (alerted_completePowerDown hx).queueService
  have hrel := (released_completePowerDown hs).queueService
  dsimp only
  rw [hslot, slot_completePowerDown]
  cases hl : (c.slot k).latch.field with
  | false => exact ⟨rfl, rfl, hrel, rfl⟩
  | true =>
    rw [if_pos rfl, if_pos rfl, slot_toOutcome]
    cases ho : (c.slot k).outcome.getD .interrogating
    case interrogating => exact ⟨rfl, rfl, hrel, rfl⟩
    case heldShed => exact ⟨rfl, rfl, hrel, rfl, rfl, halert (by rw [ho]; rfl)⟩
    case heldThermal => exact ⟨rfl, rfl, hrel, rfl, rfl, halert (by rw [ho]; rfl)⟩
    all_goals exact ⟨rfl, rfl, hrel, rfl, rfl⟩

/-- R24: the slot after a power fault. -/
theorem powerFault_leaves (hs : (c.slot k).state.holdsGrant = true) :
    (let t := queueService (powerFault k c)
     let r := t.slot k
     r.state = .held ∧ r.holdReason = some .powerFault ∧ r.drainCause = none ∧ r.switchClosed = false ∧
      r.resetReleased = false ∧ r.pollTimer = none ∧ r.drainTimer = none ∧ r.handle = (c.slot k).handle ∧
      r.terms = (c.slot k).terms ∧ t.alerted (.slot k) .powerFault ∧ t.alerted (.slot k) .held ∧ t.released k) := by
  have hslot := (queueService_sameSlots (powerFault k c)).slot k
  have hheld : (powerFault k c).alerted (.slot k) .held := alerted_raise _ _ _
  have hfault : (powerFault k c).alerted (.slot k) .powerFault := Chip.alerted.raise (alerted_raise _ _ _) _ _
  dsimp only
  rw [hslot, slot_powerFault]
  exact ⟨rfl, rfl, rfl, rfl, rfl, rfl, rfl, rfl, rfl, hfault.queueService, hheld.queueService,
    (released_powerFault hs).queueService⟩

@[simp] theorem slot_toStarting (c : Chip) : (toStarting k c).slot k =
    { (c.slot k).enter .starting with resetHold := some c.settings.resetHold } := slot_enterState ..

/-- R5: the level of power good in a slot. -/
abbrev Chip.powerGoodTo (c : Chip) (k : Fin 16) (level : Bool) : Chip := setSlot k { c.slot k with powerGood := level } c

/-- Table 8: what a new level does, the level written, by the state of the slot. -/
def powerGoodTaken (k : Fin 16) : SlotState → Bool → Chip → Chip
  | .powering, true => toStarting k
  | .starting, false | .running, false | .draining, false | .adopting, false => powerFault k
  | .poweringDown, false => completePowerDown k
  | _, _ => id

theorem pwrGoodChanged_of_change {level : Bool} (h : (c.slot k).powerGood = !level) :
    pwrGoodChanged k level c = powerGoodTaken k (c.slot k).state level (c.powerGoodTo k level) := by
  have hs : ((c.powerGoodTo k level).slot k).state = (c.slot k).state := by rw [slot_setSlot_self]
  have htaken : pwrGoodChanged k level c =
      powerGoodTaken k ((c.powerGoodTo k level).slot k).state level (c.powerGoodTo k level) := by
    refine (if_neg (by rw [h]; cases level <;> decide)).trans ?_
    show _ = powerGoodTaken k ((modSlot k (fun s => { s with powerGood := level }) c).slot k).state level
      (modSlot k (fun s => { s with powerGood := level }) c)
    generalize modSlot k (fun s => { s with powerGood := level }) c = c'
    dsimp only
    generalize (c'.slot k).state = x
    cases x <;> cases level <;> rfl
  rw [htaken, hs]

theorem samePins_powerGoodTaken (x : SlotState) (level : Bool) (c : Chip) :
    (c.slot k).SamePins ((powerGoodTaken k x level c).slot k) := by
  unfold powerGoodTaken
  split
  · rw [slot_toStarting]
    exact ⟨rfl, rfl, rfl, rfl⟩
  case h_6 => exact samePins_completePowerDown c
  case h_7 => exact .refl _
  all_goals exact samePins_powerFault c

/-- A power good that no rule of the slot's state takes is recorded. -/
theorem powerGoodTo_recorded (level : Bool) {x : SlotState} (hx : (c.slot k).state = x) :
    (queueService (c.powerGoodTo k level)).slot k = { c.slot k with state := x, powerGood := level } := by
  rw [(queueService_sameSlots _).slot, slot_setSlot_self, ← hx]

/-- Settles O10, by the state of the slot and the level. -/
theorem powerGoodByState : Obligations.PowerGoodByState := by
  unfold Obligations.PowerGoodByState
  intro s k level hlevel
  have h := onlySlotRecord_keeps k s.chip
  have honly : s.chip.onlySlotRecord k (queueService (pwrGoodChanged k level s.chip)) :=
    h.queueService (h.pwrGoodChanged level (s.chip.onlySlotRecord_refl k))
  have hevent := pwrGoodChanged_of_change hlevel
  have hpin : ((queueService (pwrGoodChanged k level s.chip)).slot k).powerGood = level := by
    rw [(queueService_sameSlots _).slot, hevent, (samePins_powerGoodTaken ..).powerGood, slot_setSlot_self]
  have hc : (s.chip.powerGoodTo k level).slot k = { s.chip.slot k with powerGood := level } := slot_setSlot_self ..
  refine ⟨_, rfl, hpin, ?_, honly⟩
  dsimp only [State.onChip]
  rw [hevent]
  cases hs : (s.chip.slot k).state
  case powering =>
    cases level with
    | true =>
      have hslot : (queueService (toStarting k (s.chip.powerGoodTo k true))).slot k = _ :=
        ((queueService_sameSlots _).slot k).trans (slot_toStarting _)
      rw [hc] at hslot
      dsimp only [powerGoodTaken]
      rw [hslot]
      exact ⟨rfl, rfl, rfl, rfl, rfl⟩
    | false => exact powerGoodTo_recorded _ hs
  case starting | running | draining | adopting =>
    cases level with
    | true => exact powerGoodTo_recorded _ hs
    | false =>
      have hfault := powerFault_leaves (c := s.chip.powerGoodTo k false) (k := k) (by rw [hc, hs]; rfl)
      rw [hc] at hfault
      exact hfault
  case poweringDown =>
    cases level with
    | true => exact powerGoodTo_recorded _ hs
    | false =>
      have hdone := completePowerDown_leaves (c := s.chip.powerGoodTo k false) (k := k) (by rw [hc, hs]; rfl)
      rw [hc] at hdone
      exact hdone
  all_goals cases level <;> exact powerGoodTo_recorded _ hs

end Sys2Proof.Machine

/-!
PROOF. Close orders and drain requests (R12, R16, Table 9), and the orders that readmit, evict and force off (R20, R25, R26).
-/

namespace Sys2Proof.Machine

variable {k : Fin 16} {c : Chip}

/-! ## Power-downs that complete at once (R18, R19) -/

/-- R18: the record of a slot that enters POWERING_DOWN. -/
abbrev Slot.down (cause : Option DrainCause) (o : PdOutcome) (s : Slot) : Slot :=
  { s.enter .poweringDown with drainCause := cause, outcome := some o, powerDownTimer := some Config.powerDownMs }

/-- R19: with power good deasserted the slot is held for the reason of the outcome, or seated, by its latch. -/
theorem slot_toPoweringDown_completed (cause : Option DrainCause) {o : PdOutcome} {r : HoldReason}
    (hg : (c.slot k).powerGood = false) (ho : ∀ c : Chip, toOutcome k o c = toHeld k r c) :
    (toPoweringDown k cause o c).slot k = if (c.slot k).latch.field then
      { ((c.slot k).down cause o).enter .held with holdReason := some r } else ((c.slot k).down cause o).enter .seated := by
  rw [toPoweringDown_complete _ _ hg, slot_completePowerDown, slot_enterState]
  refine ite_congr rfl (fun _ => ?_) (fun _ => rfl)
  show (toOutcome k o _).slot k = _
  rw [ho, slot_toHeld, slot_enterState]

/-- R20: a power-down that completes with the latch CLOSED raises HELD. -/
theorem alerted_toPoweringDown_held (cause : Option DrainCause) {o : PdOutcome} {r : HoldReason}
    (hg : (c.slot k).powerGood = false) (hl : (c.slot k).latch.field = true) (ho : ∀ c : Chip, toOutcome k o c = toHeld k r c) :
    (toPoweringDown k cause o c).alerted (.slot k) .held := by
  rw [toPoweringDown_complete _ _ hg]
  unfold completePowerDown
  rw [slot_enterState]
  have hlatch : ((c.slot k).down cause o).latch.field = true := hl
  have hheld (c' : Chip) : (toOutcome k o c').alerted (.slot k) .held := by
    rw [ho]
    exact alerted_raise _ _ _
  dsimp only
  rw [if_pos hlatch]
  show Chip.alerted (match o.alert with | some x => raise (.slot k) x (toOutcome k o _) | none => toOutcome k o _) _ _
  split
  · exact Chip.alerted.raise (hheld _) _ _
  · exact hheld _

/-! ## Close orders (R12) -/

/-- R12, R13: the record of a slot whose switch closes. -/
theorem slot_toPowering (c : Chip) : (toPowering k c).slot k = if (c.slot k).powerGood then
    { ({ (c.slot k).enter .powering with powerUpDelay := some c.settings.powerUpDelay } : Slot).enter .starting with
      resetHold := some c.settings.resetHold }
    else { (c.slot k).enter .powering with powerUpDelay := some c.settings.powerUpDelay } := by
  have he := slot_enterState (k := k) .powering (fun s => { s with powerUpDelay := some c.settings.powerUpDelay }) c
  have hset : (enterState k .powering (fun s => { s with powerUpDelay := some c.settings.powerUpDelay }) c).settings =
      c.settings := ((onlySlotRecord_keeps k c).enterState _ _ (c.onlySlotRecord_refl k)).1.2.1
  unfold toPowering
  dsimp only
  rw [he]
  refine (apply_ite (fun c' : Chip => c'.slot k) _ _ _).trans (ite_congr rfl (fun _ => ?_) fun _ => he)
  rw [slot_toStarting, he, hset]

theorem takeCloseOrder_closes (hs : (c.slot k).state = .awaitingGrant) (hg : (c.grant k).stage = .closing) :
    takeCloseOrder k c = toPowering k c := by
  rw [takeCloseOrder, if_pos hg, if_pos hs]

/-- The slot after an event on a message, and what the event leaves alone. -/
theorem message_leaves {m : Instr} {event : Chip → Chip} (s : State)
    (hk : s.chip.onlySlotRecord k (event (deliver m s.chip))) :
    (queueService (event (deliver m s.chip))).slot k = (event (deliver m s.chip)).slot k ∧
      s.chip.onlySlotRecord k (queueService (event (deliver m s.chip))) :=
  ⟨(queueService_sameSlots _).slot k, (onlySlotRecord_keeps k s.chip).queueService hk⟩

/-- R12: what a close order leaves of a slot in AWAITING_GRANT. -/
theorem closeOrder_leaves (s : State) (k : Fin 16) (hs : (s.chip.slot k).state = .awaitingGrant)
    (hg : (s.chip.grant k).stage = .closing) : ∃ t, exec (.closeOrder k) s = .next t ∧
      (t.chip.slot k).switchClosed = true ∧ (t.chip.slot k).resetReleased = false ∧
      (t.chip.slot k).lastStatus = none ∧ (t.chip.slot k).silence = 0 ∧ (t.chip.slot k).silent = false ∧
      (t.chip.slot k).overdraw = 0 ∧ (t.chip.slot k).terms = (s.chip.slot k).terms ∧
      ((s.chip.slot k).powerGood = false → (t.chip.slot k).state = .powering ∧
        (t.chip.slot k).powerUpDelay = some s.chip.settings.powerUpDelay) ∧
      ((s.chip.slot k).powerGood = true → (t.chip.slot k).state = .starting ∧ (t.chip.slot k).powerUpDelay = none ∧
        (t.chip.slot k).resetHold = some s.chip.settings.resetHold) ∧
      s.chip.onlySlotRecord k t.chip := by
  obtain ⟨hslot, honly⟩ := message_leaves (m := .closeOrder k) (event := takeCloseOrder k) s
    ((onlySlotRecord_keeps k s.chip).takeCloseOrder (s.chip.onlySlotRecord_refl k))
  rw [takeCloseOrder_closes (c := deliver (.closeOrder k) s.chip) hs hg, slot_toPowering, slot_deliver] at hslot
  refine ⟨s.onChip (queueService (takeCloseOrder k (deliver (.closeOrder k) s.chip))), rfl, ?_⟩
  rw [takeCloseOrder_closes (c := deliver (.closeOrder k) s.chip) hs hg] at honly ⊢
  dsimp only [State.onChip]
  rw [hslot]
  cases hp : (s.chip.slot k).powerGood with
  | true => exact ⟨rfl, rfl, rfl, rfl, rfl, rfl, rfl, nofun, fun _ => ⟨rfl, rfl, rfl⟩, honly⟩
  | false => exact ⟨rfl, rfl, rfl, rfl, rfl, rfl, rfl, fun _ => ⟨rfl, rfl⟩, nofun, honly⟩

/-! ## Drain requests (Table 9) -/

theorem slot_drainAdopting (cause : DrainCause) (c : Chip) : (drainAdopting k cause c).slot k =
    { (c.slot k).enter .draining with
      drainCause := some ((c.slot k).adoptCause.getD cause)
      drainTimer := some (c.drainTime ((c.slot k).adoptCause.getD cause))
      pollTimer := some ((c.slot k).pollTimer.getD c.settings.pollInterval) } := by
  have hset : (emptyEngine k c).settings = c.settings :=
    ((onlySlotRecord_keeps k c).emptyEngine (c.onlySlotRecord_refl k)).1.2.1
  unfold drainAdopting
  dsimp only
  rw [slot_toDraining, slot_emptyEngine, Chip.drainTime, hset]
  rfl

/-- Table 9: the shed OFF action, by the state of the slot. -/
theorem slot_shedOff (c : Chip) :
    (let r := (shedOff k c).slot k
     match (c.slot k).state with
     | .running => r.state = .draining ∧ r.drainCause = some .shed ∧ r.drainTimer = some c.settings.shedDrainTimeout
     | .powering | .starting =>
       if (c.slot k).powerGood then r.state = .poweringDown ∧ r.drainCause = some .shed ∧ r.outcome = some .heldShed
       else if (c.slot k).latch.field then r.state = .held ∧ r.holdReason = some .shed
       else r.state = .seated
     | .adopting => r.state = .draining ∧ r.drainCause = some ((c.slot k).adoptCause.getD .shed)
     | .empty | .seated | .interrogating | .negotiating | .awaitingAdmit | .awaitingGrant | .draining | .poweringDown
     | .held => r = c.slot k) := by
  unfold shedOff
  cases (c.slot k).state
  case running =>
    dsimp only
    rw [slot_toDraining]
    exact ⟨rfl, rfl, rfl⟩
  case powering | starting =>
    dsimp only
    cases hg : (c.slot k).powerGood with
    | true =>
      rw [slot_toPoweringDown _ _ hg]
      exact ⟨rfl, rfl, rfl⟩
    | false =>
      rw [slot_toPoweringDown_completed (r := .shed) _ hg fun _ => rfl]
      cases (c.slot k).latch.field
      · rfl
      · exact ⟨rfl, rfl⟩
  case adopting =>
    dsimp only
    rw [slot_drainAdopting]
    exact ⟨rfl, rfl⟩
  all_goals rfl

/-- Table 9: the thermal drain, by the state of the slot. -/
theorem slot_thermalDrain (c : Chip) :
    (let r := (thermalDrain k c).slot k
     match (c.slot k).state with
     | .running => r.state = .draining ∧ r.drainCause = some .thermal ∧ r.drainTimer = some c.settings.drainTimeout
     | .adopting => r.state = .draining ∧ r.drainCause = some ((c.slot k).adoptCause.getD .thermal)
     | .empty | .seated | .interrogating | .negotiating | .awaitingAdmit | .awaitingGrant | .powering | .starting
     | .draining | .poweringDown | .held => r = c.slot k) := by
  unfold thermalDrain
  cases (c.slot k).state
  case running =>
    dsimp only
    rw [slot_toDraining]
    exact ⟨rfl, rfl, rfl⟩
  case adopting =>
    dsimp only
    rw [slot_drainAdopting]
    exact ⟨rfl, rfl⟩
  all_goals rfl

/-- Settles O13, request by request. -/
theorem closeOrdersAndDrainRequests : Obligations.CloseOrdersAndDrainRequests := by
  refine ⟨closeOrder_leaves, fun s k => ⟨?_, ?_⟩⟩
  · obtain ⟨hslot, honly⟩ := message_leaves (m := .shedOffAction k) (event := shedOff k) s
      ((onlySlotRecord_keeps k s.chip).shedOff (s.chip.onlySlotRecord_refl k))
    refine ⟨s.onChip (queueService (shedOff k (deliver (.shedOffAction k) s.chip))), rfl, honly, ?_⟩
    have h := slot_shedOff (k := k) (deliver (.shedOffAction k) s.chip)
    dsimp only [State.onChip]
    rw [hslot]
    exact h
  · obtain ⟨hslot, honly⟩ := message_leaves (m := .thermalDrainRequest k) (event := thermalDrain k) s
      ((onlySlotRecord_keeps k s.chip).thermalDrain (s.chip.onlySlotRecord_refl k))
    refine ⟨s.onChip (queueService (thermalDrain k (deliver (.thermalDrainRequest k) s.chip))), rfl, honly, ?_⟩
    have h := slot_thermalDrain (k := k) (deliver (.thermalDrainRequest k) s.chip)
    dsimp only [State.onChip]
    rw [hslot]
    exact h

/-! ## Orders on a slot (R20, R25, R26) -/

/-- The part after an order that its owner has answered with a status. -/
abbrev Chip.ordered (c : Chip) (i : Instr) (x : Status) : Chip := queueService (writeAnswer i (c, { status := x, result := [] }))

theorem takenOrder_of_takes {s : State} {i : Instr} {owner : Chip → Chip × Status} {c : Chip} {x : Status}
    (ht : s.chip.takes i) (ho : owner (s.chip.opened i) = (c, x)) :
    takenOrder i owner s = .next (s.onChip (c.ordered i x)) := by
  refine (taken_of_takes _ ht).trans ?_
  rw [ho]
  rfl

theorem slot_ordered (i : Instr) (x : Status) (j : Fin 16) (c : Chip) : (c.ordered i x).slot j = c.slot j :=
  (queueService_sameSlots _).slot j

theorem engine_ordered (i : Instr) (x : Status) (j : Fin 16) (c : Chip) : (c.ordered i x).engine j = c.engine j :=
  (queueService_sameSlots _).engine j

theorem response_ordered (i : Instr) (x : Status) (c : Chip) :
    (c.ordered i x).port.response = some (answerMessage i { status := x, result := [] }) := by
  obtain ⟨_, _, _, _, hresponse⟩ := ((onlySlotRecord_keeps 0 _).queueService (Chip.onlySlotRecord_refl 0
    (writeAnswer i (c, { status := x, result := [] })))).1
  exact hresponse

theorem Chip.alerted.ordered {o : AlertObject} {y : Cause} (h : c.alerted o y) (i : Instr) (x : Status) :
    (c.ordered i x).alerted o y := Chip.alerted.queueService (c := writeAnswer i (c, _)) h

theorem Chip.released.ordered (h : c.released k) (i : Instr) (x : Status) : (c.ordered i x).released k :=
  Chip.released.queueService (c := writeAnswer i (c, _)) (h.of_power rfl)

/-- R20: the slot that READMIT begins again with, and every other slot. -/
theorem readmitSlot_ok (hs : (c.slot k).state = .held) (hl : (c.slot k).latch.field = true) :
    ∃ c', readmitSlot k c = (c', .ok) ∧
      c'.slot k = (c.slot k).enter (if (c.slot k).readmitsByIdentity then .interrogating else .negotiating) ∧
      c.onlySlot k c' := by
  have h := onlySlot_keeps k c
  have hc := (c.onlySlotRecord_refl k).1
  refine ⟨_, if_pos ⟨hs, hl⟩, ?_, ite_keeps (h.toInterrogating hc) (h.toNegotiating hc)⟩
  cases (c.slot k).readmitsByIdentity
  · exact slot_toNegotiating c
  · exact slot_toInterrogating c

theorem readmitsByIdentity_iff {r : Slot} : r.readmitsByIdentity = true ↔
    r.holdReason = some .duplicateIdentity ∨ r.holdReason = some .inventoryFull ∨ r.holdReason = some .noAnswer ∨
      r.holdReason = some .adoptMismatch ∨ r.handle = none := decide_eq_true_iff

theorem readmitSlot_refused (h : (c.slot k).state ≠ .held ∨ (c.slot k).latch.field = false) :
    readmitSlot k c = (c, .state) := by
  refine if_neg fun hx => ?_
  obtain ⟨hs, hl⟩ := hx
  rcases h with h | h
  · exact h hs
  · exact Bool.false_ne_true (h.symm.trans hl)

/-- An order that its owner refuses with STATE leaves the part as it was, answered. -/
theorem takenOrder_refused {s : State} {i : Instr} {owner : Chip → Chip × Status} (hq : s.chip.quiescent)
    (ht : s.chip.takes i) (ho : owner (s.chip.opened i) = (s.chip.opened i, .state)) :
    takenOrder i owner s = .next (s.onChip (s.chip.answered i { status := .state, result := [] })) :=
  takenOrder_answered ht hq ho

/-- R20: what READMIT does. -/
theorem orderReadmit_leaves (s : State) (k : Fin 16) (hq : s.chip.quiescent) (ht : s.chip.takes (.orderReadmit k)) :
    ((s.chip.slot k).state = .held → (s.chip.slot k).latch.field = true → ∃ t, exec (.orderReadmit k) s = .next t ∧
      (t.chip.slot k).holdReason = none ∧ (t.chip.slot k).handle = (s.chip.slot k).handle ∧ (t.chip.slot k).terms = none ∧
      (t.chip.slot k).state =
        (if (s.chip.slot k).holdReason = some .duplicateIdentity ∨ (s.chip.slot k).holdReason = some .inventoryFull ∨
            (s.chip.slot k).holdReason = some .noAnswer ∨ (s.chip.slot k).holdReason = some .adoptMismatch ∨
            (s.chip.slot k).handle = none
         then .interrogating else .negotiating) ∧
      t.chip.port.response = some (answerMessage (.orderReadmit k) { status := .ok, result := [] }) ∧
      (∀ j, j ≠ k → t.chip.slot j = s.chip.slot j ∧ t.chip.engine j = s.chip.engine j)) ∧
    ((s.chip.slot k).state ≠ .held ∨ (s.chip.slot k).latch.field = false → exec (.orderReadmit k) s =
      .next (s.onChip (s.chip.answered (.orderReadmit k) { status := .state, result := [] }))) := by
  refine ⟨fun hs hl => ?_, fun h => takenOrder_refused hq ht (readmitSlot_refused (c := s.chip.opened _) h)⟩
  obtain ⟨c', ho, hslot, hother, -⟩ := readmitSlot_ok (c := s.chip.opened (.orderReadmit k)) hs hl
  refine ⟨_, takenOrder_of_takes ht ho, ?_⟩
  dsimp only [State.onChip]
  rw [slot_ordered, hslot, response_ordered]
  have hreadmits := readmitsByIdentity_iff (r := (s.chip.opened (.orderReadmit k)).slot k)
  refine ⟨rfl, ?_, ?_, ?_, rfl, fun j hj => ?_⟩
  · by_cases h : ((s.chip.opened (.orderReadmit k)).slot k).readmitsByIdentity = true
    · rw [if_pos h]
      rfl
    · rw [if_neg h]
      rfl
  · by_cases h : ((s.chip.opened (.orderReadmit k)).slot k).readmitsByIdentity = true
    · rw [if_pos h]
      rfl
    · rw [if_neg h]
      rfl
  · exact if_congr hreadmits rfl rfl
  · rw [slot_ordered, engine_ordered]
    exact hother j hj

/-- R25: what EVICT makes of the slot. -/
theorem orderEvict_leaves (s : State) (k : Fin 16) (hq : s.chip.quiescent) (ht : s.chip.takes (.orderEvict k)) :
    ∃ t, exec (.orderEvict k) s = .next t ∧
      (let r := t.chip.slot k
       let ok := t.chip.port.response = some (answerMessage (.orderEvict k) { status := .ok, result := [] })
       match (s.chip.slot k).state with
       | .interrogating | .negotiating | .awaitingAdmit | .awaitingGrant =>
         ok ∧ r.state = .held ∧ r.holdReason = some .evicted ∧ t.chip.alerted (.slot k) .held
       | .powering | .starting =>
         ok ∧ (if (s.chip.slot k).powerGood then r.state = .poweringDown ∧ r.drainCause = some .evict
               else if (s.chip.slot k).latch.field then r.state = .held ∧ r.holdReason = some .evicted
               else r.state = .seated)
       | .running => ok ∧ r.state = .draining ∧ r.drainCause = some .evict
       | .empty | .seated | .held | .draining | .poweringDown | .adopting =>
         t = s.onChip (s.chip.answered (.orderEvict k) { status := .state, result := [] })) := by
  have howner : evictSlot k (s.chip.opened (.orderEvict k)) = match (s.chip.slot k).state with
      | .interrogating | .negotiating | .awaitingAdmit | .awaitingGrant =>
        (toHeld k .evicted (s.chip.opened (.orderEvict k)), .ok)
      | .powering | .starting => (toPoweringDown k (some .evict) .heldEvicted (s.chip.opened (.orderEvict k)), .ok)
      | .running => (toDraining k .evict (s.chip.opened (.orderEvict k)), .ok)
      | .empty | .seated | .held | .draining | .poweringDown | .adopting => (s.chip.opened (.orderEvict k), .state) := rfl
  cases hs : (s.chip.slot k).state
  case interrogating | negotiating | awaitingAdmit | awaitingGrant =>
    rw [hs] at howner
    refine ⟨_, takenOrder_of_takes ht howner, response_ordered .., ?_⟩
    dsimp only [State.onChip]
    rw [slot_ordered, slot_toHeld]
    exact ⟨rfl, rfl, Chip.alerted.ordered (alerted_raise _ _ _) _ _⟩
  case powering | starting =>
    rw [hs] at howner
    refine ⟨_, takenOrder_of_takes ht howner, response_ordered .., ?_⟩
    dsimp only [State.onChip]
    rw [slot_ordered]
    cases hg : (s.chip.slot k).powerGood with
    | true =>
      rw [slot_toPoweringDown (c := s.chip.opened (.orderEvict k)) _ _ hg]
      exact ⟨rfl, rfl⟩
    | false =>
      rw [slot_toPoweringDown_completed (c := s.chip.opened (.orderEvict k)) (r := .evicted) _ hg fun _ => rfl]
      show if (s.chip.slot k).latch.field = true then _ else _
      cases hl : ((s.chip.opened (.orderEvict k)).slot k).latch.field with
      | true =>
        rw [if_pos (show (s.chip.slot k).latch.field = true from hl)]
        exact ⟨rfl, rfl⟩
      | false =>
        rw [if_neg (show ¬ (s.chip.slot k).latch.field = true from fun h => Bool.false_ne_true (hl.symm.trans h))]
        rfl
  case running =>
    rw [hs] at howner
    refine ⟨_, takenOrder_of_takes ht howner, response_ordered .., ?_⟩
    dsimp only [State.onChip]
    rw [slot_ordered, slot_toDraining]
    exact ⟨rfl, rfl⟩
  all_goals
    rw [hs] at howner
    exact ⟨_, takenOrder_refused hq ht howner, rfl⟩

/-- R26: the drain cause that FORCE_OFF keeps. -/
abbrev Slot.keptCause (r : Slot) : Option DrainCause := if r.state = .draining then r.drainCause else none

theorem forceOffSlot_ok (hp : (c.slot k).state.powered = true) :
    forceOffSlot k c = (toPoweringDown k (c.slot k).keptCause .heldForced c, .ok) := if_pos hp

theorem forceOffSlot_refused (hp : (c.slot k).state.powered = false) : forceOffSlot k c = (c, .state) :=
  if_neg (by rw [hp]; decide)

/-- Settles O46, order by order. -/
theorem readmitEvictAndForceOff : Obligations.ReadmitEvictAndForceOff := by
  refine ⟨orderReadmit_leaves, fun s k hq => ⟨orderEvict_leaves s k hq, fun ht =>
    ⟨fun hp hg => ?_, fun hp hg => ?_, fun hp => ?_⟩⟩⟩
  · refine ⟨_, takenOrder_of_takes ht (forceOffSlot_ok (c := s.chip.opened _) hp), ?_⟩
    dsimp only [State.onChip]
    rw [slot_ordered, response_ordered, slot_toPoweringDown (c := s.chip.opened (.orderForceOff k)) _ _ hg]
    exact ⟨rfl, rfl, rfl, rfl, rfl⟩
  · refine ⟨_, takenOrder_of_takes ht (forceOffSlot_ok (c := s.chip.opened _) hp), ?_⟩
    have hdown := slot_toPoweringDown_completed (c := s.chip.opened (.orderForceOff k)) (k := k) (o := .heldForced)
      (r := .forced) ((s.chip.opened (.orderForceOff k)).slot k).keptCause hg fun _ => rfl
    have hrel := released_toPoweringDown (c := s.chip.opened (.orderForceOff k)) (k := k)
      ((s.chip.opened (.orderForceOff k)).slot k).keptCause .heldForced hg
    dsimp only [State.onChip]
    rw [slot_ordered, response_ordered, hdown]
    cases hl : (s.chip.slot k).latch.field with
    | true =>
      rw [if_pos (show ((s.chip.opened (.orderForceOff k)).slot k).latch.field = true from hl)]
      have halert := alerted_toPoweringDown_held (c := s.chip.opened (.orderForceOff k)) (k := k) (o := .heldForced)
        (r := .forced) ((s.chip.opened (.orderForceOff k)).slot k).keptCause hg hl fun _ => rfl
      exact ⟨rfl, ⟨rfl, rfl, halert.ordered _ _⟩, hrel.ordered _ _, rfl⟩
    | false =>
      rw [if_neg (show ¬ ((s.chip.opened (.orderForceOff k)).slot k).latch.field = true from
        fun h => Bool.false_ne_true (hl.symm.trans h))]
      exact ⟨rfl, rfl, hrel.ordered _ _, rfl⟩
  · exact takenOrder_refused hq ht (forceOffSlot_refused (c := s.chip.opened _) hp)

end Sys2Proof.Machine

/-!
PROOF. What the power unit writes apart from supplies and reservations: grants, the queue and the shed list. The records of the
supplies and the reservations therefore stand through the settling of an event, the service of the queue, and what the fan
controller does for other fans.
-/

namespace Sys2Proof.Machine

/-- A property that the writes of grants, queue, shed list and messages, and raised causes, do not disturb. -/
structure PowerWritesKeep (P : Chip → Prop) : Prop where
  setGrant : ∀ k g c, P c → P (setGrant k g c)
  setQueue : ∀ q c, P c → P (setQueue q c)
  setShed : ∀ l c, P c → P (setShed l c)
  setServiceDue : ∀ b c, P c → P (setServiceDue b c)
  raise : ∀ o x c, P c → P (raise o x c)
  post : ∀ m c, P c → P (post m c)

namespace PowerWritesKeep

variable {P : Chip → Prop} (h : PowerWritesKeep P) {c : Chip}
include h

theorem joinQueue (k : Fin 16) (kind : QueueKind) (need : Nat) (hc : P c) : P (joinQueue k kind need c) :=
  h.setServiceDue _ _ (h.setQueue _ _ hc)

theorem leaveQueue (k : Fin 16) (hc : P c) : P (leaveQueue k c) := by
  unfold Machine.leaveQueue
  split
  · exact hc
  · exact h.setServiceDue _ _ (h.setQueue _ _ hc)

theorem alignUplift (k : Fin 16) (hc : P c) : P (alignUplift k c) := by
  unfold Machine.alignUplift
  dsimp only
  split
  · split
    · exact h.joinQueue _ _ _ hc
    · exact h.setQueue _ _ hc
  · split
    · exact ite_keeps (h.leaveQueue _ hc) hc
    · exact hc

theorem addReason (r : CapReason) (k : Fin 16) (hc : P c) : P (addReason r k c) := by
  unfold Machine.addReason
  refine ite_keeps hc (ite_keeps ?_ (h.alignUplift _ (h.setGrant _ _ _ hc)))
  split
  · exact h.alignUplift _ (h.post _ _ (h.setGrant _ _ _ hc))
  · exact h.alignUplift _ (h.setGrant _ _ _ hc)

theorem keepFloorReason (k : Fin 16) (hc : P c) : P (keepFloorReason k c) := h.setGrant _ _ _ hc

theorem removeReason (r : CapReason) (k : Fin 16) (hc : P c) : P (removeReason r k c) :=
  ite_keeps (h.alignUplift _ (h.keepFloorReason _ (h.setGrant _ _ _ hc))) hc

theorem requestThermal (k : Fin 16) (hc : P c) : P (requestThermal k c) := ite_keeps (h.addReason _ _ hc) hc

theorem capForShed (k : Fin 16) (hc : P c) : P (capForShed k c) := by
  unfold Machine.capForShed
  dsimp only
  split
  · exact h.alignUplift _ (h.post _ _ (h.setGrant _ _ _ hc))
  · exact h.alignUplift _ (h.setGrant _ _ _ hc)

theorem actHead (hc : P c) : P (actHead c) := by
  unfold Machine.actHead
  split
  · exact hc
  · dsimp only
    split
    · exact h.capForShed _ (h.setShed _ _ hc)
    · exact h.post _ _ (h.setShed _ _ hc)

theorem startShedding (hc : P c) : P (startShedding c) := by
  unfold Machine.startShedding
  split
  · exact ite_keeps (h.raise _ _ _ hc) hc
  · exact h.actHead (h.setShed _ _ hc)

theorem settlePower (before : Chip) (report : Bool) (hc : P c) : P (settlePower before report c) := by
  unfold Machine.settlePower
  extract_lets c1 emptied more less c2 kept c3
  have h1 : P c1 := h.setShed _ _ hc
  have h2 : P c2 := ite_keeps (h.setServiceDue _ _ h1) h1
  have h3 : P c3 := h.setShed _ _ h2
  refine ite_keeps ?_ (ite_keeps (h.setServiceDue _ _ h3) h3)
  split
  · exact ite_keeps (ite_keeps (h.setShed _ _ h2) h2) (h.actHead h2)
  · exact ite_keeps (h.startShedding h2) h2

/-- R90, R97: an event of the power unit keeps what its change keeps. -/
theorem powerEvent (report : Bool) {f : Chip → Chip} (hf : P (f c)) : P (powerEvent report f c) :=
  h.settlePower c report hf

theorem serveHead {e : QueueEntry} {c' : Chip} (hs : serveHead e c = some c') (hc : P c) : P c' := by
  have hadmit (w : Nat) (s : CapSet) : P (serveAdmission e.slot w s c) := h.post _ _ (h.setGrant _ _ _ (h.setGrant _ _ _ hc))
  have huplift : P (serveUplift e.slot c) := h.post _ _ (h.setGrant _ _ _ (h.setGrant _ _ _ hc))
  unfold Machine.serveHead at hs
  split at hs
  · split at hs
    · exact Option.some.inj hs ▸ hadmit _ _
    · split at hs
      · exact Option.some.inj hs ▸ hadmit _ _
      · exact nomatch hs
  · split at hs
    · exact Option.some.inj hs ▸ huplift
    · exact nomatch hs

theorem serveQueue : ∀ (q : List QueueEntry) {c : Chip}, P c → P (serveQueue q c)
  | [], _, hc => h.setQueue _ _ hc
  | e :: q, c, hc => by
    unfold Machine.serveQueue
    split
    · rename_i c' hs
      exact serveQueue q (h.serveHead hs hc)
    · exact h.setQueue _ _ hc

theorem queueService (hc : P c) : P (queueService c) :=
  h.setServiceDue _ _ (h.setQueue _ _ (ite_keeps (h.serveQueue _ hc) hc))

end PowerWritesKeep

/-! ## Supplies and reservations -/

variable {c c' : Chip} {f : Fin 8}

/-- Two parts with the same supplies and reservations. -/
structure Chip.SameSources (c c' : Chip) : Prop where
  supplies : c'.power.supplies = c.power.supplies
  reservations : c'.power.reservations = c.power.reservations

theorem Chip.SameSources.refl (c : Chip) : c.SameSources c := ⟨rfl, rfl⟩

theorem Chip.sameSources_keeps (c : Chip) : PowerWritesKeep c.SameSources where
  setGrant _ _ _ h := ⟨h.supplies, h.reservations⟩
  setQueue _ _ h := ⟨h.supplies, h.reservations⟩
  setShed _ _ h := ⟨h.supplies, h.reservations⟩
  setServiceDue _ _ h := ⟨h.supplies, h.reservations⟩
  raise _ _ _ h := ⟨h.supplies, h.reservations⟩
  post _ _ h := ⟨h.supplies, h.reservations⟩

theorem Chip.SameSources.supply (h : c.SameSources c') (b : Fin 6) : c'.supply b = c.supply b :=
  congrArg (fun x : Bank 6 Supply => x.read b) h.supplies

theorem Chip.SameSources.reservation (h : c.SameSources c') (f : Fin 8) : c'.reservation f = c.reservation f :=
  congrArg (fun x : Bank 8 Reservation => x.read f) h.reservations

theorem queueService_sources (c : Chip) : c.SameSources (queueService c) := c.sameSources_keeps.queueService (.refl c)

theorem powerEvent_sources (report : Bool) (g : Chip → Chip) (c : Chip) : (g c).SameSources (powerEvent report g c) :=
  (g c).sameSources_keeps.settlePower c report (.refl _)

/-- R87, R88: a reservation given is the one of its fan. -/
theorem reservation_giveReservation (f j : Fin 8) (band rated : Nat) (c : Chip) :
    (giveReservation f band rated c).reservation j =
      if j = f then { band := band, ratedDraw := some rated } else c.reservation j :=
  ((powerEvent_sources ..).reservation j).trans (reservation_setReservation ..)

theorem reservation_reserve (f j : Fin 8) (step : Nat) (c : Chip) : (reserve f step c).reservation j =
    if j = f then { band := step, ratedDraw := some (c.fan f).ratedDraw } else c.reservation j := by
  have hd : ((modFan f (fun r => { r with reservedBand := step }) c).fan f).ratedDraw = (c.fan f).ratedDraw := by
    rw [fan_modFan_self]
  unfold reserve
  dsimp only
  rw [hd, reservation_giveReservation]
  rfl

theorem supply_giveReservation (f : Fin 8) (band rated : Nat) (b : Fin 6) (c : Chip) :
    (giveReservation f band rated c).supply b = c.supply b := by
  unfold giveReservation
  rw [(powerEvent_sources ..).supply]
  rfl

/-- R27: the fan controller writes no supply. -/
theorem supply_fanCalls (b : Fin 6) (r : Supply) : FanCallsKeep fun c => c.supply b = r where
  fans _ _ h := h
  raise _ _ _ h := h
  post _ _ h := h
  giveReservation _ _ _ _ h := (supply_giveReservation ..).trans h
  requestThermal k c h := ((c.sameSources_keeps.requestThermal k (.refl c)).supply b).trans h
  removeReason x k c h := ((c.sameSources_keeps.removeReason x k (.refl c)).supply b).trans h

/-! ## A fan that the evaluation of its zone does not move (R141) -/

/-- R142, R148: a fan in none of the states that the evaluation of its zone moves. -/
def FanState.undriven (x : FanState) : Bool := x = .absent ∨ x = .identifying ∨ x = .failed

/-- The record of a fan and its reservation. -/
structure Chip.fanStands (c : Chip) (f : Fin 8) (r : Fan) (v : Reservation) : Prop where
  fan : c.fan f = r
  reservation : c.reservation f = v

section

variable {r : Fan} {v : Reservation}

theorem Chip.fanStands_keeps (f : Fin 8) (r : Fan) (v : Reservation) : PowerWritesKeep fun c => c.fanStands f r v where
  setGrant _ _ _ h := ⟨h.fan, h.reservation⟩
  setQueue _ _ h := ⟨h.fan, h.reservation⟩
  setShed _ _ h := ⟨h.fan, h.reservation⟩
  setServiceDue _ _ h := ⟨h.fan, h.reservation⟩
  raise _ _ _ h := ⟨h.fan, h.reservation⟩
  post _ _ h := ⟨h.fan, h.reservation⟩

namespace Chip.fanStands

variable (h : c.fanStands f r v)
include h

theorem modZone (z : Fin 4) (g : Zone → Zone) : (modZone z g c).fanStands f r v := ⟨h.fan, h.reservation⟩

theorem modFan {j : Fin 8} (hj : j ≠ f) (g : Fan → Fan) : (modFan j g c).fanStands f r v :=
  ⟨(fan_modFan ..).trans ((if_neg hj.symm).trans h.fan), h.reservation⟩

theorem reserve {j : Fin 8} (hj : j ≠ f) (step : Nat) : (reserve j step c).fanStands f r v where
  fan := (fan_congr (reserve_fans ..) f).trans ((fan_modFan ..).trans ((if_neg hj.symm).trans h.fan))
  reservation := (reservation_reserve ..).trans ((if_neg hj.symm).trans h.reservation)

theorem enterBoost {j : Fin 8} (hj : j ≠ f) : (enterBoost j c).fanStands f r v := by
  unfold Machine.enterBoost
  extract_lets restarted
  exact (h.reserve hj 63).modFan hj _

theorem startSearch {j : Fin 8} (hj : j ≠ f) : (startSearch j c).fanStands f r v := h.modFan hj _

theorem enterCalibrating {j : Fin 8} (hj : j ≠ f) : (enterCalibrating j c).fanStands f r v :=
  ((h.reserve hj 63).modFan hj _).startSearch hj

theorem enterPinned {j : Fin 8} (hj : j ≠ f) (band : Nat) : (enterPinned j band c).fanStands f r v :=
  (h.modFan hj _).reserve hj _

theorem boostFan (hr : r.state.undriven = true) (j : Fin 8) : (boostFan j c).fanStands f r v := by
  by_cases hj : j = f
  · have hb : Machine.boostFan j c = c := by
      unfold Machine.boostFan
      rw [hj, h.fan]
      cases hs : r.state
      case calibrating | tracking | locked | pinned => exact absurd hr (by rw [hs]; decide)
      all_goals rfl
    rw [hb]
    exact h
  · unfold Machine.boostFan
    cases (c.fan j).state
    case calibrating | tracking | locked | pinned => exact h.enterBoost hj
    all_goals exact h

theorem unboostFan (hr : r.state.undriven = true) (j : Fin 8) : (unboostFan j c).fanStands f r v := by
  unfold Machine.unboostFan
  split
  · rename_i hs
    have hj : j ≠ f := by
      rintro rfl
      rw [h.fan] at hs
      rw [hs] at hr
      exact absurd hr (by decide)
    split
    · exact h.enterPinned hj _
    · exact h.enterCalibrating hj
  · exact h

theorem sendDrains (z : Fin 4) : (sendDrains z c).fanStands f r v :=
  forEach_keeps (P := fun c => c.fanStands f r v) _ (sendDrain z)
    (fun _ _ hx => ite_keeps (P := fun c => c.fanStands f r v) ⟨hx.fan, hx.reservation⟩ hx) _ h

/-- R141: a fan that is not driven stands as it is through the evaluation of a zone, its own or another. -/
theorem evaluateZone (hr : r.state.undriven = true) (z : Fin 4) : (evaluateZone z c).fanStands f r v := by
  have hk := Chip.fanStands_keeps f r v
  have hbegin : (beginEmergency z c).fanStands f r v :=
    (forEach_keeps (P := fun c => c.fanStands f r v) _ Machine.requestThermal (fun _ _ hx => hk.requestThermal _ hx) _
      (((hk.raise _ _ _ (h.modZone z _)).boostFan hr _).boostFan hr _)).modZone z _
  have hend : (endEmergency z c).fanStands f r v :=
    (((forEach_keeps (P := fun c => c.fanStands f r v) _ (Machine.removeReason .thermal) (fun _ _ hx => hk.removeReason _ _ hx) _
      (h.modZone z _)).unboostFan hr _).unboostFan hr _).modZone z _
  have hcause := h.modZone z fun r => { r with cause := some (c.emergencyCause z) }
  unfold Machine.evaluateZone
  exact ite_keeps (P := fun c => c.fanStands f r v)
    (ite_keeps (P := fun c => c.fanStands f r v) hend
      (ite_keeps (P := fun c => c.fanStands f r v) (hcause.sendDrains z) hcause))
    (ite_keeps (P := fun c => c.fanStands f r v) hbegin h)

end Chip.fanStands

end

end Sys2Proof.Machine

/-!
PROOF. Samples and periods of the fans (R124 to R132, R137): a sample as a write of one fan's record, and what a fan that
reserves, settles, is released or fails leaves alone.
-/

namespace Sys2Proof.Machine

variable {c : Chip} {f : Fin 8} {r : Fan}

/-! ## A sample as a write of one record -/

@[simp] theorem setFan_setFan (f : Fin 8) (x y : Fan) (c : Chip) : setFan f y (setFan f x c) = setFan f y c := by
  show { c with fans := { c.fans with fans := (c.fans.fans.put f x).put f y } } = _
  rw [Bank.put_put]
  rfl

theorem modFan_setFan (f : Fin 8) (g : Fan → Fan) (r : Fan) (c : Chip) : modFan f g (setFan f r c) = setFan f (g r) c := by
  rw [modFan, setFan_setFan, fan_setFan_self]

/-- R124: the record with a sample taken. -/
def Fan.sampled (pulses : Nat) (r : Fan) : Fan :=
  { r with
    measured := pulses * 300 / r.pulses
    stallCount := if pulses = 0 ∧ 8 ≤ r.windowBand then r.stallCount + 1 else 0 }

/-- R124: the record as its next window starts. -/
def Fan.windowed (r : Fan) : Fan := if r.window = .count then { r with windowBand := r.band } else r

theorem Fan.windowed_of_count (h : r.window = .count) : r.windowed = { r with windowBand := r.band } := if_pos h
theorem Fan.windowed_of_ne (h : r.window ≠ .count) : r.windowed = r := if_neg h

theorem nextWindow_setFan (r : Fan) (c : Chip) : nextWindow f (setFan f r c) = setFan f r.windowed c := modFan_setFan ..

/-- R124: the end of a count window whose sample does not fail the fan. -/
theorem windowEnded_of_count {pulses : Nat} (hw : (c.fan f).window = .count)
    (hs : ((c.fan f).sampled pulses).stallCount < 5) : windowEnded f pulses c =
      nextWindow f (sampleByState f (updateWeak f (setFan f ((c.fan f).sampled pulses) c))) := by
  have hfan : (modFan f (Fan.sampled pulses) c).fan f = (c.fan f).sampled pulses := fan_modFan_self ..
  refine (if_pos hw).trans (if_neg ?_)
  show ¬ 5 ≤ ((modFan f (Fan.sampled pulses) c).fan f).stallCount
  rw [hfan]
  omega

/-- R124: a sample with pulses counts no stall. -/
theorem Fan.sampled_of_pulses {pulses : Nat} (hp : 0 < pulses) (r : Fan) :
    r.sampled pulses = { r with measured := pulses * 300 / r.pulses, stallCount := 0 } := by
  have hn : ¬ (pulses = 0 ∧ 8 ≤ r.windowBand) := by omega
  simp [Fan.sampled, hn]

/-- R131: the states in which the weak count is kept. -/
abbrev FanState.weighed (x : FanState) : Prop := x = .tracking ∨ x = .locked ∨ x = .boost

theorem updateWeak_clears (hs : r.state.weighed) (hw : ¬ (r.windowBand = 63 ∧ weakBelow r.measured r.target = true)) :
    updateWeak f (setFan f r c) = setFan f { r with weakCount := 0 } c := by
  unfold updateWeak
  dsimp only
  rw [fan_setFan_self, if_pos hs, if_neg hw, modFan_setFan]

theorem updateWeak_counts (hs : r.state.weighed) (hw : r.windowBand = 63 ∧ weakBelow r.measured r.target = true) :
    updateWeak f (setFan f r c) = if r.weakCount = 9 then
      raise (.fan f) .fanWeak (setFan f { r with weakCount := min 10 (r.weakCount + 1) } c)
      else setFan f { r with weakCount := min 10 (r.weakCount + 1) } c := by
  unfold updateWeak
  dsimp only
  rw [fan_setFan_self, if_pos hs, if_pos hw, modFan_setFan]

theorem updateWeak_unweighed (hs : ¬ r.state.weighed) : updateWeak f (setFan f r c) = setFan f r c := by
  unfold updateWeak
  dsimp only
  rw [fan_setFan_self, if_neg hs]

/-- R129: a sample in TRACKING, near the target. -/
theorem trackSample_near (hn : within3 r.measured r.target = true) : trackSample f (setFan f r c) =
    setFan f (if 3 ≤ r.lockCount then
      { r with state := .locked, lockCount := 4, unlockCount := 0, releaseTimer := decide (r.band + 8 ≤ r.reservedBand) }
      else { r with lockCount := r.lockCount + 1 }) c := by
  unfold trackSample
  dsimp only
  rw [fan_setFan_self, if_pos hn]
  split
  · exact modFan_setFan ..
  · exact modFan_setFan ..

/-- R129: a sample in TRACKING, below the target. -/
theorem trackSample_below (hn : within3 r.measured r.target = false) (hb : r.measured < r.target) (h63 : r.band < 63) :
    trackSample f (setFan f r c) = modFan f (fun r => { r with band := r.band + 1, lockCount := 0 })
      (if r.reservedBand < r.band + 1 then reserve f (stepAbove r.reservedBand) (setFan f r c) else setFan f r c) := by
  unfold trackSample
  dsimp only
  rw [fan_setFan_self, if_neg (by rw [hn]; decide), if_pos ⟨hb, h63⟩]

/-- R129: a sample in TRACKING, above the target. -/
theorem trackSample_above (hn : within3 r.measured r.target = false) (ha : r.target < r.measured) (h0 : 0 < r.band) :
    trackSample f (setFan f r c) = setFan f { r with band := r.band - 1, lockCount := 0 } c := by
  unfold trackSample
  dsimp only
  rw [fan_setFan_self, if_neg (by rw [hn]; decide), if_neg (by omega), if_pos ⟨ha, h0⟩, modFan_setFan]

/-- R130: a sample in LOCKED. -/
theorem lockSample_setFan (r : Fan) (c : Chip) : lockSample f (setFan f r c) =
    setFan f (if within6 r.measured r.target then { r with unlockCount := 0 }
      else if 3 ≤ r.unlockCount then unlock r else { r with unlockCount := r.unlockCount + 1 }) c := modFan_setFan ..

theorem sampleByState_tracking (hs : r.state = .tracking) :
    sampleByState f (setFan f r c) = trackSample f (setFan f r c) := by
  unfold sampleByState
  rw [fan_setFan_self, hs]

theorem sampleByState_locked (hs : r.state = .locked) : sampleByState f (setFan f r c) = lockSample f (setFan f r c) := by
  unfold sampleByState
  rw [fan_setFan_self, hs]

theorem sampleByState_calibrating {x : Search} (hs : r.state = .calibrating) (hx : r.search = some x) :
    sampleByState f (setFan f r c) = takeDecision f x (setFan f r c) := by
  unfold sampleByState
  rw [fan_setFan_self, hs]
  dsimp only
  rw [hx]

theorem sampleByState_driven (hs : r.state = .pinned ∨ r.state = .boost) : sampleByState f (setFan f r c) = setFan f r c := by
  unfold sampleByState
  rw [fan_setFan_self]
  obtain hs | hs := hs <;> rw [hs]

/-- R126: the result of a decision. -/
abbrev Search.result (x : Search) (r : Fan) : Nat := if r.measured ≤ r.searchTarget then x.trial else x.partialResult

/-- R126: a decision before the last. -/
theorem takeDecision_next {x : Search} (hx : x.index < 5) : takeDecision f x (setFan f r c) =
    setFan f { r with
      search := some { index := x.index + 1, partialResult := x.result r, trial := x.result r + decisionBit (x.index + 1) }
      band := x.result r + decisionBit (x.index + 1), window := .settle } c := by
  unfold takeDecision
  dsimp only
  rw [fan_setFan_self, if_pos hx, modFan_setFan]

theorem takeDecision_last {x : Search} (hx : x.index = 5) :
    takeDecision f x (setFan f r c) = endSearch f (x.result r) (setFan f r c) := by
  unfold takeDecision
  dsimp only
  rw [fan_setFan_self, if_neg (by omega)]

/-! ## What the writes of one fan leave alone -/

/-- Two parts that differ in the power unit, the fan controller, messages and alerts at most. -/
structure Chip.SameFrame (c t : Chip) : Prop where
  slots : t.slots = c.slots
  engines : t.engines = c.engines
  hub : t.hub = c.hub
  inventory : t.inventory = c.inventory
  modules : t.modules = c.modules
  settings : t.settings = c.settings
  response : t.port.response = c.port.response

theorem Chip.SameFrame.refl (c : Chip) : c.SameFrame c := ⟨rfl, rfl, rfl, rfl, rfl, rfl, rfl⟩

theorem Chip.sameFrame_keeps (c : Chip) : FanKeeps c.SameFrame where
  power _ _ h := ⟨h.slots, h.engines, h.hub, h.inventory, h.modules, h.settings, h.response⟩
  raise _ _ _ h := ⟨h.slots, h.engines, h.hub, h.inventory, h.modules, h.settings, h.response⟩
  messages _ _ h := ⟨h.slots, h.engines, h.hub, h.inventory, h.modules, h.settings, h.response⟩
  fans _ _ h := ⟨h.slots, h.engines, h.hub, h.inventory, h.modules, h.settings, h.response⟩

/-- A part in which one fan has a record and a reservation, and the others, the zones and the other blocks are as before. -/
structure Chip.FanWritten (c : Chip) (f : Fin 8) (r : Fan) (v : Reservation) (t : Chip) : Prop where
  fan : t.fan f = r
  reservation : t.reservation f = v
  others : ∀ j, j ≠ f → t.fan j = c.fan j ∧ t.reservation j = c.reservation j
  zones : t.fans.zones = c.fans.zones
  frame : c.SameFrame t

namespace Chip.FanWritten

theorem refl (c : Chip) (f : Fin 8) : c.FanWritten f (c.fan f) (c.reservation f) c :=
  ⟨rfl, rfl, fun _ _ => ⟨rfl, rfl⟩, rfl, .refl c⟩

variable {v : Reservation} {t : Chip} (h : c.FanWritten f r v t)
include h

theorem modFan (g : Fan → Fan) : c.FanWritten f (g r) v (modFan f g t) where
  fan := (fan_modFan_self ..).trans (congrArg g h.fan)
  reservation := h.reservation
  others j hj := ⟨(fan_modFan ..).trans ((if_neg hj).trans (h.others j hj).1), (h.others j hj).2⟩
  zones := h.zones
  frame := c.sameFrame_keeps.modFan _ _ h.frame

theorem setFan (x : Fan) : c.FanWritten f x v (setFan f x t) where
  fan := fan_setFan_self ..
  reservation := h.reservation
  others j hj := ⟨(fan_setFan ..).trans ((if_neg hj).trans (h.others j hj).1), (h.others j hj).2⟩
  zones := h.zones
  frame := c.sameFrame_keeps.fans _ _ h.frame

omit h in
theorem zones_reserve (f : Fin 8) (step : Nat) (t : Chip) : (reserve f step t).fans.zones = t.fans.zones := by
  rw [reserve_fans]
  rfl

/-- R123: a reservation. -/
theorem reserve (step : Nat) :
    c.FanWritten f { r with reservedBand := step } { band := step, ratedDraw := some r.ratedDraw } (reserve f step t) where
  fan := by
    rw [fan_congr (reserve_fans ..), fan_modFan_self, h.fan]
  reservation := by
    rw [reservation_reserve, if_pos rfl, h.fan]
  others j hj := by
    rw [fan_congr (reserve_fans ..), fan_modFan, if_neg hj, reservation_reserve, if_neg hj]
    exact h.others j hj
  zones := (zones_reserve ..).trans h.zones
  frame := c.sameFrame_keeps.reserve _ _ h.frame

theorem raise (o : AlertObject) (x : Cause) : c.FanWritten f r v (raise o x t) :=
  ⟨h.fan, h.reservation, h.others, h.zones, c.sameFrame_keeps.raise _ _ _ h.frame⟩

theorem queueService : c.FanWritten f r v (queueService t) where
  fan := (fan_congr ((Chip.sameButPower_keeps t).queueService (.refl t)).fans f).trans h.fan
  reservation := ((queueService_sources t).reservation f).trans h.reservation
  others j hj := ⟨(fan_congr ((Chip.sameButPower_keeps t).queueService (.refl t)).fans j).trans (h.others j hj).1,
    ((queueService_sources t).reservation j).trans (h.others j hj).2⟩
  zones := by
    rw [((Chip.sameButPower_keeps t).queueService (.refl t)).fans]
    exact h.zones
  frame := c.sameFrame_keeps.toPowerKeeps.queueService h.frame

end Chip.FanWritten

/-! ## Samples that write the fan alone -/

/-- A sample that writes its fan alone ends the event. -/
theorem exec_countWindowEnd {s : State} {pulses : Nat} {x : Fan} (hq : s.chip.quiescent)
    (hw : windowEnded f pulses s.chip = setFan f x s.chip) :
    exec (.countWindowEnd f pulses) s = .next (s.onChip (setFan f x s.chip)) := taken_settled hw hq

/-- R131: in PINNED the weak count is not kept. -/
theorem windowEnded_pinned {pulses : Nat} (hw : (c.fan f).window = .count) (hs : (c.fan f).state = .pinned)
    (hstall : ((c.fan f).sampled pulses).stallCount < 5) : windowEnded f pulses c =
      setFan f { (c.fan f).sampled pulses with windowBand := (c.fan f).band } c := by
  have hstate : ((c.fan f).sampled pulses).state = .pinned := hs
  rw [windowEnded_of_count hw hstall, updateWeak_unweighed (by rw [hstate]; decide), sampleByState_driven (.inl hstate),
    nextWindow_setFan, Fan.windowed_of_count (r := (c.fan f).sampled pulses) hw]
  rfl

/-- R124, R131: a sample with pulses, its weak count taken. -/
theorem windowEnded_pulses {pulses : Nat} (hw : (c.fan f).window = .count) (hp : 0 < pulses) :
    windowEnded f pulses c = nextWindow f (sampleByState f (updateWeak f
      (setFan f { c.fan f with measured := pulses * 300 / (c.fan f).pulses, stallCount := 0 } c))) := by
  have hs := windowEnded_of_count (pulses := pulses) hw (by rw [Fan.sampled_of_pulses hp]; exact Nat.zero_lt_succ 4)
  rwa [Fan.sampled_of_pulses hp] at hs

/-- R124, R131: the record sampled with pulses, the weak count cleared. -/
abbrev Fan.fresh (pulses : Nat) (r : Fan) : Fan :=
  { r with measured := pulses * 300 / r.pulses, stallCount := 0, weakCount := 0 }

theorem windowEnded_strong {pulses : Nat} (hw : (c.fan f).window = .count) (hp : 0 < pulses) (hs : (c.fan f).state.weighed)
    (hweak : ¬ ((c.fan f).windowBand = 63 ∧ weakBelow (pulses * 300 / (c.fan f).pulses) (c.fan f).target = true)) :
    windowEnded f pulses c = nextWindow f (sampleByState f (setFan f ((c.fan f).fresh pulses) c)) := by
  rw [windowEnded_pulses hw hp, updateWeak_clears (r := { c.fan f with
    measured := pulses * 300 / (c.fan f).pulses, stallCount := 0 }) hs hweak]

theorem weakBelow_iff {m t : Nat} : weakBelow m t = true ↔ 6 * t < (t - m) * 100 := decide_eq_true_iff

theorem exec_releaseTimerExpiry {s : State} (hs : (s.chip.fan f).state = .locked) (ht : (s.chip.fan f).releaseTimer = true) :
    exec (.releaseTimerExpiry f) s = .next (s.onChip (queueService (releaseLocked f s.chip))) :=
  congrArg (fun c => (Host.Outcome.next (s.onChip (queueService c)) : Result)) (if_pos ⟨hs, ht⟩)

/-- R135: in BOOST a sample moves no band. -/
theorem boostSample {x : Fan} (hw : x.window = .count) (hs : x.state = .boost) (c : Chip) :
    nextWindow f (sampleByState f (setFan f x c)) = setFan f { x with windowBand := x.band } c := by
  rw [sampleByState_driven (.inr hs), nextWindow_setFan, Fan.windowed_of_count hw]

theorem sampleByState_raise {o : AlertObject} {x : Cause} (hs : (c.fan f).state = .boost) :
    sampleByState f (raise o x c) = raise o x (sampleByState f c) := by
  have hr : ((raise o x c).fan f).state = .boost := hs
  unfold sampleByState
  rw [hr, hs]

theorem nextWindow_raise (o : AlertObject) (x : Cause) (c : Chip) :
    nextWindow f (raise o x c) = raise o x (nextWindow f c) := rfl

/-- R131, R135: the record of a fan in BOOST after a sample with pulses. -/
def Fan.boostSampled (r : Fan) (pulses count : Nat) : Fan :=
  { r with measured := pulses * 300 / r.pulses, stallCount := 0, weakCount := count, windowBand := r.band }

/-- R131: the sample is weak. -/
abbrev Fan.weakAt (r : Fan) (pulses : Nat) : Prop :=
  r.windowBand = 63 ∧ weakBelow (pulses * 300 / r.pulses) r.target = true

section Boosted

variable {pulses : Nat} (hw : (c.fan f).window = .count) (hs : (c.fan f).state = .boost) (hp : 0 < pulses)
include hw hs hp

omit hp in
theorem boostSampled_next (n : Nat) : nextWindow f (sampleByState f (setFan f { c.fan f with
    measured := pulses * 300 / (c.fan f).pulses, stallCount := 0, weakCount := n } c)) =
      setFan f ((c.fan f).boostSampled pulses n) c :=
  boostSample (x := { c.fan f with measured := pulses * 300 / (c.fan f).pulses, stallCount := 0, weakCount := n }) hw hs c

theorem windowEnded_boost_strong (hweak : ¬ (c.fan f).weakAt pulses) :
    windowEnded f pulses c = setFan f ((c.fan f).boostSampled pulses 0) c := by
  rw [windowEnded_strong hw hp (.inr (.inr hs)) hweak, Fan.fresh, boostSampled_next hw hs]

theorem windowEnded_boost_weak {n : Nat} (hweak : (c.fan f).weakAt pulses) (hn : min 10 ((c.fan f).weakCount + 1) = n) :
    windowEnded f pulses c = if (c.fan f).weakCount = 9 then
      raise (.fan f) .fanWeak (setFan f ((c.fan f).boostSampled pulses n) c)
      else setFan f ((c.fan f).boostSampled pulses n) c := by
  rw [windowEnded_pulses hw hp, updateWeak_counts (r := { c.fan f with
    measured := pulses * 300 / (c.fan f).pulses, stallCount := 0 }) (.inr (.inr hs)) hweak, hn]
  have hb := boostSampled_next (pulses := pulses) hw hs n
  split
  · rw [sampleByState_raise, nextWindow_raise, hb]
    rw [fan_setFan_self]
    exact hs
  · exact hb

end Boosted

/-- Settles O28, period by period. -/
theorem fanPeriodsAndRelease : Obligations.FanPeriodsAndRelease := by
  refine ⟨fun s f pulses hq => ⟨fun hw => ?settles, fun hw hs => ?pinned, fun hw hs hp => ?boosts⟩,
    fun s f hs ht => ?releases⟩
  case settles =>
    refine taken_settled (?_ : settleEnded f s.chip = _) hq
    rw [settleEnded, modFan, if_pos hw]
  case pinned =>
    intro stalls hlt
    exact exec_countWindowEnd hq (windowEnded_pinned hw hs hlt)
  case boosts =>
    have hweak {m t : Nat} : (m < t ∧ 6 * t < (t - m) * 100) ↔ weakBelow m t = true :=
      ⟨fun h => weakBelow_iff.2 h.2, fun h => ⟨by have := weakBelow_iff.1 h; omega, weakBelow_iff.1 h⟩⟩
    refine ⟨fun ⟨h63, hb⟩ h9 => ?_, fun ⟨h63, hb⟩ h9 => ?_, fun hb => ?_⟩
    · refine exec_countWindowEnd hq ?_
      rw [windowEnded_boost_weak hw hs hp ⟨h63, hweak.1 hb⟩ rfl, if_neg h9]
      rfl
    · refine taken_settled (?_ : windowEnded f pulses s.chip = _) hq
      rw [windowEnded_boost_weak (n := 10) hw hs hp ⟨h63, hweak.1 hb⟩ (by rw [h9]; rfl), if_pos h9]
      rfl
    · exact exec_countWindowEnd hq (windowEnded_boost_strong hw hs hp fun h => hb ⟨h.1, hweak.2 h.2⟩)
  case releases =>
    have h := (((Chip.FanWritten.refl s.chip f).modFan fun r => { r with releaseTimer := false }).reserve
      (stepCovering (s.chip.fan f).band)).queueService
    refine ⟨_, exec_releaseTimerExpiry hs ht, ?_⟩
    have hr : releaseLocked f s.chip = reserve f (stepCovering (s.chip.fan f).band)
        (modFan f (fun r => { r with releaseTimer := false }) s.chip) := rfl
    dsimp only [State.onChip]
    rw [hr]
    exact ⟨h.fan, h.reservation, h.others, h.frame.slots, h.frame.engines, h.frame.hub⟩

end Sys2Proof.Machine

/-!
PROOF. What each sample does to a tracking, a locked, a searching and a failing fan (R126, R127, R129, R130, R132).
-/

namespace Sys2Proof.Machine

variable {c : Chip} {f : Fin 8} {r : Fan} {pulses : Nat}

theorem exec_countWindowEnd_eq (f : Fin 8) (pulses : Nat) (s : State) :
    exec (.countWindowEnd f pulses) s = .next (s.onChip (queueService (windowEnded f pulses s.chip))) := rfl

theorem within3_iff {m t : Nat} : within3 m t = true ↔ ((m - t) + (t - m)) * 100 ≤ 3 * t := decide_eq_true_iff
theorem within6_iff {m t : Nat} : within6 m t = true ↔ ((m - t) + (t - m)) * 100 ≤ 6 * t := decide_eq_true_iff

theorem within3_false {m t : Nat} (h : 3 * t < ((m - t) + (t - m)) * 100) : within3 m t = false :=
  Bool.eq_false_iff.2 fun hn => absurd (within3_iff.1 hn) (by omega)
theorem within6_false {m t : Nat} (h : 6 * t < ((m - t) + (t - m)) * 100) : within6 m t = false :=
  Bool.eq_false_iff.2 fun hn => absurd (within6_iff.1 hn) (by omega)

theorem decisionBit_succ : ∀ i < 5, decisionBit (i + 1) = 2 ^ (4 - i) := by decide

theorem setFan_windowed (h : r.window = .count) : setFan f r.windowed c = setFan f { r with windowBand := r.band } c := by
  rw [Fan.windowed_of_count h]

/-! ## TRACKING -/

section Tracking

variable (hw : (c.fan f).window = .count) (hs : (c.fan f).state = .tracking) (hp : 0 < pulses)
  (h63 : (c.fan f).windowBand < 63)
include hw hs hp h63

/-- R129: a sample in TRACKING under a band below 63. -/
theorem windowEnded_tracking :
    windowEnded f pulses c = nextWindow f (trackSample f (setFan f ((c.fan f).fresh pulses) c)) := by
  rw [windowEnded_strong hw hp (.inl hs) fun h => absurd h.1 (by omega), sampleByState_tracking (r := (c.fan f).fresh pulses) hs]

theorem windowEnded_near (hn : within3 (pulses * 300 / (c.fan f).pulses) (c.fan f).target = true)
    (hl : (c.fan f).lockCount < 3) : windowEnded f pulses c = setFan f { (c.fan f).fresh pulses with
      windowBand := (c.fan f).band, lockCount := (c.fan f).lockCount + 1 } c := by
  have hl' : ¬ 3 ≤ ((c.fan f).fresh pulses).lockCount := not_le.2 hl
  rw [windowEnded_tracking hw hs hp h63, trackSample_near (r := (c.fan f).fresh pulses) hn, if_neg hl', nextWindow_setFan]
  exact setFan_windowed (by exact hw)

theorem windowEnded_locks (hn : within3 (pulses * 300 / (c.fan f).pulses) (c.fan f).target = true)
    (hl : (c.fan f).lockCount = 3) : windowEnded f pulses c = setFan f { (c.fan f).fresh pulses with
      windowBand := (c.fan f).band, state := .locked, lockCount := 4, unlockCount := 0,
      releaseTimer := decide ((c.fan f).band + 8 ≤ (c.fan f).reservedBand) } c := by
  have hl' : 3 ≤ ((c.fan f).fresh pulses).lockCount := hl.ge
  rw [windowEnded_tracking hw hs hp h63, trackSample_near (r := (c.fan f).fresh pulses) hn, if_pos hl', nextWindow_setFan]
  exact setFan_windowed (by exact hw)

variable (hn : within3 (pulses * 300 / (c.fan f).pulses) (c.fan f).target = false)
include hn

theorem windowEnded_lowers (ha : (c.fan f).target < pulses * 300 / (c.fan f).pulses) (h0 : 0 < (c.fan f).band) :
    windowEnded f pulses c = setFan f { (c.fan f).fresh pulses with
      band := (c.fan f).band - 1, windowBand := (c.fan f).band - 1, lockCount := 0 } c := by
  rw [windowEnded_tracking hw hs hp h63, trackSample_above (r := (c.fan f).fresh pulses) hn ha h0, nextWindow_setFan]
  exact setFan_windowed (by exact hw)

variable (hb : pulses * 300 / (c.fan f).pulses < (c.fan f).target) (hband : (c.fan f).band < 63)
include hb hband

theorem windowEnded_raises (hres : (c.fan f).band < (c.fan f).reservedBand) :
    windowEnded f pulses c = setFan f { (c.fan f).fresh pulses with
      band := (c.fan f).band + 1, windowBand := (c.fan f).band + 1, lockCount := 0 } c := by
  have hres' : ¬ ((c.fan f).fresh pulses).reservedBand < ((c.fan f).fresh pulses).band + 1 :=
    fun h => absurd (Nat.lt_succ_iff.1 h) (not_le.2 hres)
  rw [windowEnded_tracking hw hs hp h63, trackSample_below (r := (c.fan f).fresh pulses) hn hb hband, if_neg hres',
    modFan_setFan, nextWindow_setFan]
  exact setFan_windowed (by exact hw)

/-- R123: past the reserved band, with the next step reserved first. -/
theorem windowEnded_reserves (hres : (c.fan f).band = (c.fan f).reservedBand) :
    c.FanWritten f { (c.fan f).fresh pulses with
        band := (c.fan f).band + 1, windowBand := (c.fan f).band + 1, reservedBand := stepAbove (c.fan f).reservedBand,
        lockCount := 0 }
      { band := stepAbove (c.fan f).reservedBand, ratedDraw := some (c.fan f).ratedDraw } (windowEnded f pulses c) := by
  have hres' : ((c.fan f).fresh pulses).reservedBand < ((c.fan f).fresh pulses).band + 1 :=
    Nat.lt_succ_of_le (ge_of_eq hres)
  rw [windowEnded_tracking hw hs hp h63, trackSample_below (r := (c.fan f).fresh pulses) hn hb hband, if_pos hres']
  have h := ((((Chip.FanWritten.refl c f).setFan ((c.fan f).fresh pulses)).reserve
    (stepAbove (c.fan f).reservedBand)).modFan fun r => { r with band := r.band + 1, lockCount := 0 }).modFan Fan.windowed
  rwa [Fan.windowed_of_count (by exact hw)] at h

end Tracking

/-! ## LOCKED -/

/-- R130: a sample in LOCKED under a band below 63. -/
theorem windowEnded_locked (hw : (c.fan f).window = .count) (hs : (c.fan f).state = .locked) (hp : 0 < pulses)
    (h63 : (c.fan f).windowBand < 63) : windowEnded f pulses c =
      setFan f (if within6 (pulses * 300 / (c.fan f).pulses) (c.fan f).target then
          { (c.fan f).fresh pulses with unlockCount := 0 }
        else if 3 ≤ (c.fan f).unlockCount then unlock ((c.fan f).fresh pulses)
        else { (c.fan f).fresh pulses with unlockCount := (c.fan f).unlockCount + 1 } : Fan).windowed c := by
  rw [windowEnded_strong hw hp (.inr (.inl hs)) fun h => absurd h.1 (by omega), sampleByState_locked (r := (c.fan f).fresh pulses) hs,
    lockSample_setFan,
    nextWindow_setFan]

/-! ## CALIBRATING -/

/-- R127: the end of a search, and the start of the next window. -/
theorem endSearch_written (f : Fin 8) (r : Fan) (result : Nat) (c : Chip) :
    c.FanWritten f { r with
        state := .tracking, band := result, windowBand := result, search := none, reservedBand := stepCovering result,
        lockCount := 0, window := .count }
      { band := stepCovering result, ratedDraw := some r.ratedDraw } (nextWindow f (endSearch f result (setFan f r c))) := by
  have h := (((((Chip.FanWritten.refl c f).setFan r).modFan fun r => { r with
      band := result, search := none }).reserve (stepCovering result)).modFan fun r => { r with
      state := .tracking, lockCount := 0, window := .count }).modFan Fan.windowed
  rwa [Fan.windowed_of_count (by exact rfl)] at h

section Calibrating

variable {x : Search} (hw : (c.fan f).window = .count) (hs : (c.fan f).state = .calibrating) (hp : 0 < pulses)
  (hx : (c.fan f).search = some x)
include hw hs hp hx

/-- R126: a sample of a search decides its bit. -/
theorem windowEnded_calibrating : windowEnded f pulses c = nextWindow f (takeDecision f x (setFan f { c.fan f with
    measured := pulses * 300 / (c.fan f).pulses, stallCount := 0 } c)) := by
  have hweigh : ¬ ({ c.fan f with measured := pulses * 300 / (c.fan f).pulses, stallCount := 0 } : Fan).state.weighed := by
    show ¬ (c.fan f).state.weighed
    rw [hs]
    decide
  rw [windowEnded_pulses hw hp, updateWeak_unweighed hweigh, sampleByState_calibrating (r := { c.fan f with
    measured := pulses * 300 / (c.fan f).pulses, stallCount := 0 }) hs hx]

theorem windowEnded_decides (hi : x.index < 5) {result : Nat}
    (hr : (if pulses * 300 / (c.fan f).pulses ≤ (c.fan f).searchTarget then x.trial else x.partialResult) = result) :
    windowEnded f pulses c = setFan f { c.fan f with
      measured := pulses * 300 / (c.fan f).pulses, stallCount := 0, band := result + 2 ^ (4 - x.index), window := .settle,
      search := some { index := x.index + 1, partialResult := result, trial := result + 2 ^ (4 - x.index) } } c := by
  subst hr
  rw [windowEnded_calibrating hw hs hp hx, takeDecision_next hi, nextWindow_setFan, decisionBit_succ x.index hi]
  exact congrArg (setFan f · c) (Fan.windowed_of_ne (by exact nofun))

/-- R127. -/
theorem windowEnded_endsSearch (hi : x.index = 5) {result : Nat}
    (hr : (if pulses * 300 / (c.fan f).pulses ≤ (c.fan f).searchTarget then x.trial else x.partialResult) = result) :
    c.FanWritten f { c.fan f with
        measured := pulses * 300 / (c.fan f).pulses, stallCount := 0, state := .tracking, band := result,
        windowBand := result, search := none, reservedBand := stepCovering result, lockCount := 0 }
      { band := stepCovering result, ratedDraw := some (c.fan f).ratedDraw } (windowEnded f pulses c) := by
  subst hr
  rw [windowEnded_calibrating hw hs hp hx, takeDecision_last hi]
  have h := endSearch_written f { c.fan f with measured := pulses * 300 / (c.fan f).pulses, stallCount := 0 }
    (if pulses * 300 / (c.fan f).pulses ≤ (c.fan f).searchTarget then x.trial else x.partialResult) c
  dsimp only [Search.result] at h ⊢
  rw [hw] at h ⊢
  exact h

end Calibrating

/-! ## FAILED -/

/-- R132: a sample that fails the fan. -/
theorem windowEnded_fails (hw : (c.fan f).window = .count) (h8 : 8 ≤ (c.fan f).windowBand) (h4 : (c.fan f).stallCount = 4) :
    windowEnded f 0 c = failFan f (setFan f ((c.fan f).sampled 0) c) := by
  have hfan : (modFan f (Fan.sampled 0) c).fan f = (c.fan f).sampled 0 := fan_modFan_self ..
  refine (if_pos hw).trans (if_pos ?_)
  show 5 ≤ ((modFan f (Fan.sampled 0) c).fan f).stallCount
  rw [hfan, Fan.sampled, if_pos ⟨rfl, h8⟩, h4]

/-- Settles O29, state by state. -/
theorem samplesMoveBands : Obligations.SamplesMoveBands := by
  refine ⟨fun s f pulses hq hw hs hp hres hband hwb => ?tracks, fun s f pulses x hq hw hs hp hx hi => ?decides,
    fun s f pulses hw hp => ⟨fun hs hres hband hwb hb => ?reserves, fun x hs hx hi => ?ends, fun hq hs h63 => ?locked⟩,
    fun s f hw h8 h4 => ?fails⟩
  case tracks =>
    have h63 : (s.chip.fan f).windowBand < 63 := by omega
    refine ⟨fun hn hl => ?_, fun hn hl => ?_, fun hn hb => ?_, fun hn ha h0 => ?_⟩
    · exact exec_countWindowEnd hq (windowEnded_near hw hs hp h63 (within3_iff.2 hn) hl)
    · exact exec_countWindowEnd hq (windowEnded_locks hw hs hp h63 (within3_iff.2 hn) hl)
    · exact exec_countWindowEnd hq (windowEnded_raises hw hs hp h63 (within3_false hn) hb hband hres)
    · exact exec_countWindowEnd hq (windowEnded_lowers hw hs hp h63 (within3_false hn) ha h0)
  case decides => exact exec_countWindowEnd hq (windowEnded_decides hw hs hp hx hi rfl)
  case reserves =>
    have hn : within3 (pulses * 300 / (s.chip.fan f).pulses) (s.chip.fan f).target = false := within3_false (by omega)
    have h := (windowEnded_reserves hw hs hp (by omega) hn (by omega) hband hres).queueService
    exact ⟨_, exec_countWindowEnd_eq .., h.fan, h.reservation, h.others, h.frame.slots, h.frame.engines, h.frame.hub⟩
  case ends =>
    have h := (windowEnded_endsSearch hw hs hp hx hi rfl).queueService
    exact ⟨_, exec_countWindowEnd_eq .., h.fan, h.reservation, h.others, h.frame.slots, h.frame.engines, h.frame.hub⟩
  case locked =>
    refine ⟨fun hn => ?_, fun hn hu => ?_, fun hn hu => ?_⟩ <;> refine exec_countWindowEnd hq ?_ <;>
      rw [windowEnded_locked hw hs hp h63]
    · rw [if_pos (within6_iff.2 hn)]
      exact setFan_windowed (by exact hw)
    · rw [within6_false hn, if_neg Bool.false_ne_true, if_neg (by omega)]
      exact setFan_windowed (by exact hw)
    · rw [within6_false hn, if_neg Bool.false_ne_true, if_pos hu.ge]
      exact setFan_windowed (by exact hw)
  case fails =>
    refine ⟨_, exec_countWindowEnd_eq .., ?_⟩
    dsimp only [State.onChip]
    rw [windowEnded_fails hw h8 h4]
    obtain ⟨c', hfans, hfail⟩ := failFan_fans f (setFan f ((s.chip.fan f).sampled 0) s.chip)
    have hfan : (raise (.fan f) .fanFailed c').fan f = ((s.chip.fan f).sampled 0).failed := by
      show c'.fan f = _
      rw [fan_congr hfans, fan_modFan_self, fan_setFan_self]
    have hstands := Chip.fanStands_keeps f _ _ |>.queueService
      (Chip.fanStands.evaluateZone (r := ((s.chip.fan f).sampled 0).failed) ⟨hfan, rfl⟩ rfl (fanZone f))
    have halert : (failFan f (setFan f ((s.chip.fan f).sampled 0) s.chip)).alerted (.fan f) .fanFailed := by
      rw [hfail]
      exact (Chip.alerted_keeps _ _).toFanKeeps.evaluateZone _ (alerted_raise _ _ _)
    have hframe := s.chip.sameFrame_keeps.toPowerKeeps.queueService
      (s.chip.sameFrame_keeps.failFan f ((Chip.FanWritten.refl s.chip f).setFan ((s.chip.fan f).sampled 0)).frame)
    rw [← hfail] at hstands
    refine ⟨?_, halert.queueService, hframe.slots, hframe.engines, hframe.hub⟩
    rw [hstands.fan]
    exact ⟨rfl, rfl, rfl, rfl, rfl, rfl, rfl, rfl, rfl, rfl, by simp [Fan.failed, Fan.sampled], rfl⟩

end Sys2Proof.Machine

/-!
PROOF. Zone emergencies (R141 to R148): the records of the zones and of the fans after an evaluation, and the orders on a fan
(R133, R134).
-/

namespace Sys2Proof.Machine

variable {c c' : Chip} {f : Fin 8} {z : Fin 4}

/-! ## Zones and fans after the writes of the fan controller -/

theorem zone_congr (h : c'.fans = c.fans) (z : Fin 4) : c'.zone z = c.zone z := by rw [Chip.zone, h]; rfl

theorem zone_modZone (z w : Fin 4) (g : Zone → Zone) (c : Chip) :
    (modZone z g c).zone w = if w = z then g (c.zone w) else c.zone w := by
  rw [modZone, zone_setZone]
  split
  · next h => rw [h]
  · rfl

@[simp] theorem fan_modZone (z : Fin 4) (g : Zone → Zone) (c : Chip) (f : Fin 8) : (modZone z g c).fan f = c.fan f := rfl
@[simp] theorem zone_modFan (f : Fin 8) (g : Fan → Fan) (c : Chip) (z : Fin 4) : (modFan f g c).zone z = c.zone z := rfl

/-- The records of the fan controller as they were. -/
theorem sameFans_keeps (c : Chip) : PowerKeeps fun t => t.fans = c.fans where
  power _ _ h := h
  raise _ _ _ h := h
  messages _ _ h := h

@[simp] theorem queueService_fans (c : Chip) : (queueService c).fans = c.fans := (sameFans_keeps c).queueService rfl

theorem requestThermals_fans (l : List (Fin 16)) (c : Chip) : (forEach l requestThermal c).fans = c.fans :=
  forEach_keeps (P := fun t => t.fans = c.fans) l requestThermal (fun _ _ h => (sameFans_keeps c).requestThermal _ h) c rfl

theorem removeReasons_fans (r : CapReason) (l : List (Fin 16)) (c : Chip) : (forEach l (removeReason r) c).fans = c.fans :=
  forEach_keeps (P := fun t => t.fans = c.fans) l (removeReason r) (fun _ _ h => (sameFans_keeps c).removeReason _ _ h) c rfl

theorem fan_enterBoost (f j : Fin 8) (c : Chip) :
    (enterBoost f c).fan j = if j = f then (c.fan f).boosted else c.fan j :=
  (fan_congr (enterBoost_fans f c) j).trans (fan_modFan ..)

theorem fan_enterCalibrating (f j : Fin 8) (c : Chip) :
    (enterCalibrating f c).fan j = if j = f then (c.fan f).calibrating else c.fan j :=
  (fan_congr (enterCalibrating_fans f c) j).trans (fan_modFan ..)

theorem fan_enterPinned (f j : Fin 8) (band : Nat) (c : Chip) :
    (enterPinned f band c).fan j = if j = f then (c.fan f).pinned band else c.fan j :=
  (fan_congr (enterPinned_fans f band c) j).trans (fan_modFan ..)

@[simp] theorem zone_enterBoost (f : Fin 8) (c : Chip) (z : Fin 4) : (enterBoost f c).zone z = c.zone z :=
  zone_congr (enterBoost_fans f c) z

@[simp] theorem zone_enterCalibrating (f : Fin 8) (c : Chip) (z : Fin 4) : (enterCalibrating f c).zone z = c.zone z :=
  zone_congr (enterCalibrating_fans f c) z

@[simp] theorem zone_enterPinned (f : Fin 8) (band : Nat) (c : Chip) (z : Fin 4) : (enterPinned f band c).zone z = c.zone z :=
  zone_congr (enterPinned_fans f band c) z

/-- R142 step 3: the record of a fan of a zone whose emergency begins. -/
def Fan.boosting (r : Fan) : Fan :=
  match r.state with
  | .calibrating | .tracking | .locked | .pinned => r.boosted
  | .absent | .identifying | .boost | .failed => r

/-- R148 step 3: the record of a fan of a zone whose emergency ends. -/
def Fan.unboosting (r : Fan) : Fan :=
  if r.state = .boost then
    match r.pinnedBand with
    | some b => r.pinned b
    | none => r.calibrating
  else r

theorem Fan.unboosting_of_pin {r : Fan} {b : Nat} (hs : r.state = .boost) (hp : r.pinnedBand = some b) :
    r.unboosting = r.pinned b := by
  rw [unboosting, if_pos hs, hp]

theorem Fan.unboosting_of_none {r : Fan} (hs : r.state = .boost) (hp : r.pinnedBand = none) :
    r.unboosting = r.calibrating := by
  rw [unboosting, if_pos hs, hp]

theorem Fan.unboosting_of_ne {r : Fan} (hs : r.state ≠ .boost) : r.unboosting = r := if_neg hs

theorem ite_self_fan (f j : Fin 8) (c : Chip) : (if j = f then c.fan f else c.fan j) = c.fan j := by
  split
  · next h => rw [h]
  · rfl

theorem fan_boostFan (f j : Fin 8) (c : Chip) :
    (boostFan f c).fan j = if j = f then (c.fan f).boosting else c.fan j := by
  unfold boostFan Fan.boosting
  cases (c.fan f).state
  case calibrating | tracking | locked | pinned => exact fan_enterBoost ..
  all_goals exact (ite_self_fan f j c).symm

@[simp] theorem zone_boostFan (f : Fin 8) (c : Chip) (z : Fin 4) : (boostFan f c).zone z = c.zone z := by
  unfold boostFan
  cases (c.fan f).state
  case calibrating | tracking | locked | pinned => exact zone_enterBoost ..
  all_goals rfl

theorem fan_unboostFan (f j : Fin 8) (c : Chip) :
    (unboostFan f c).fan j = if j = f then (c.fan f).unboosting else c.fan j := by
  unfold unboostFan
  by_cases hs : (c.fan f).state = .boost
  · rw [if_pos hs]
    cases hp : (c.fan f).pinnedBand with
    | some b =>
      rw [Fan.unboosting_of_pin hs hp]
      exact fan_enterPinned ..
    | none =>
      rw [Fan.unboosting_of_none hs hp]
      exact fan_enterCalibrating ..
  · rw [if_neg hs, Fan.unboosting_of_ne hs, ite_self_fan]

@[simp] theorem zone_unboostFan (f : Fin 8) (c : Chip) (z : Fin 4) : (unboostFan f c).zone z = c.zone z := by
  unfold unboostFan
  split
  · split
    · exact zone_enterPinned ..
    · exact zone_enterCalibrating ..
  · rfl

theorem fanZone_eq_iff : ∀ (j : Fin 8) (z : Fin 4), fanZone j = z ↔ j = firstFan z ∨ j = secondFan z := by decide
theorem firstFan_ne_secondFan : ∀ z : Fin 4, firstFan z ≠ secondFan z := by decide

/-- An operation on one fan's record, done on both fans of a zone. -/
theorem fan_bothFans {op : Fin 8 → Chip → Chip} {g : Fan → Fan}
    (h : ∀ f j c, (op f c).fan j = if j = f then g (c.fan f) else c.fan j) (z : Fin 4) (j : Fin 8) (c : Chip) :
    (op (secondFan z) (op (firstFan z) c)).fan j = if fanZone j = z then g (c.fan j) else c.fan j := by
  have hne := firstFan_ne_secondFan z
  by_cases h2 : j = secondFan z
  · rw [h, if_pos h2, h, if_neg hne.symm, if_pos ((fanZone_eq_iff j z).2 (.inr h2)), h2]
  · rw [h, if_neg h2, h]
    by_cases h1 : j = firstFan z
    · rw [if_pos h1, if_pos ((fanZone_eq_iff j z).2 (.inl h1)), h1]
    · rw [if_neg h1, if_neg fun hz => ((fanZone_eq_iff j z).1 hz).elim h1 h2]

/-! ## The evaluation of a zone (R141, R142, R148) -/

/-- R142: the zone of an emergency that begins. -/
abbrev Zone.begun (r : Zone) (cause : EmergencyCause) (grace : Nat) : Zone :=
  { r with emergency := true, cause := some cause, grace := some grace, graceTimer := true }

/-- R148: the zone of an emergency that ends. -/
abbrev Zone.ended (r : Zone) : Zone := { r with emergency := false, cause := none, grace := none, graceTimer := false }

/-- R142: the part as the slots of the zone are asked for, before the grace timer starts. -/
abbrev Chip.beginning (c : Chip) (z : Fin 4) : Chip :=
  boostFan (secondFan z) (boostFan (firstFan z) (raise (.zone z) .zoneEmergency
    (modZone z (fun r => { r with emergency := true, cause := some (c.emergencyCause z) }) c)))

theorem beginEmergency_eq (z : Fin 4) (c : Chip) : beginEmergency z c =
    modZone z (fun r => { r with grace := some c.settings.emergencyGrace, graceTimer := true })
      (forEach ((keys 16).filter fun k => c.slotZone k = z) requestThermal (c.beginning z)) := rfl

theorem fan_beginning (z : Fin 4) (j : Fin 8) (c : Chip) :
    (c.beginning z).fan j = if fanZone j = z then (c.fan j).boosting else c.fan j := fan_bothFans fan_boostFan z j _

theorem fan_beginEmergency (z : Fin 4) (j : Fin 8) (c : Chip) :
    (beginEmergency z c).fan j = if fanZone j = z then (c.fan j).boosting else c.fan j := by
  rw [beginEmergency_eq, fan_modZone, fan_congr (requestThermals_fans _ _), fan_beginning]

theorem zone_beginEmergency (z w : Fin 4) (c : Chip) : (beginEmergency z c).zone w =
    if w = z then (c.zone w).begun (c.emergencyCause z) c.settings.emergencyGrace else c.zone w := by
  have hraise : (c.beginning z).zone w =
      (modZone z (fun r => { r with emergency := true, cause := some (c.emergencyCause z) }) c).zone w := by
    rw [zone_boostFan, zone_boostFan]
    rfl
  rw [beginEmergency_eq, zone_modZone, zone_congr (requestThermals_fans _ _), hraise, zone_modZone]
  split <;> rfl

theorem alerted_beginEmergency (z : Fin 4) (c : Chip) : (beginEmergency z c).alerted (.zone z) .zoneEmergency := by
  have h := (Chip.alerted_keeps (.zone z) .zoneEmergency).toFanKeeps
  rw [beginEmergency_eq]
  exact h.modZone _ _ (forEach_keeps (P := fun t => t.alerted (.zone z) .zoneEmergency) _ requestThermal
    (fun _ _ hx => h.toPowerKeeps.requestThermal _ hx) _ (h.boostFan _ (h.boostFan _ (alerted_raise _ _ _))))

/-- R148: the part as the emergency ends, before its zone is written. -/
abbrev Chip.ending (c : Chip) (z : Fin 4) : Chip :=
  unboostFan (secondFan z) (unboostFan (firstFan z) (forEach ((keys 16).filter fun k => c.slotZone k = z)
    (removeReason .thermal) (modZone z (fun r => { r with graceTimer := false }) c)))

theorem endEmergency_eq (z : Fin 4) (c : Chip) : endEmergency z c =
    modZone z (fun r => { r with emergency := false, cause := none, grace := none }) (c.ending z) := rfl

theorem fan_endEmergency (z : Fin 4) (j : Fin 8) (c : Chip) :
    (endEmergency z c).fan j = if fanZone j = z then (c.fan j).unboosting else c.fan j := by
  rw [endEmergency_eq, fan_modZone, fan_bothFans fan_unboostFan, fan_congr (removeReasons_fans ..), fan_modZone]

theorem zone_endEmergency (z w : Fin 4) (c : Chip) : (endEmergency z c).zone w =
    if w = z then (c.zone w).ended else c.zone w := by
  have hunboost : (c.ending z).zone w = (modZone z (fun r => { r with graceTimer := false }) c).zone w :=
    ((zone_unboostFan ..).trans (zone_unboostFan ..)).trans (zone_congr (removeReasons_fans ..) w)
  rw [endEmergency_eq, zone_modZone, hunboost, zone_modZone]
  split <;> rfl

theorem sendDrain_leaves (z w : Fin 4) (j : Fin 8) (k : Fin 16) (c : Chip) :
    (sendDrain z k c).fan j = c.fan j ∧ (sendDrain z k c).zone w = c.zone w :=
  ite_keeps (P := fun t => t.fan j = c.fan j ∧ t.zone w = c.zone w) ⟨rfl, rfl⟩ ⟨rfl, rfl⟩

theorem sendDrains_leaves (z w : Fin 4) (j : Fin 8) (c : Chip) :
    (sendDrains z c).fan j = c.fan j ∧ (sendDrains z c).zone w = c.zone w :=
  forEach_keeps (P := fun t => t.fan j = c.fan j ∧ t.zone w = c.zone w) _ (sendDrain z) (fun k t h => by
    obtain ⟨hfan, hzone⟩ := sendDrain_leaves z w j k t
    exact ⟨hfan.trans h.1, hzone.trans h.2⟩) c ⟨rfl, rfl⟩

/-- R141: no emergency begins. -/
theorem evaluateZone_quiet (he : (c.zone z).emergency = false) (hm : c.marginCondition z = false)
    (hf : c.fanCondition z = false) : evaluateZone z c = c := by
  unfold evaluateZone
  rw [he, hm, hf]
  rfl

/-- R141: an emergency begins. -/
theorem evaluateZone_begins (he : (c.zone z).emergency = false) (h : c.marginCondition z = true ∨ c.fanCondition z = true) :
    evaluateZone z c = beginEmergency z c := by
  unfold evaluateZone
  rw [he, if_neg Bool.false_ne_true, if_pos h]

/-- R148: an emergency ends. -/
theorem evaluateZone_ends (he : (c.zone z).emergency = true) (h : c.endsEmergency z = true) :
    evaluateZone z c = endEmergency z c := by
  unfold evaluateZone
  rw [he, if_pos rfl, if_pos h]

/-- R147: an emergency stays, its cause written again. -/
theorem evaluateZone_stays (he : (c.zone z).emergency = true) (h : c.endsEmergency z = false) :
    (evaluateZone z c).zone z = { c.zone z with cause := some (c.emergencyCause z) } ∧
      ∀ j, (evaluateZone z c).fan j = c.fan j := by
  have hcause : (modZone z (fun r => { r with cause := some (c.emergencyCause z) }) c).zone z =
      { c.zone z with cause := some (c.emergencyCause z) } := by
    rw [zone_modZone, if_pos rfl]
  unfold evaluateZone
  dsimp only
  rw [if_pos he, if_neg (h ▸ Bool.false_ne_true)]
  split
  · refine ⟨(sendDrains_leaves z z 0 _).2.trans ?_, fun j => (sendDrains_leaves z z j _).1⟩
    exact hcause
  · exact ⟨hcause, fun j => rfl⟩

/-! ## Orders on a fan (R133, R134) -/

/-- What the fan controller's records are after an order that its owner has answered. -/
theorem fans_ordered (i : Instr) (x : Status) (c : Chip) : (c.ordered i x).fans = c.fans := queueService_fans _

theorem fan_ordered (i : Instr) (x : Status) (j : Fin 8) (c : Chip) : (c.ordered i x).fan j = c.fan j :=
  fan_congr (fans_ordered i x c) j

theorem zone_ordered (i : Instr) (x : Status) (z : Fin 4) (c : Chip) : (c.ordered i x).zone z = c.zone z :=
  zone_congr (fans_ordered i x c) z

theorem slots_ordered (i : Instr) (x : Status) (c : Chip) : (c.ordered i x).slots = c.slots :=
  ((Chip.sameButPower_keeps _).queueService (.refl (writeAnswer i (c, { status := x, result := [] })))).slots

theorem reservation_ordered (i : Instr) (x : Status) (f : Fin 8) (c : Chip) :
    (c.ordered i x).reservation f = c.reservation f := (queueService_sources _).reservation f

theorem fan_calibrateOrBoost (f j : Fin 8) (c : Chip) : (calibrateOrBoost f c).fan j =
    if j = f then (if (c.zone (fanZone f)).emergency then (c.fan f).boosted else (c.fan f).calibrating) else c.fan j := by
  unfold calibrateOrBoost
  split
  · exact fan_enterBoost ..
  · exact fan_enterCalibrating ..

theorem fan_calibrateOrBoost_quiet (he : (c.zone (fanZone f)).emergency = false) (j : Fin 8) :
    (calibrateOrBoost f c).fan j = if j = f then (c.fan f).calibrating else c.fan j := by
  rw [fan_calibrateOrBoost, he, if_neg Bool.false_ne_true]

theorem fan_calibrateOrBoost_active (he : (c.zone (fanZone f)).emergency = true) (j : Fin 8) :
    (calibrateOrBoost f c).fan j = if j = f then (c.fan f).boosted else c.fan j := by
  rw [fan_calibrateOrBoost, if_pos he]

@[simp] theorem zone_calibrateOrBoost (f : Fin 8) (c : Chip) (z : Fin 4) : (calibrateOrBoost f c).zone z = c.zone z := by
  unfold calibrateOrBoost
  split
  · exact zone_enterBoost ..
  · exact zone_enterCalibrating ..

/-- R133: the fans that take a PIN at once. -/
theorem pinFan_takes {band : Nat} (hb : band ≤ 63) (hs : (c.fan f).state = .calibrating ∨ (c.fan f).state = .tracking ∨
    (c.fan f).state = .locked ∨ (c.fan f).state = .pinned) : pinFan f band c = (enterPinned f band c, .ok) := by
  unfold pinFan
  rw [if_neg (not_lt.2 hb)]
  rcases hs with hs | hs | hs | hs <;> rw [hs]

theorem pinFan_boost {band : Nat} (hb : band ≤ 63) (hs : (c.fan f).state = .boost) :
    pinFan f band c = (setFan f { c.fan f with pinnedBand := some band } c, .ok) := by
  unfold pinFan
  rw [if_neg (not_lt.2 hb), hs]
  rfl

theorem pinFan_refuses {band : Nat} (hb : band ≤ 63) (hs : (c.fan f).state = .absent ∨ (c.fan f).state = .identifying ∨
    (c.fan f).state = .failed) : pinFan f band c = (c, .state) := by
  unfold pinFan
  rw [if_neg (not_lt.2 hb)]
  rcases hs with hs | hs | hs <;> rw [hs]

/-- R133: what PIN makes of a fan that takes it. -/
theorem pinFan_written (f : Fin 8) (band : Nat) (c : Chip) : c.FanWritten f ((c.fan f).pinned band)
    { band := stepCovering band, ratedDraw := some (c.fan f).ratedDraw } (enterPinned f band c) :=
  ((Chip.FanWritten.refl c f).modFan fun r => { r.runWindows band with
    state := .pinned, pinnedBand := some band, search := none, releaseTimer := false, lockCount := 0, weakCount := 0,
    band := band }).reserve (stepCovering band)

theorem unpinFan_pinned (hs : (c.fan f).state = .pinned) :
    unpinFan f c = (calibrateOrBoost f (modFan f (fun r => { r with pinnedBand := none }) c), .ok) := by
  unfold unpinFan
  rw [hs]

theorem unpinFan_boost {b : Nat} (hs : (c.fan f).state = .boost) (hp : (c.fan f).pinnedBand = some b) :
    unpinFan f c = (setFan f { c.fan f with pinnedBand := none } c, .ok) := by
  unfold unpinFan
  rw [hs, hp]
  rfl

theorem unpinFan_refuses (hs : (c.fan f).state ≠ .pinned) (hp : (c.fan f).state ≠ .boost ∨ (c.fan f).pinnedBand = none) :
    unpinFan f c = (c, .state) := by
  unfold unpinFan
  split
  · next h => exact absurd h hs
  · next hb hsome =>
    rcases hp with hp | hp
    · exact absurd hb hp
    · exact nomatch hsome.symm.trans hp
  · rfl

theorem retryFan_failed (hs : (c.fan f).state = .failed) :
    retryFan f c = (evaluateZone (fanZone f) (calibrateOrBoost f c), .ok) := if_pos hs
theorem retryFan_refuses (hs : (c.fan f).state ≠ .failed) : retryFan f c = (c, .state) := if_neg hs

/-- R133: PIN, state by state. -/
theorem orderPin_leaves (s : State) (f : Fin 8) (band : Nat) (hq : s.chip.quiescent) (ht : s.chip.takes (.orderPin f band)) :
    (band ≤ 63 → ((s.chip.fan f).state = .calibrating ∨ (s.chip.fan f).state = .tracking ∨
        (s.chip.fan f).state = .locked ∨ (s.chip.fan f).state = .pinned) →
      ∃ t, exec (.orderPin f band) s = .next t ∧ t.chip.fan f = (s.chip.fan f).pinned band ∧
        t.chip.reservation f = { band := stepCovering band, ratedDraw := some (s.chip.fan f).ratedDraw } ∧
        t.chip.port.response = some (answerMessage (.orderPin f band) { status := .ok, result := [] }) ∧
        (∀ f', f' ≠ f → t.chip.fan f' = s.chip.fan f') ∧ t.chip.slots = s.chip.slots) ∧
    (band ≤ 63 → (s.chip.fan f).state = .boost → exec (.orderPin f band) s = .next (s.onChip ((setFan f
      { s.chip.fan f with pinnedBand := some band } s.chip).answered (.orderPin f band) { status := .ok, result := [] }))) ∧
    (band ≤ 63 → ((s.chip.fan f).state = .absent ∨ (s.chip.fan f).state = .identifying ∨ (s.chip.fan f).state = .failed) →
      exec (.orderPin f band) s =
        .next (s.onChip (s.chip.answered (.orderPin f band) { status := .state, result := [] }))) ∧
    (63 < band → exec (.orderPin f band) s =
      .next (s.onChip (s.chip.answered (.orderPin f band) { status := .range, result := [] }))) := by
  refine ⟨fun hb hs => ?_, fun hb hs => ?_, fun hb hs => ?_, fun hb => ?_⟩
  · have h := pinFan_written f band (s.chip.opened (.orderPin f band))
    refine ⟨_, takenOrder_of_takes ht (pinFan_takes (c := s.chip.opened _) hb hs), ?_⟩
    dsimp only [State.onChip]
    rw [fan_ordered, reservation_ordered, response_ordered, slots_ordered]
    exact ⟨h.fan, h.reservation, rfl, fun j hj => (fan_ordered ..).trans (h.others j hj).1, h.frame.slots⟩
  · exact takenOrder_answered (c := setFan f _ s.chip) ht hq (pinFan_boost (c := s.chip.opened (.orderPin f band)) hb hs)
  · exact takenOrder_answered ht hq (pinFan_refuses (c := s.chip.opened (.orderPin f band)) hb hs)
  · exact takenOrder_answered ht hq (if_pos hb)

/-- R126: the record of a fan that starts a search. -/
theorem Fan.calibrating_fields (r : Fan) :
    r.calibrating.state = .calibrating ∧ r.calibrating.band = 32 ∧ r.calibrating.reservedBand = 63 ∧
      r.calibrating.pinnedBand = none ∧ r.calibrating.lockCount = 0 ∧ r.calibrating.weakCount = 0 ∧
      r.calibrating.stallCount = 0 ∧ r.calibrating.searchTarget = r.target ∧ r.calibrating.window = .settle ∧
      r.calibrating.search = some { index := 0, partialResult := 0, trial := 32 } ∧ r.calibrating.handle = r.handle ∧
      r.calibrating.ratedDraw = r.ratedDraw := ⟨rfl, rfl, rfl, rfl, rfl, rfl, rfl, rfl, rfl, rfl, rfl, rfl⟩

/-- R135: the record of a fan that boosts. -/
theorem Fan.boosted_fields (r : Fan) :
    r.boosted.state = .boost ∧ r.boosted.band = 63 ∧ r.boosted.reservedBand = 63 ∧ r.boosted.search = none ∧
      r.boosted.lockCount = 0 ∧ r.boosted.releaseTimer = false ∧ r.boosted.window = .count ∧
      r.boosted.handle = r.handle ∧ r.boosted.ratedDraw = r.ratedDraw := ⟨rfl, rfl, rfl, rfl, rfl, rfl, rfl, rfl, rfl⟩

/-- R135: a fan that boosts out of FAILED starts its counts again. -/
theorem Fan.boosted_restarts {r : Fan} (h : r.state = .failed) : r.boosted.stallCount = 0 ∧ r.boosted.weakCount = 0 := by
  simp [boosted, h]

/-! ### RETRY_FAN -/

/-- A fan that has been moved to CALIBRATING or BOOST works. -/
theorem fanCondition_of_works {f : Fin 8} (h : (c.fan f).works = true) : c.fanCondition (fanZone f) = false := by
  unfold Chip.fanCondition
  rcases (fanZone_eq_iff f (fanZone f)).1 rfl with hf | hf
  · rw [← hf, h]
    rfl
  · rw [← hf, h, Bool.not_true, Bool.and_false]

theorem works_calibrateOrBoost (f : Fin 8) (c : Chip) : ((calibrateOrBoost f c).fan f).works = true := by
  rw [fan_calibrateOrBoost, if_pos rfl]
  split <;> rfl

theorem marginCondition_congr (hz : c'.zone z = c.zone z) (hs : c'.settings = c.settings) :
    c'.marginCondition z = c.marginCondition z := by rw [Chip.marginCondition, hz, hs]; rfl

/-- R148: the emergency of a zone with a working fan ends by its demand alone. -/
theorem endsEmergency_of_works (hf : c.fanCondition z = false) :
    c.endsEmergency z = true ↔ ∀ d, (c.zone z).demand = some d → c.settings.criticalMargin + 5 ≤ d := by
  unfold Chip.endsEmergency
  rw [hf, Bool.not_false, Bool.true_and]
  cases (c.zone z).demand with
  | none => exact ⟨fun _ _ h => (nomatch h), fun _ => rfl⟩
  | some d => exact ⟨fun h e he => Option.some.inj he ▸ of_decide_eq_true h, fun h => decide_eq_true (h d rfl)⟩

theorem marginCondition_iff : c.marginCondition z = true ↔ ∃ d, (c.zone z).demand = some d ∧ d ≤ c.settings.criticalMargin := by
  unfold Chip.marginCondition
  cases (c.zone z).demand with
  | none => exact ⟨fun h => (nomatch h), fun ⟨_, h, _⟩ => nomatch h⟩
  | some d => exact ⟨fun h => ⟨d, rfl, of_decide_eq_true h⟩, fun ⟨e, he, hle⟩ => decide_eq_true (Option.some.inj he ▸ hle)⟩

section Retried

variable (f) (c)

theorem retried_frame : c.SameFrame (calibrateOrBoost f c) := c.sameFrame_keeps.calibrateOrBoost f (.refl c)

theorem retried_fanCondition : (calibrateOrBoost f c).fanCondition (fanZone f) = false :=
  fanCondition_of_works (works_calibrateOrBoost f c)

theorem retried_marginCondition : (calibrateOrBoost f c).marginCondition (fanZone f) = c.marginCondition (fanZone f) :=
  marginCondition_congr (zone_calibrateOrBoost ..) (retried_frame c f).settings

theorem retried_endsEmergency : (calibrateOrBoost f c).endsEmergency (fanZone f) = true ↔
    ∀ d, (c.zone (fanZone f)).demand = some d → c.settings.criticalMargin + 5 ≤ d := by
  rw [endsEmergency_of_works (retried_fanCondition c f), zone_calibrateOrBoost, (retried_frame c f).settings]

end Retried

section RetryFan

variable {s : State} {f : Fin 8} (ht : s.chip.takes (.orderRetryFan f)) (hs : (s.chip.fan f).state = .failed)
include ht hs

/-- R134: the part after RETRY_FAN of a failed fan. -/
theorem exec_orderRetryFan_failed : exec (.orderRetryFan f) s = .next (s.onChip
    ((evaluateZone (fanZone f) (calibrateOrBoost f (s.chip.opened (.orderRetryFan f)))).ordered (.orderRetryFan f) .ok)) :=
  takenOrder_of_takes ht (retryFan_failed (c := s.chip.opened _) hs)

omit hs ht in
theorem retryFan_slots (c : Chip) (hc : c.slots = s.chip.slots) :
    ((evaluateZone (fanZone f) (calibrateOrBoost f c)).ordered (.orderRetryFan f) .ok).slots = s.chip.slots :=
  (slots_ordered ..).trans (((c.sameFrame_keeps.evaluateZone _ (retried_frame c f)).slots).trans hc)

/-- R134: no emergency, and none begins. -/
theorem orderRetryFan_quiet (he : (s.chip.zone (fanZone f)).emergency = false)
    (hm : s.chip.marginCondition (fanZone f) = false) :
    ∃ t, exec (.orderRetryFan f) s = .next t ∧
      t.chip.port.response = some (answerMessage (.orderRetryFan f) { status := .ok, result := [] }) ∧
      (∀ j, t.chip.fan j = if j = f then (s.chip.fan f).calibrating else s.chip.fan j) ∧
      t.chip.slots = s.chip.slots := by
  refine ⟨_, exec_orderRetryFan_failed ht hs, response_ordered .., fun j => ?_, retryFan_slots _ rfl⟩
  have hquiet := evaluateZone_quiet (c := calibrateOrBoost f (s.chip.opened (.orderRetryFan f)))
    (by rw [zone_calibrateOrBoost]; exact he) ((retried_marginCondition ..).trans hm) (retried_fanCondition ..)
  dsimp only [State.onChip]
  rw [fan_ordered, hquiet]
  exact fan_calibrateOrBoost_quiet (c := s.chip.opened (.orderRetryFan f)) he j

/-- R147: an emergency that stays. -/
theorem orderRetryFan_stays (he : (s.chip.zone (fanZone f)).emergency = true)
    (hd : ¬ ∀ d, (s.chip.zone (fanZone f)).demand = some d → s.chip.settings.criticalMargin + 5 ≤ d) :
    ∃ t, exec (.orderRetryFan f) s = .next t ∧
      t.chip.port.response = some (answerMessage (.orderRetryFan f) { status := .ok, result := [] }) ∧
      (∀ j, t.chip.fan j = if j = f then (s.chip.fan f).boosted else s.chip.fan j) ∧
      t.chip.slots = s.chip.slots := by
  refine ⟨_, exec_orderRetryFan_failed ht hs, response_ordered .., fun j => ?_, retryFan_slots _ rfl⟩
  have hstays := evaluateZone_stays (c := calibrateOrBoost f (s.chip.opened (.orderRetryFan f)))
    (by rw [zone_calibrateOrBoost]; exact he)
    (Bool.eq_false_iff.2 fun h => hd ((retried_endsEmergency (s.chip.opened (.orderRetryFan f)) f).1 h))
  dsimp only [State.onChip]
  rw [fan_ordered, hstays.2]
  exact fan_calibrateOrBoost_active (c := s.chip.opened (.orderRetryFan f)) he j

/-- R148: an emergency that ends. -/
theorem orderRetryFan_ends (he : (s.chip.zone (fanZone f)).emergency = true)
    (hd : ∀ d, (s.chip.zone (fanZone f)).demand = some d → s.chip.settings.criticalMargin + 5 ≤ d) :
    ∃ t, exec (.orderRetryFan f) s = .next t ∧
      t.chip.port.response = some (answerMessage (.orderRetryFan f) { status := .ok, result := [] }) ∧
      t.chip.zone (fanZone f) = (s.chip.zone (fanZone f)).ended ∧
      t.chip.fan f = (s.chip.fan f).boosted.unboosting ∧
      (∀ j, j ≠ f → t.chip.fan j = if fanZone j = fanZone f then (s.chip.fan j).unboosting else s.chip.fan j) ∧
      t.chip.slots = s.chip.slots := by
  refine ⟨_, exec_orderRetryFan_failed ht hs, response_ordered .., ?_, ?_, fun j hj => ?_, retryFan_slots _ rfl⟩ <;>
    dsimp only [State.onChip] <;>
    have hends := evaluateZone_ends (c := calibrateOrBoost f (s.chip.opened (.orderRetryFan f)))
      (by rw [zone_calibrateOrBoost]; exact he) ((retried_endsEmergency (s.chip.opened (.orderRetryFan f)) f).2 hd)
  · rw [zone_ordered, hends, zone_endEmergency, if_pos rfl, zone_calibrateOrBoost]
    rfl
  · rw [fan_ordered, hends, fan_endEmergency, if_pos rfl, fan_calibrateOrBoost_active (c := s.chip.opened _) he,
      if_pos rfl]
    rfl
  · rw [fan_ordered, hends, fan_endEmergency, fan_calibrateOrBoost, if_neg hj]
    rfl

/-- R142: an emergency that begins by the margin. -/
theorem orderRetryFan_begins (he : (s.chip.zone (fanZone f)).emergency = false)
    (hm : s.chip.marginCondition (fanZone f) = true) :
    ∃ t, exec (.orderRetryFan f) s = .next t ∧
      t.chip.port.response = some (answerMessage (.orderRetryFan f) { status := .ok, result := [] }) ∧
      t.chip.zone (fanZone f) = (s.chip.zone (fanZone f)).begun .margin s.chip.settings.emergencyGrace ∧
      t.chip.fan f = (s.chip.fan f).calibrating.boosted ∧ t.chip.alerted (.zone (fanZone f)) .zoneEmergency ∧
      t.chip.slots = s.chip.slots := by
  have hbegins := evaluateZone_begins (c := calibrateOrBoost f (s.chip.opened (.orderRetryFan f)))
    (by rw [zone_calibrateOrBoost]; exact he) (.inl ((retried_marginCondition ..).trans hm))
  have hcause : (calibrateOrBoost f (s.chip.opened (.orderRetryFan f))).emergencyCause (fanZone f) = .margin :=
    if_neg (retried_fanCondition _ f ▸ Bool.false_ne_true)
  refine ⟨_, exec_orderRetryFan_failed ht hs, response_ordered .., ?_, ?_, ?_, retryFan_slots _ rfl⟩ <;>
    dsimp only [State.onChip]
  · rw [zone_ordered, hbegins, zone_beginEmergency, if_pos rfl, zone_calibrateOrBoost, hcause, (retried_frame ..).settings]
    rfl
  · rw [fan_ordered, hbegins, fan_beginEmergency, if_pos rfl,
      fan_calibrateOrBoost_quiet (c := s.chip.opened _) he, if_pos rfl]
    rfl
  · rw [hbegins]
    exact Chip.alerted.ordered (alerted_beginEmergency _ _) _ _

end RetryFan

/-- Settles O51, order by order. -/
theorem fanOrdersByState : Obligations.FanOrdersByState := by
  refine ⟨fun s f band hq ht => orderPin_leaves s f band hq ht, fun s f hq => ⟨fun ht => ⟨fun hs => ?unpins, fun b hs hp => ?_,
    fun hs hp => ?_⟩, fun ht => ⟨fun hs he hm => ?quiet, fun d hs he hd hlt => ?stays, fun hs he hp hd => ?ends,
    fun d hs he hd hle => ?begins, fun hs => ?_⟩⟩⟩
  case unpins =>
    have hframe := (s.chip.opened (.orderUnpin f)).sameFrame_keeps.calibrateOrBoost f
      ((s.chip.opened (.orderUnpin f)).sameFrame_keeps.modFan f (fun r => { r with pinnedBand := none }) (.refl _))
    have hothers (j : Fin 8) (hj : j ≠ f) : (calibrateOrBoost f (modFan f (fun r => { r with pinnedBand := none })
        (s.chip.opened (.orderUnpin f)))).fan j = s.chip.fan j := by
      rw [fan_calibrateOrBoost, if_neg hj, fan_modFan, if_neg hj]
      rfl
    refine ⟨_, takenOrder_of_takes ht (unpinFan_pinned (c := s.chip.opened _) hs),
      ⟨response_ordered .., fun j hj => (fan_ordered ..).trans (hothers j hj), (slots_ordered ..).trans hframe.slots⟩, ?_⟩
    dsimp only [State.onChip]
    rw [fan_ordered]
    split
    · next he =>
      rw [fan_calibrateOrBoost_active (c := modFan f _ (s.chip.opened _)) he, if_pos rfl, fan_modFan_self]
      exact ⟨Fan.boosted_fields _, rfl⟩
    · next he =>
      rw [fan_calibrateOrBoost_quiet (c := modFan f _ (s.chip.opened _)) (Bool.eq_false_iff.2 he), if_pos rfl, fan_modFan_self]
      exact Fan.calibrating_fields _
  case quiet =>
    obtain ⟨t, hexec, hresponse, hfan, hslots⟩ := orderRetryFan_quiet ht hs he hm
    refine ⟨t, hexec, ⟨hresponse, fun j hj => (hfan j).trans (if_neg hj), hslots⟩, ?_⟩
    rw [hfan, if_pos rfl]
    exact Fan.calibrating_fields _
  case stays =>
    obtain ⟨t, hexec, hresponse, hfan, hslots⟩ := orderRetryFan_stays ht hs he fun h => absurd (h d hd) (not_le.2 hlt)
    refine ⟨t, hexec, ⟨hresponse, fun j hj => (hfan j).trans (if_neg hj), hslots⟩, ?_⟩
    rw [hfan, if_pos rfl]
    exact ⟨Fan.boosted_fields _, Fan.boosted_restarts hs⟩
  case ends =>
    obtain ⟨t, hexec, hresponse, hzone, hfan, hothers, hslots⟩ := orderRetryFan_ends ht hs he hd
    refine ⟨t, hexec, ?_, hzone, fun j hj h => ?_, fun j hj hz hb => ?_, hresponse, hslots⟩
    · rw [hfan, Fan.unboosting_of_none (r := (s.chip.fan f).boosted) rfl hp]
      exact Fan.calibrating_fields _
    · rw [hothers j hj]
      rcases h with h | h
      · exact if_neg h
      · rw [Fan.unboosting_of_ne h, ite_self]
    · rw [hothers j hj, if_pos hz]
      cases hpin : (s.chip.fan j).pinnedBand with
      | some b =>
        rw [Fan.unboosting_of_pin hb hpin]
        rfl
      | none =>
        rw [Fan.unboosting_of_none hb hpin]
        rfl
  case begins =>
    obtain ⟨t, hexec, hresponse, hzone, hfan, halert, hslots⟩ :=
      orderRetryFan_begins ht hs he (marginCondition_iff.2 ⟨d, hd, hle⟩)
    refine ⟨t, hexec, ?_, hzone, halert, hresponse, hslots⟩
    rw [hfan]
    exact Fan.boosted_fields _
  · exact takenOrder_answered (c := setFan f _ s.chip) ht hq (unpinFan_boost (c := s.chip.opened (.orderUnpin f)) hs hp)
  · exact takenOrder_refused hq ht (unpinFan_refuses (c := s.chip.opened (.orderUnpin f)) hs hp)
  · exact takenOrder_refused hq ht (retryFan_refuses (c := s.chip.opened (.orderRetryFan f)) hs)

end Sys2Proof.Machine

/-!
PROOF. The module link and the supplies (R66 to R71, R75 to R82): a supply as its operations leave it, reads that are asked for
and that end, and what arrivals, removals, responses and retries do.
-/

namespace Sys2Proof.Machine

variable {c t : Chip} {b : Fin 6} {p : Supply} {m : ModuleLink} {bay : Bay}

/-! ## One supply written -/

theorem supply_modSupply (b j : Fin 6) (g : Supply → Supply) (c : Chip) :
    (modSupply b g c).supply j = if j = b then g (c.supply b) else c.supply j := supply_setSupply ..

/-- A part in which one supply has a record, the other supplies and all but the power unit's records, alerts and messages as
before. -/
structure Chip.SupplyWritten (c : Chip) (b : Fin 6) (p : Supply) (t : Chip) : Prop where
  supply : t.supply b = p
  others : ∀ j, j ≠ b → t.supply j = c.supply j
  frame : c.SameButPower t

namespace Chip.SupplyWritten

theorem refl (c : Chip) (b : Fin 6) : c.SupplyWritten b (c.supply b) c := ⟨rfl, fun _ _ => rfl, .refl c⟩

variable (h : c.SupplyWritten b p t)
include h

theorem modSupply (g : Supply → Supply) : c.SupplyWritten b (g p) (modSupply b g t) where
  supply := (supply_modSupply ..).trans ((if_pos rfl).trans (congrArg g h.supply))
  others j hj := (supply_modSupply ..).trans ((if_neg hj).trans (h.others j hj))
  frame := c.sameButPower_keeps.modSupply _ _ h.frame

theorem raise (o : AlertObject) (x : Cause) : c.SupplyWritten b p (raise o x t) :=
  ⟨h.supply, h.others, c.sameButPower_keeps.raise _ _ _ h.frame⟩

theorem of_sources {t' : Chip} (hs : t.SameSources t') (hf : c.SameButPower t') : c.SupplyWritten b p t' :=
  ⟨(hs.supply b).trans h.supply, fun j hj => (hs.supply j).trans (h.others j hj), hf⟩

theorem queueService : c.SupplyWritten b p (queueService t) :=
  h.of_sources (queueService_sources t) (c.sameButPower_keeps.queueService h.frame)

omit h in
theorem powerEvent {report : Bool} {g : Chip → Chip} (h : c.SupplyWritten b p (g t)) :
    c.SupplyWritten b p (powerEvent report g t) :=
  h.of_sources (powerEvent_sources ..) (c.sameButPower_keeps.powerEvent _ h.frame)

theorem setModules (m : ModuleLink) : (setModules m c).SupplyWritten b p (setModules m t) :=
  ⟨h.supply, h.others, h.frame.slots, h.frame.engines, rfl, h.frame.inventory, h.frame.fans, h.frame.hub, h.frame.port,
    h.frame.statusPages⟩

end Chip.SupplyWritten

/-! ## Supplies that start, fail and leave (R75 to R82) -/

/-- R76, R78: the record of a supply that enters STARTING. -/
def Supply.started (p : Supply) : Supply :=
  if p.powerGood then { p with state := .online, failReason := none, enable := true, startDelay := false }
  else { p with state := .starting, failReason := none, enable := true, startDelay := true }

theorem Supply.started_fields (p : Supply) : p.started.failReason = none ∧ p.started.enable = true ∧
    p.started.state = (if p.powerGood then .online else .starting) ∧ p.started.startDelay = (!p.powerGood) ∧
    p.started.capacity = p.capacity ∧ p.started.handle = p.handle := by
  unfold started
  cases p.powerGood <;> exact ⟨rfl, rfl, rfl, rfl, rfl, rfl⟩

/-- R79: the record of a supply that enters FAILED. -/
abbrev Supply.fails (p : Supply) (x : SupplyFail) : Supply :=
  { p with state := .failed, failReason := some x, enable := false, startDelay := false }

section

variable (h : c.SupplyWritten b p t)
include h

theorem Chip.SupplyWritten.startSupply : c.SupplyWritten b p.started (startSupply b t) :=
  .powerEvent (h.modSupply Supply.started)

theorem Chip.SupplyWritten.failSupply (x : SupplyFail) : c.SupplyWritten b (p.fails x) (failSupply b x t) :=
  .powerEvent ((h.modSupply (·.fails x)).raise ..)

end

theorem alerted_powerEvent {o : AlertObject} {x : Cause} {report : Bool} {g : Chip → Chip} (h : (g c).alerted o x) :
    (powerEvent report g c).alerted o x :=
  PowerKeeps.powerEvent (P := fun t => t.alerted o x) (Chip.alerted_keeps o x).toPowerKeeps report h

theorem alerted_failSupply (b : Fin 6) (x : SupplyFail) (c : Chip) :
    (failSupply b x c).alerted (.supply b) .supplyFailed := by
  have hraise := alerted_raise (.supply b) .supplyFailed (modSupply b (Supply.fails · x) c)
  have hevent : failSupply b x c =
      powerEvent false (fun c => raise (.supply b) .supplyFailed (modSupply b (Supply.fails · x) c)) c := rfl
  rw [hevent]
  exact alerted_powerEvent (g := fun c => raise (.supply b) .supplyFailed (modSupply b (Supply.fails · x) c)) hraise

/-- R75: the record of a supply that arrives. -/
abbrev Supply.arrived (p : Supply) : Supply :=
  { p with state := .identifying, enable := false, capacity := 0, failReason := none, handle := none }

theorem Chip.SupplyWritten.arrival (h : c.SupplyWritten b p t) (hs : p.state = .absent) :
    c.SupplyWritten b p.arrived (supplyArrival b t) := by
  have ha := h.modSupply fun p => if p.state = .absent then p.arrived else p
  rwa [if_pos hs] at ha

theorem Chip.SupplyWritten.removal (h : c.SupplyWritten b p t) (hs : p.state ≠ .absent) :
    c.SupplyWritten b (.reset p.powerGood) (supplyRemoval b t) := by
  have hr := h.modSupply fun p => .reset p.powerGood
  unfold supplyRemoval
  rw [h.supply, if_neg hs]
  refine .powerEvent ?_
  dsimp only
  split
  · exact hr.raise ..
  · exact hr

/-- R82: the removal of an ONLINE supply. -/
theorem supplyRemoval_online (hs : (c.supply b).state = .online) : supplyRemoval b c = powerEvent false
    (fun t => raise (.supply b) .supplyRemoved (modSupply b (fun p => .reset p.powerGood) t)) c := by
  unfold supplyRemoval
  simp only [hs, if_true, reduceCtorEq, if_false]

theorem alerted_supplyRemoval (hs : (c.supply b).state = .online) :
    (supplyRemoval b c).alerted (.supply b) .supplyRemoved := by
  have hraise := alerted_raise (.supply b) .supplyRemoved (modSupply b (fun p => .reset p.powerGood) c)
  rw [supplyRemoval_online hs]
  exact alerted_powerEvent
    (g := fun t => raise (.supply b) .supplyRemoved (modSupply b (fun p => .reset p.powerGood) t)) hraise

/-! ## Reads that are asked for (R67) -/

/-- R67: an idle module link reads the bay asked for at once. -/
theorem ModuleLink.ask_idle (hf : (m.bay bay).field = true) (hq : m.queue = []) (hr : m.reading = none)
    (hw : m.quiet = false) : m.ask bay = { m with reading := some (bay, false) } := by
  obtain ⟨supplies, fans, queue, reading, quiet⟩ := m
  dsimp only at hq hr hw
  subst hq hr hw
  unfold ask
  rw [hf]
  rfl

/-- R67: with nothing queued there is nothing to start. -/
theorem ModuleLink.start_of_empty (hq : m.queue = []) : m.start = m := by
  unfold start
  rw [hq]
  cases m.reading <;> rfl

theorem ModuleLink.start_of_reading {x : Bay × Bool} (hr : m.reading = some x) : m.start = m := by
  unfold start
  rw [hr]

theorem ModuleLink.start_of_quiet (hw : m.quiet = true) : m.start = m := by
  unfold start
  split
  · exact if_pos hw
  · rfl

/-! ## RETRY_SUPPLY (R81) -/

theorem retrySupply_starts (hs : (c.supply b).state = .failed)
    (hr : (c.supply b).failReason = some .noOutput ∨ (c.supply b).failReason = some .lost) :
    retrySupply b c = (startSupply b c, .ok) := by
  unfold retrySupply
  rw [if_pos hs, if_neg]
  rcases hr with hr | hr <;> rw [hr] <;> decide

theorem retrySupply_reads (hs : (c.supply b).state = .failed) (hr : (c.supply b).failReason = some .unread)
    (hf : (c.modules.supplies.read b).field = true) (hq : c.modules.queue = []) (hi : c.modules.reading = none)
    (hw : c.modules.quiet = false) : retrySupply b c = (setModules { c.modules with reading := some (.supply b, false) }
      (setSupply b { c.supply b with state := .identifying, failReason := none } c), .ok) := by
  have hask := ModuleLink.ask_idle (m := c.modules) (bay := .supply b) hf hq hi hw
  unfold retrySupply
  rw [if_pos hs, if_pos hr, ← hask]
  rfl

theorem retrySupply_refuses (hs : (c.supply b).state ≠ .failed) : retrySupply b c = (c, .state) := if_neg hs

theorem supply_ordered (i : Instr) (x : Status) (c : Chip) (b : Fin 6) : (c.ordered i x).supply b = c.supply b :=
  (queueService_sources _).supply b

theorem modules_ordered (i : Instr) (x : Status) (c : Chip) : (c.ordered i x).modules = c.modules :=
  ((Chip.sameButPower_keeps _).queueService (.refl (writeAnswer i (c, { status := x, result := [] })))).modules

/-- Settles O49, reason by reason. -/
theorem retrySupplyByReason : Obligations.RetrySupplyByReason := by
  intro s b hq ht
  refine ⟨fun hs hr => ?starts, fun hs hr hf hqueue hi hw => ?_, fun hs => ?_⟩
  case starts =>
    have h := (Chip.SupplyWritten.refl (s.chip.opened (.orderRetrySupply b)) b).startSupply
    obtain ⟨hreason, henable, hstate, -, hcapacity, hhandle⟩ := ((s.chip.opened (.orderRetrySupply b)).supply b).started_fields
    refine ⟨_, takenOrder_of_takes ht (retrySupply_starts (c := s.chip.opened _) hs hr), response_ordered .., ?_⟩
    dsimp only [State.onChip]
    rw [supply_ordered, modules_ordered, h.supply]
    exact ⟨hreason, henable, hstate, hcapacity, hhandle, h.frame.modules⟩
  · exact takenOrder_answered (c := setModules { s.chip.modules with reading := some (.supply b, false) } (setSupply b
      { s.chip.supply b with state := .identifying, failReason := none } s.chip)) ht hq
      (retrySupply_reads (c := s.chip.opened (.orderRetrySupply b)) hs hr hf hqueue hi hw)
  · exact takenOrder_refused hq ht (retrySupply_refuses (c := s.chip.opened (.orderRetrySupply b)) hs)

end Sys2Proof.Machine

/-!
PROOF. Arrivals and removals at the bays (R66, R71, R75, R82, R125, R136), and the reads of the module link that time out (R68,
R69).
-/

namespace Sys2Proof.Machine

variable {c t : Chip} {b : Fin 6} {f : Fin 8} {m : ModuleLink} {bay : Bay}

/-! ## The presence inputs (R66) -/

@[simp] theorem ModuleLink.bay_putBay (m : ModuleLink) (bay : Bay) (d : Debounced) : (m.putBay bay d).bay bay = d := by
  cases bay
  · exact Bank.read_put_self ..
  · exact Bank.read_put_self ..

/-- What the writes of a presence input leave alone. -/
theorem ModuleLink.putBay_link (m : ModuleLink) (bay : Bay) (d : Debounced) :
    (m.putBay bay d).queue = m.queue ∧ (m.putBay bay d).reading = m.reading ∧ (m.putBay bay d).quiet = m.quiet := by
  cases bay <;> exact ⟨rfl, rfl, rfl⟩

/-- R66: the module link as a debounce timer of a bay expires. -/
abbrev ModuleLink.debounced (m : ModuleLink) (bay : Bay) : ModuleLink := m.putBay bay (m.bay bay).expire

theorem moduleDebounced_arrives (ht : (c.modules.bay bay).timer = true) (hp : (c.modules.bay bay).pin = true)
    (hf : (c.modules.bay bay).field = false) :
    moduleDebounced bay c = moduleArrival bay (setModules (c.modules.debounced bay) c) := by
  unfold moduleDebounced
  dsimp only
  rw [if_pos ht, hp, hf, if_neg (by decide), if_pos rfl]
  rfl

theorem moduleDebounced_leaves (ht : (c.modules.bay bay).timer = true) (hp : (c.modules.bay bay).pin = false)
    (hf : (c.modules.bay bay).field = true) :
    moduleDebounced bay c = moduleRemoval bay (setModules (c.modules.debounced bay) c) := by
  unfold moduleDebounced
  dsimp only
  rw [if_pos ht, hp, hf, if_neg (by decide), if_neg (by decide)]
  rfl

/-- R67: a bay that arrives at an idle module link is read at once. -/
theorem ModuleLink.ask_debounced (hp : (m.bay bay).pin = true) (hq : m.queue = []) (hr : m.reading = none)
    (hw : m.quiet = false) : (m.debounced bay).ask bay = { m.debounced bay with reading := some (bay, false) } := by
  obtain ⟨hqueue, hreading, hquiet⟩ := m.putBay_link bay (m.bay bay).expire
  refine ask_idle ?_ (hqueue.trans hq) (hreading.trans hr) (hquiet.trans hw)
  rw [bay_putBay]
  exact hp

/-- R71: what is left of the reads of a bay that was emptied. -/
theorem ModuleLink.drop_forgets (bay : Bay) (m : ModuleLink) :
    bay ∉ (m.drop bay).queue ∧ (m.drop bay).reading.map Prod.fst ≠ some bay ∧ (m.drop bay).bay = m.bay := by
  have hqueue : bay ∉ m.queue.filter fun x => decide (x ≠ bay) := by simp
  unfold drop
  dsimp only
  split
  · exact ⟨hqueue, nofun, rfl⟩
  · next h => exact ⟨hqueue, h, rfl⟩

theorem exec_modulePresenceDebounceExpiry (bay : Bay) (s : State) : exec (.modulePresenceDebounceExpiry bay) s =
    .next (s.onChip (queueService (moduleDebounced bay s.chip))) := rfl

/-! ## Supplies at their bays (R75, R82) -/

/-- R75: the part as a supply arrives. -/
theorem supply_arrives (hp : (c.modules.bay (.supply b)).pin = true) (hs : (c.supply b).state = .absent)
    (hq : c.modules.queue = []) (hr : c.modules.reading = none) (hw : c.modules.quiet = false) :
    (setModules { c.modules.debounced (.supply b) with reading := some (.supply b, false) } c).SupplyWritten b
      (c.supply b).arrived (moduleArrival (.supply b) (setModules (c.modules.debounced (.supply b)) c)) := by
  have h := ((Chip.SupplyWritten.refl (setModules (c.modules.debounced (.supply b)) c) b).arrival hs).setModules
    { c.modules.debounced (.supply b) with reading := some (.supply b, false) }
  rw [← ModuleLink.ask_debounced hp hq hr hw] at h ⊢
  exact h

/-- R82: the part as a supply leaves, before its unit departs. -/
theorem supply_leaves (m : ModuleLink) (hs : (c.supply b).state ≠ .absent) :
    (setModules (m.drop (.supply b)) c).SupplyWritten b (.reset (c.supply b).powerGood)
      (setModules (m.drop (.supply b)) (supplyRemoval b (setModules m c))) :=
  ((Chip.SupplyWritten.refl (setModules m c) b).removal hs).setModules _

/-! ## The end of a removal (R62) -/

/-- A part after the unit at a location has departed and the event has ended. -/
structure Chip.Departed (c : Chip) (l : Location) (t : Chip) : Prop where
  slots : t.slots = c.slots
  engines : t.engines = c.engines
  modules : t.modules = c.modules
  fans : t.fans = c.fans
  hub : t.hub = c.hub
  sources : c.SameSources t
  departs : c.departs l t
  alerted : ∀ o x, c.alerted o x → t.alerted o x

theorem Chip.departed_vacate (l : Location) (c : Chip) : c.Departed l (queueService (vacate l c)) := by
  have hk (P : Chip → Prop) (hi : ∀ i c, P c → P { c with inventory := i }) (hr : ∀ o x c, P c → P (raise o x c)) (hc : P c) :
      P (vacate l c) := InvKeeps.vacate ⟨hi, hr⟩ l hc
  have hq := (Chip.sameButPower_keeps (vacate l c)).queueService (.refl (vacate l c))
  have hpower := power_vacate l c
  have hs := queueService_sources (vacate l c)
  exact
    { slots := hq.slots.trans (hk (·.slots = c.slots) (fun _ _ h => h) (fun _ _ _ h => h) rfl)
      engines := hq.engines.trans (engines_vacate l c)
      modules := hq.modules.trans (hk (·.modules = c.modules) (fun _ _ h => h) (fun _ _ _ h => h) rfl)
      fans := hq.fans.trans (hk (·.fans = c.fans) (fun _ _ h => h) (fun _ _ _ h => h) rfl)
      hub := hq.hub.trans (hub_vacate l c)
      sources := ⟨hs.1.trans (congrArg _ hpower), hs.2.trans (congrArg _ hpower)⟩
      departs := (departs_vacate l c).of_inventory rfl hq.inventory
      alerted := fun o x h => Chip.alerted.queueService ((Chip.alerted_keeps o x).toInvKeeps.vacate l h) }

/-! ## Fans at their bays (R125, R136) -/

/-- R125: the record of a fan that arrives. -/
abbrev Fan.arrived : Fan := { Fan.reset with state := .identifying }

/-- R125: the part as a fan arrives, before the evaluation of its zone. -/
theorem fanArrival_eq (hs : (c.fan f).state = .absent) :
    fanArrival f c = evaluateZone (fanZone f) (modFan f (fun _ => Fan.arrived) c) := if_pos hs

theorem fan_fanArrival (hs : (c.fan f).state = .absent) : (fanArrival f c).fan f = Fan.arrived := by
  rw [fanArrival_eq hs]
  have h := ((Chip.FanWritten.refl c f).modFan fun _ => Fan.arrived).fan
  exact (Chip.fanStands.evaluateZone ⟨h, rfl⟩ rfl _).fan

/-- R136: the part as a fan leaves, before the evaluation of its zone. -/
abbrev Chip.fanLeft (c : Chip) (f : Fin 8) : Chip :=
  modFan f (fun _ => Fan.reset) (reserve f 0 (modFan f (fun r => { r with
    band := 0, window := .none, releaseTimer := false }) c))

theorem fanRemoval_eq (hs : (c.fan f).state ≠ .absent) : fanRemoval f c = evaluateZone (fanZone f) (c.fanLeft f) := if_neg hs

theorem fanLeft_written (f : Fin 8) (c : Chip) :
    c.FanWritten f Fan.reset { band := 0, ratedDraw := some (c.fan f).ratedDraw } (c.fanLeft f) :=
  ((((Chip.FanWritten.refl c f).modFan fun r => { r with band := 0, window := .none, releaseTimer := false }).reserve
    0).modFan fun _ => Fan.reset)

theorem fanStands_fanRemoval (hs : (c.fan f).state ≠ .absent) :
    (fanRemoval f c).fanStands f Fan.reset { band := 0, ratedDraw := some (c.fan f).ratedDraw } := by
  have h := fanLeft_written f c
  rw [fanRemoval_eq hs]
  exact Chip.fanStands.evaluateZone ⟨h.fan, h.reservation⟩ rfl _

theorem moduleArrival_fan (f : Fin 8) (m : ModuleLink) (c : Chip) : moduleArrival (.fan f) (setModules m c) =
    setModules (m.ask (.fan f)) (fanArrival f (setModules m c)) := by
  have h := (setModules m c).sameFrame_keeps.fanArrival f (.refl _)
  show setModules ((fanArrival f (setModules m c)).modules.ask (.fan f)) _ = _
  rw [h.modules]
  rfl

theorem moduleRemoval_fan (f : Fin 8) (m : ModuleLink) (c : Chip) : moduleRemoval (.fan f) (setModules m c) =
    vacate (.fan f) (setModules (m.drop (.fan f)) (fanRemoval f (setModules m c))) := by
  have h := (setModules m c).sameFrame_keeps.fanRemoval f (.refl _)
  show vacate _ (setModules ((fanRemoval f (setModules m c)).modules.drop (.fan f)) _) = _
  rw [h.modules]
  rfl

theorem moduleRemoval_supply (b : Fin 6) (m : ModuleLink) (c : Chip) : moduleRemoval (.supply b) (setModules m c) =
    vacate (.supply b) (setModules (m.drop (.supply b)) (supplyRemoval b (setModules m c))) := by
  have h := (setModules m c).sameButPower_keeps.supplyRemoval b (.refl _)
  show vacate _ (setModules ((supplyRemoval b (setModules m c)).modules.drop (.supply b)) _) = _
  rw [h.modules]
  rfl

/-- Settles O24, bay by bay. -/
theorem supplyArrivalAndRemoval : Obligations.SupplyArrivalAndRemoval := by
  refine ⟨fun s b ht => ⟨fun hp hf hs hq hr hw => ?supplyArrives, fun hp hf hs => ?supplyLeaves⟩,
    fun s f ht => ⟨fun hp hf hs hq hr hw => ?fanArrives, fun hp hf hs => ?fanLeaves⟩⟩
  case supplyArrives =>
    have h := (supply_arrives hp hs hq hr hw).queueService
    rw [exec_modulePresenceDebounceExpiry, moduleDebounced_arrives (bay := .supply b) ht hp hf]
    refine ⟨_, rfl, ?_⟩
    dsimp only [State.onChip]
    rw [h.supply, h.frame.modules]
    refine ⟨?_, rfl, rfl, rfl, rfl, rfl, rfl, h.frame.slots, h.frame.engines, h.frame.inventory, h.frame.fans, h.frame.hub⟩
    exact (congrArg Debounced.field (s.chip.modules.bay_putBay (.supply b) _)).trans hp
  case supplyLeaves =>
    have h := supply_leaves (s.chip.modules.debounced (.supply b)) hs
    obtain ⟨hqueue, hreading, hbay⟩ := (s.chip.modules.debounced (.supply b)).drop_forgets (.supply b)
    have hd := Chip.departed_vacate (.supply b) (setModules ((s.chip.modules.debounced (.supply b)).drop (.supply b))
      (supplyRemoval b (setModules (s.chip.modules.debounced (.supply b)) s.chip)))
    rw [exec_modulePresenceDebounceExpiry, moduleDebounced_leaves (bay := .supply b) ht hp hf, moduleRemoval_supply]
    refine ⟨_, rfl, ?_⟩
    dsimp only [State.onChip]
    rw [hd.sources.supply, h.supply, hd.modules]
    refine ⟨?_, hqueue, hreading, rfl, rfl, rfl, rfl, rfl, rfl, fun ho => hd.alerted _ _ ?_,
      hd.departs.of_inventory h.frame.inventory.symm rfl, hd.slots.trans h.frame.slots, hd.engines.trans h.frame.engines,
      hd.fans.trans h.frame.fans, hd.hub.trans h.frame.hub⟩
    · show (((s.chip.modules.debounced (.supply b)).drop (.supply b)).bay (.supply b)).field = false
      rw [hbay, ModuleLink.bay_putBay]
      exact hp
    · exact alerted_supplyRemoval (c := setModules (s.chip.modules.debounced (.supply b)) s.chip) ho
  case fanArrives =>
    have hframe := (setModules (s.chip.modules.debounced (.fan f)) s.chip).sameFrame_keeps.fanArrival f (.refl _)
    have hfan := fan_fanArrival (c := setModules (s.chip.modules.debounced (.fan f)) s.chip) hs
    rw [exec_modulePresenceDebounceExpiry, moduleDebounced_arrives (bay := .fan f) ht hp hf, moduleArrival_fan,
      ModuleLink.ask_debounced (bay := .fan f) hp hq hr hw]
    have hservice := (Chip.sameButPower_keeps _).queueService (.refl (setModules
      { s.chip.modules.debounced (.fan f) with reading := some (.fan f, false) }
      (fanArrival f (setModules (s.chip.modules.debounced (.fan f)) s.chip))))
    refine ⟨_, rfl, ?_⟩
    dsimp only [State.onChip]
    rw [fan_congr hservice.fans, hservice.modules]
    refine ⟨(congrArg Debounced.field (s.chip.modules.bay_putBay (.fan f) _)).trans hp, rfl, ?_⟩
    show ((fanArrival f _).fan f).state = _ ∧ ((fanArrival f _).fan f).handle = _ ∧ ((fanArrival f _).fan f).band = _ ∧
      ((fanArrival f _).fan f).reservedBand = _ ∧ ((fanArrival f _).fan f).window = _ ∧ _
    rw [hfan]
    exact ⟨rfl, rfl, rfl, rfl, rfl, hservice.slots.trans hframe.slots, hservice.engines.trans hframe.engines,
      hservice.inventory.trans hframe.inventory, hservice.hub.trans hframe.hub⟩
  case fanLeaves =>
    have hframe := (setModules (s.chip.modules.debounced (.fan f)) s.chip).sameFrame_keeps.fanRemoval f (.refl _)
    have hfan := fanStands_fanRemoval (c := setModules (s.chip.modules.debounced (.fan f)) s.chip) hs
    obtain ⟨hqueue, hreading, hbay⟩ := (s.chip.modules.debounced (.fan f)).drop_forgets (.fan f)
    have hd := Chip.departed_vacate (.fan f) (setModules ((s.chip.modules.debounced (.fan f)).drop (.fan f))
      (fanRemoval f (setModules (s.chip.modules.debounced (.fan f)) s.chip)))
    rw [exec_modulePresenceDebounceExpiry, moduleDebounced_leaves (bay := .fan f) ht hp hf, moduleRemoval_fan]
    refine ⟨_, rfl, ?_⟩
    dsimp only [State.onChip]
    rw [hd.modules, fan_congr hd.fans, hd.sources.reservation]
    refine ⟨?_, hqueue, hreading, ?_, congrArg Reservation.band hfan.reservation,
      hd.departs.of_inventory hframe.inventory.symm rfl, hd.slots.trans hframe.slots, hd.engines.trans hframe.engines,
      hd.hub.trans hframe.hub⟩
    · show (((s.chip.modules.debounced (.fan f)).drop (.fan f)).bay (.fan f)).field = false
      rw [hbay, ModuleLink.bay_putBay]
      exact hp
    · have hreset : (setModules ((s.chip.modules.debounced (.fan f)).drop (.fan f))
          (fanRemoval f (setModules (s.chip.modules.debounced (.fan f)) s.chip))).fan f = Fan.reset := hfan.fan
      rw [hreset]
      exact ⟨rfl, rfl, rfl, rfl, rfl, rfl, rfl, rfl, rfl, rfl, rfl, rfl, rfl, rfl, rfl, rfl, rfl⟩

end Sys2Proof.Machine

/-!
PROOF. Responses to the reads of the module link, and reads that time out (R59 to R61, R68 to R70, R76, R77, R125).
-/

namespace Sys2Proof.Machine

variable {c c' t : Chip} {b : Fin 6} {f : Fin 8} {r : Fan} {v : Reservation} {m : ModuleLink} {bay : Bay} {second : Bool}

/-! ## Fans that are identified (R125) -/

theorem reservation_modFan (f j : Fin 8) (g : Fan → Fan) (c : Chip) : (modFan f g c).reservation j = c.reservation j := rfl

theorem reservation_enterBoost (f j : Fin 8) (c : Chip) :
    (enterBoost f c).reservation j = (reserve f 63 c).reservation j := by
  unfold enterBoost
  extract_lets restarted
  exact reservation_modFan ..

theorem reservation_enterCalibrating (f j : Fin 8) (c : Chip) :
    (enterCalibrating f c).reservation j = (reserve f 63 c).reservation j := by
  unfold enterCalibrating startSearch
  exact (reservation_modFan ..).trans (reservation_modFan ..)

section

variable (h : c.FanWritten f r v t)
include h

theorem Chip.FanWritten.setModules (m : ModuleLink) : (setModules m c).FanWritten f r v (setModules m t) :=
  ⟨h.fan, h.reservation, h.others, h.zones, h.frame.slots, h.frame.engines, h.frame.hub, h.frame.inventory, rfl,
    h.frame.settings, h.frame.response⟩

theorem Chip.FanWritten.zone (z : Fin 4) : t.zone z = c.zone z := by
  unfold Chip.zone
  rw [h.zones]

theorem Chip.FanWritten.enterBoost :
    c.FanWritten f r.boosted { band := 63, ratedDraw := some r.ratedDraw } (enterBoost f t) where
  fan := (fan_enterBoost ..).trans ((if_pos rfl).trans (congrArg Fan.boosted h.fan))
  reservation := (reservation_enterBoost ..).trans (h.reserve 63).reservation
  others j hj := ⟨(fan_enterBoost ..).trans ((if_neg hj).trans (h.others j hj).1),
    (reservation_enterBoost ..).trans ((h.reserve 63).others j hj).2⟩
  zones := by
    rw [enterBoost_fans]
    exact h.zones
  frame := c.sameFrame_keeps.enterBoost _ h.frame

theorem Chip.FanWritten.enterCalibrating :
    c.FanWritten f r.calibrating { band := 63, ratedDraw := some r.ratedDraw } (enterCalibrating f t) where
  fan := (fan_enterCalibrating ..).trans ((if_pos rfl).trans (congrArg Fan.calibrating h.fan))
  reservation := (reservation_enterCalibrating ..).trans (h.reserve 63).reservation
  others j hj := ⟨(fan_enterCalibrating ..).trans ((if_neg hj).trans (h.others j hj).1),
    (reservation_enterCalibrating ..).trans ((h.reserve 63).others j hj).2⟩
  zones := by
    rw [enterCalibrating_fans]
    exact h.zones
  frame := c.sameFrame_keeps.enterCalibrating _ h.frame

/-- R126, R135: the record of a fan that is told to search, in a zone that has an emergency or none. -/
abbrev Fan.sought (r : Fan) (emergency : Bool) : Fan := if emergency then r.boosted else r.calibrating

theorem Chip.FanWritten.calibrateOrBoost : c.FanWritten f (r.sought (c.zone (fanZone f)).emergency)
    { band := 63, ratedDraw := some r.ratedDraw } (calibrateOrBoost f t) := by
  unfold Machine.calibrateOrBoost Fan.sought
  rw [h.zone]
  split
  · exact h.enterBoost
  · exact h.enterCalibrating

/-- R125: the record of a fan with its figures. -/
abbrev Fan.identified (handle : Option InvRef) (assumed : Bool) (rated speed pulses target : Nat) (r : Fan) : Fan :=
  { r with handle := handle, assumed := assumed, ratedDraw := rated, maxSpeed := speed, pulses := pulses,
           target := min target speed }

theorem Chip.FanWritten.identifyFan (handle : Option InvRef) (assumed : Bool) (rated speed pulses : Nat) :
    c.FanWritten f ((r.identified handle assumed rated speed pulses (c.zone (fanZone f)).target).sought
        (c.zone (fanZone f)).emergency)
      { band := 63, ratedDraw := some rated } (identifyFan f handle assumed rated speed pulses t) := by
  have h1 := h.modFan fun r => { r with
    handle := handle, assumed := assumed, ratedDraw := rated, maxSpeed := speed, pulses := pulses }
  have htarget : (Machine.modFan f (fun r => { r with
      handle := handle, assumed := assumed, ratedDraw := rated, maxSpeed := speed, pulses := pulses }) t).fanTarget f =
        min (c.zone (fanZone f)).target speed := by
    unfold Chip.fanTarget
    rw [h1.zone, h1.fan]
  have h2 := (h1.modFan fun r => { r with target := min (c.zone (fanZone f)).target speed }).calibrateOrBoost
  rw [← htarget] at h2
  unfold Machine.identifyFan Fan.identified
  rw [← htarget]
  exact h2

end

theorem Fan.sought_fields (r : Fan) (emergency : Bool) : (r.sought emergency).handle = r.handle ∧
    (r.sought emergency).assumed = r.assumed ∧ (r.sought emergency).ratedDraw = r.ratedDraw ∧
    (r.sought emergency).maxSpeed = r.maxSpeed ∧ (r.sought emergency).pulses = r.pulses ∧
    (r.sought emergency).target = r.target ∧ (r.sought emergency).reservedBand = 63 := by
  cases emergency <;> exact ⟨rfl, rfl, rfl, rfl, rfl, rfl, rfl⟩

/-! ## Reads that time out (R68, R69) -/

theorem exec_moduleResponseTimeout (s : State) (hr : s.chip.modules.reading = some (bay, second)) :
    exec .moduleResponseTimeout s =
      .next (s.onChip (queueService (modModules ModuleLink.start (readExpired bay second s.chip)))) := by
  have ht : moduleTimedOut s.chip = modModules ModuleLink.start (readExpired bay second s.chip) := by
    unfold moduleTimedOut
    rw [hr]
  exact congrArg (fun c => (Host.Outcome.next (s.onChip (queueService c)) : Result)) ht

theorem modModules_of_modules {g : ModuleLink → ModuleLink} (hm : t.modules = m) :
    modModules g t = setModules (g m) t := by rw [modModules, hm]

theorem ModuleLink.start_endRead (m : ModuleLink) : (m.endRead true).start = m.endRead true :=
  start_of_quiet (Bool.or_true _)

/-- R77: a failed read of a supply in IDENTIFYING. -/
theorem failRead_supply (hs : (c.supply b).state = .identifying) :
    (setModules (c.modules.endRead true) c).SupplyWritten b ((c.supply b).fails .unread)
        (modModules ModuleLink.start (failRead (.supply b) c)) ∧
      (failRead (.supply b) c).alerted (.supply b) .supplyFailed := by
  have hfail : failRead (.supply b) c = failSupply b .unread (setModules (c.modules.endRead true) c) := if_pos hs
  have h := (Chip.SupplyWritten.refl (setModules (c.modules.endRead true) c) b).failSupply .unread
  rw [hfail, modModules_of_modules (m := c.modules.endRead true) h.frame.modules, ModuleLink.start_endRead]
  exact ⟨h.setModules _, alerted_failSupply b .unread _⟩

/-- R125: a failed read of a fan in IDENTIFYING. -/
theorem failRead_fan (hs : (c.fan f).state = .identifying) :
    (setModules (c.modules.endRead true) c).FanWritten f (((c.fan f).identified none true c.settings.defaultFanDraw
        c.settings.defaultFanSpeed c.settings.defaultFanPulses (c.zone (fanZone f)).target).sought
          (c.zone (fanZone f)).emergency)
        { band := 63, ratedDraw := some c.settings.defaultFanDraw }
        (modModules ModuleLink.start (failRead (.fan f) c)) ∧
      (failRead (.fan f) c).alerted (.fan f) .fanAssumed := by
  have hfail : failRead (.fan f) c = identifyFan f none true c.settings.defaultFanDraw c.settings.defaultFanSpeed
      c.settings.defaultFanPulses (raise (.fan f) .fanAssumed (setModules (c.modules.endRead true) c)) := if_pos hs
  have h := ((Chip.FanWritten.refl (setModules (c.modules.endRead true) c) f).raise (.fan f) .fanAssumed).identifyFan none
    true c.settings.defaultFanDraw c.settings.defaultFanSpeed c.settings.defaultFanPulses
  rw [hfail, modModules_of_modules (m := c.modules.endRead true) h.frame.modules, ModuleLink.start_endRead]
  exact ⟨h.setModules _, (Chip.alerted_keeps (.fan f) .fanAssumed).toFanKeeps.identifyFan f _ _ _ _ _ (alerted_raise _ _ _)⟩

/-- Settles O26, timer by timer. -/
theorem moduleTimeoutsAndQuietEnd : Obligations.ModuleTimeoutsAndQuietEnd := by
  refine ⟨fun s bay b hq => ⟨fun hr => ?again, fun hr hs => ?supplyFails⟩, fun s f hr hs => ?fanAssumed,
    fun s bay rest hq hw hr => ⟨fun hqueue => ?idle, fun hqueue => ?next⟩,
    fun m second => ⟨fun b hr => ?_, fun f hr => ?_, fun hr => ?_⟩⟩
  case again =>
    rw [exec_moduleResponseTimeout s hr]
    have hstart : modModules ModuleLink.start (readExpired bay false s.chip) =
        setModules { s.chip.modules with reading := some (bay, true) } s.chip := by
      have h := ModuleLink.start_of_reading (m := { s.chip.modules with reading := some (bay, true) }) rfl
      exact congrArg (setModules · s.chip) h
    rw [hstart]
    exact congrArg (fun c => (Host.Outcome.next (s.onChip c) : Result)) (queueService_of_settled hq.1 hq.2)
  case supplyFails =>
    obtain ⟨h, halert⟩ := failRead_supply hs
    have hq' := h.queueService
    rw [exec_moduleResponseTimeout s hr]
    refine ⟨_, rfl, ?_⟩
    dsimp only [State.onChip]
    rw [show readExpired (.supply b) true s.chip = failRead (.supply b) s.chip from rfl, hq'.supply, hq'.frame.modules]
    exact ⟨rfl, Bool.or_true _, rfl, rfl, rfl, rfl, Chip.alerted.queueService halert, hq'.frame.inventory, hq'.frame.slots⟩
  case fanAssumed =>
    obtain ⟨h, halert⟩ := failRead_fan hs
    have hq' := h.queueService
    rw [exec_moduleResponseTimeout s hr]
    refine ⟨_, rfl, ?_⟩
    dsimp only [State.onChip]
    rw [show readExpired (.fan f) true s.chip = failRead (.fan f) s.chip from rfl, hq'.fan, hq'.frame.modules]
    obtain ⟨hhandle, hassumed, hdraw, hspeed, hpulses, htarget, hband⟩ := Fan.sought_fields ((s.chip.fan f).identified none
      true s.chip.settings.defaultFanDraw s.chip.settings.defaultFanSpeed s.chip.settings.defaultFanPulses
      (s.chip.zone (fanZone f)).target) (s.chip.zone (fanZone f)).emergency
    refine ⟨rfl, Bool.or_true _, ⟨hhandle, hassumed, hdraw, hspeed, hpulses, htarget, hband, ?_⟩,
      Chip.alerted.queueService halert, fun j hj => (hq'.others j hj).1, hq'.frame.inventory, hq'.frame.slots,
      hq'.frame.engines⟩
    split
    · exact ⟨rfl, rfl⟩
    · exact ⟨rfl, rfl⟩
  case idle =>
    refine taken_settled (?_ : moduleQuietEnded s.chip = _) hq
    refine (if_pos hw).trans (congrArg (setModules · s.chip) ?_)
    exact ModuleLink.start_of_empty (m := { s.chip.modules with quiet := false }) hqueue
  case next =>
    refine taken_settled (?_ : moduleQuietEnded s.chip = _) hq
    refine (if_pos hw).trans (congrArg (setModules · s.chip) ?_)
    unfold ModuleLink.start
    dsimp only
    rw [hr, hqueue]
    rfl
  · rw [ModuleLink.sentRequest, hr]
    rfl
  · rw [ModuleLink.sentRequest, hr]
    rfl
  · rw [ModuleLink.sentRequest, hr]
    rfl

end Sys2Proof.Machine

/-!
PROOF. Responses with an identity (R59 to R61, R69, R70, R76, R125): what the inventory makes of the offer, and what the owner
of the bay takes.
-/

namespace Sys2Proof.Machine

variable {c c' t : Chip} {b : Fin 6} {f : Fin 8} {r : InvRecord} {m : List Byte} {bay : Bay} {second : Bool} {h : Fin 48}
  {l : Location} {id : Identity}

/-! ## Offers (R59, R60) -/

theorem bySerial_serial {kind : UnitKind} {chars : List Byte} (hh : c.bySerial kind chars = some h)
    (hr : (c.invHandle h).record = some r) : r.identity.serial = chars := by
  have hp := List.find?_some hh
  unfold InvHandle.holds at hp
  rw [hr] at hp
  exact (of_decide_eq_true hp).2

theorem vacate_of_unbound (hb : c.boundAt l = none) : vacate l c = c := by
  unfold vacate
  rw [hb]

theorem offer_bound (hh : c.bySerial (Location.kind l) id.serial = some h) (hr : (c.invHandle h).record = some r)
    (hp : r.present = true) (hl : r.location = l) : offer l id c = (c, .bound (c.invRef h)) := by
  unfold offer
  rw [hh]
  dsimp only
  rw [hr]
  dsimp only
  rw [if_pos hp, if_pos hl]

theorem offer_duplicate (hh : c.bySerial (Location.kind l) id.serial = some h) (hr : (c.invHandle h).record = some r)
    (hp : r.present = true) (hl : r.location ≠ l) : offer l id c = (c, .duplicate) := by
  unfold offer
  rw [hh]
  dsimp only
  rw [hr]
  dsimp only
  rw [if_pos hp, if_neg hl]

theorem offer_revives (hh : c.bySerial (Location.kind l) id.serial = some h) (hr : (c.invHandle h).record = some r)
    (hp : r.present = false) (hb : c.boundAt l = none) :
    offer l id c = (writeRecord h (r.revive l id) c, .revived (c.invRef h)) := by
  unfold offer
  rw [hh]
  dsimp only
  rw [hr]
  dsimp only
  rw [hp, if_neg Bool.false_ne_true, vacate_of_unbound hb]

theorem offer_creates (hh : c.bySerial (Location.kind l) id.serial = none) (hf : c.freeHandle = some h)
    (hb : c.boundAt l = none) : offer l id c = (writeRecord h (.create l id) c, .created (c.invRef h)) := by
  unfold offer
  rw [hh]
  dsimp only
  rw [hf, vacate_of_unbound hb]
  unfold createRecord
  rw [hf]
  rfl

theorem offer_full (hh : c.bySerial (Location.kind l) id.serial = none) (hf : c.freeHandle = none) :
    offer l id c = (raise .chassis .inventoryFull c, .full) := by
  unfold offer
  rw [hh]
  dsimp only
  rw [hf]
  rfl

/-- R60: the record a revival leaves, which keeps the serial it was found by. -/
theorem revive_identity (hs : r.identity.serial = id.serial) (l : Location) :
    r.revive l id = { r with location := l, present := true, identity := id, arrivals := min 65535 (r.arrivals + 1) } := by
  unfold InvRecord.revive
  rw [hs]

/-- Two parts that differ in the inventory and in the causes raised at most. -/
structure Chip.SameButInventory (c t : Chip) : Prop where
  slots : t.slots = c.slots
  engines : t.engines = c.engines
  modules : t.modules = c.modules
  fans : t.fans = c.fans
  hub : t.hub = c.hub
  power : t.power = c.power

theorem Chip.SameButInventory.refl (c : Chip) : c.SameButInventory c := ⟨rfl, rfl, rfl, rfl, rfl, rfl⟩

theorem Chip.sameButInventory_keeps (c : Chip) : InvKeeps c.SameButInventory where
  inventory _ _ h := ⟨h.slots, h.engines, h.modules, h.fans, h.hub, h.power⟩
  raise _ _ _ h := ⟨h.slots, h.engines, h.modules, h.fans, h.hub, h.power⟩

theorem Chip.SameButInventory.supply (h : c.SameButInventory t) (b : Fin 6) : t.supply b = c.supply b := by
  unfold Chip.supply
  rw [h.power]

theorem Chip.SameButInventory.fan (h : c.SameButInventory t) (f : Fin 8) : t.fan f = c.fan f := fan_congr h.fans f
theorem Chip.SameButInventory.zone (h : c.SameButInventory t) (z : Fin 4) : t.zone z = c.zone z := zone_congr h.fans z

/-! ## A response that is accepted (R69, R70) -/

/-- R70: the owner's part of an accepted response, the offer being made in `c`. -/
theorem exec_moduleResponse (s : State) (hr : s.chip.modules.reading = some (bay, second)) (hsum : byteSum m = 0)
    (hlen : m.length = Bay.responseLength bay) (ha : (readModule bay m).accepted bay (numberAt m 6 1) = true)
    {a : OfferAnswer} (ho : offer (Bay.location bay) (readModule bay m).identity
      (setModules (s.chip.modules.endRead false) s.chip) = (c, a)) :
    exec (.moduleResponse m) s = .next (s.onChip (queueService (modModules ModuleLink.start
      (ownerIdentity bay (readModule bay m).identity a.handle c)))) := by
  have hhand : handOn bay (readModule bay m).identity (setModules (s.chip.modules.endRead false) s.chip) =
      ownerIdentity bay (readModule bay m).identity a.handle c := by
    unfold handOn
    rw [ho]
  have htake : takeResponse bay m s.chip = ownerIdentity bay (readModule bay m).identity a.handle c :=
    (if_pos ⟨hlen, ha⟩).trans hhand
  have hanswer : moduleAnswered m s.chip = modModules ModuleLink.start (takeResponse bay m s.chip) := by
    unfold moduleAnswered
    rw [hr]
    dsimp only
    rw [if_pos (checkPasses_iff.2 hsum)]
  rw [← htake, ← hanswer]
  rfl

/-- R76: a supply that takes its identity. -/
theorem ownerIdentity_supply (hs : (c.supply b).state = .identifying) (ref : Option InvRef) :
    c.SupplyWritten b ({ c.supply b with capacity := id.capacity.getD 0, handle := ref } : Supply).started
      (ownerIdentity (.supply b) id ref c) := by
  have hid : ownerIdentity (.supply b) id ref c =
      startSupply b (modSupply b (fun p => { p with capacity := id.capacity.getD 0, handle := ref }) c) := if_pos hs
  rw [hid]
  exact ((Chip.SupplyWritten.refl c b).modSupply fun p => { p with
    capacity := id.capacity.getD 0, handle := ref }).startSupply

/-- R125: a fan that takes its identity. -/
theorem ownerIdentity_fan (hs : (c.fan f).state = .identifying) (ref : Option InvRef) :
    c.FanWritten f (((c.fan f).identified ref false (id.fanDraw.getD 0) (id.fanSpeed.getD 0) (id.fanPulses.getD 0)
        (c.zone (fanZone f)).target).sought (c.zone (fanZone f)).emergency)
      { band := 63, ratedDraw := some (id.fanDraw.getD 0) } (ownerIdentity (.fan f) id ref c) := by
  have hid : ownerIdentity (.fan f) id ref c =
      identifyFan f ref false (id.fanDraw.getD 0) (id.fanSpeed.getD 0) (id.fanPulses.getD 0) c := if_pos hs
  rw [hid]
  exact (Chip.FanWritten.refl c f).identifyFan ..

theorem ownerIdentity_keeps {P : Chip → Prop} (hk : FanKeeps P) (bay : Bay) (id : Identity) (ref : Option InvRef) (hc : P c) :
    P (ownerIdentity bay id ref c) := by
  cases bay
  · exact hk.toPowerKeeps.supplyIdentity _ _ _ hc
  · exact hk.fanIdentity _ _ _ _ _ hc

/-- R70: the frame of an accepted response. -/
theorem response_frame (bay : Bay) (id : Identity) (ref : Option InvRef) (c : Chip) :
    (setModules c.modules.start c).SameFrame
      (queueService (modModules ModuleLink.start (ownerIdentity bay id ref c))) := by
  have h := ownerIdentity_keeps c.sameFrame_keeps bay id ref (.refl c)
  rw [modModules_of_modules (m := c.modules) h.modules]
  exact (Chip.sameFrame_keeps _).toPowerKeeps.queueService
    ⟨h.slots, h.engines, h.hub, h.inventory, rfl, h.settings, h.response⟩

theorem response_supply (hs : (c.supply b).state = .identifying) (ref : Option InvRef) :
    (setModules c.modules.start c).SupplyWritten b
      ({ c.supply b with capacity := id.capacity.getD 0, handle := ref } : Supply).started
      (queueService (modModules ModuleLink.start (ownerIdentity (.supply b) id ref c))) := by
  have h := ownerIdentity_supply (id := id) hs ref
  rw [modModules_of_modules (m := c.modules) h.frame.modules]
  exact (h.setModules _).queueService

theorem response_fan (hs : (c.fan f).state = .identifying) (ref : Option InvRef) :
    (setModules c.modules.start c).FanWritten f (((c.fan f).identified ref false (id.fanDraw.getD 0) (id.fanSpeed.getD 0)
        (id.fanPulses.getD 0) (c.zone (fanZone f)).target).sought (c.zone (fanZone f)).emergency)
      { band := 63, ratedDraw := some (id.fanDraw.getD 0) }
      (queueService (modModules ModuleLink.start (ownerIdentity (.fan f) id ref c))) := by
  have h := ownerIdentity_fan (id := id) hs ref
  rw [modModules_of_modules (m := c.modules) h.frame.modules]
  exact (h.setModules _).queueService

theorem response_alerted {o : AlertObject} {x : Cause} (h : c.alerted o x) (bay : Bay) (id : Identity) (ref : Option InvRef) :
    (queueService (modModules ModuleLink.start (ownerIdentity bay id ref c))).alerted o x :=
  Chip.alerted.queueService (c := modModules ModuleLink.start (ownerIdentity bay id ref c))
    (ownerIdentity_keeps (P := fun c => c.alerted o x) (Chip.alerted_keeps o x).toFanKeeps bay id ref h)

/-- R70: the module link once the read in flight has ended with nothing queued. -/
theorem start_endRead_idle {k : ModuleLink} (hq : k.queue = []) : (k.endRead false).start = k.endRead false :=
  ModuleLink.start_of_empty hq

/-- R60: what a record written leaves in the inventory. -/
theorem writeRecord_leaves (h : Fin 48) (r : InvRecord) (c : Chip) :
    (writeRecord h r c).inventory.epoch = c.inventory.epoch + 1 ∧
      (writeRecord h r c).invHandle h = { c.invHandle h with
        record := some { r with changeEpoch := c.inventory.epoch + 1 } } ∧
      ∀ j, j ≠ h → (writeRecord h r c).invHandle j = c.invHandle j :=
  ⟨rfl, invHandle_setInvHandle_self .., fun _ hj => (invHandle_setInvHandle ..).trans (if_neg hj)⟩

theorem invHandle_of_inventory (h : c'.inventory = c.inventory) (j : Fin 48) : c'.invHandle j = c.invHandle j := by
  unfold Chip.invHandle
  rw [h]

theorem Supply.started_capacity (p : Supply) (capacity : Nat) (ref : Option InvRef) :
    ({ p with capacity := capacity, handle := ref } : Supply).started.handle = ref ∧
      ({ p with capacity := capacity, handle := ref } : Supply).started.enable = true ∧
      ({ p with capacity := capacity, handle := ref } : Supply).started.capacity = capacity := by
  obtain ⟨-, henable, -, -, hcapacity, hhandle⟩ := ({ p with capacity := capacity, handle := ref } : Supply).started_fields
  exact ⟨hhandle, henable, hcapacity⟩

/-- R70: what the owner of a bay holds after the response. -/
abbrev Owns (s : State) (bay : Bay) (m : List Byte) (ref : Option InvRef) (t : Chip) : Prop :=
  (∀ b, bay = .supply b → (s.chip.supply b).state = .identifying →
    (t.supply b).handle = ref ∧ (t.supply b).enable = true ∧ (t.supply b).capacity = numberAt m 31 2) ∧
  (∀ f, bay = .fan f → (s.chip.fan f).state = .identifying →
    (t.fan f).handle = ref ∧ (t.fan f).assumed = false ∧ (t.fan f).ratedDraw = numberAt m 31 2)

theorem owns_response {s : State} (h : s.chip.SameButInventory (setModules s.chip.modules c)) (bay : Bay) (m : List Byte)
    (ref : Option InvRef) : Owns s bay m ref
      (queueService (modModules ModuleLink.start (ownerIdentity bay (readModule bay m).identity ref c))) := by
  refine ⟨?_, ?_⟩
  · rintro b rfl hs
    have hs' : (c.supply b).state = .identifying := (congrArg Supply.state (h.supply b)).trans hs
    rw [(response_supply hs' ref).supply]
    exact Supply.started_capacity ..
  · rintro f rfl hs
    have hs' : (c.fan f).state = .identifying := (congrArg Fan.state (h.fan f)).trans hs
    rw [(response_fan hs' ref).fan]
    obtain ⟨hhandle, hassumed, hdraw, -⟩ := Fan.sought_fields ((c.fan f).identified ref false
      ((readModule (.fan f) m).identity.fanDraw.getD 0) ((readModule (.fan f) m).identity.fanSpeed.getD 0)
      ((readModule (.fan f) m).identity.fanPulses.getD 0) (c.zone (fanZone f)).target) (c.zone (fanZone f)).emergency
    exact ⟨hhandle, hassumed, hdraw⟩

/-- An accepted response, by what the inventory answers. -/
theorem moduleResponse_leaves {s : State} (hr : s.chip.modules.reading = some (bay, second)) (hsum : byteSum m = 0)
    (hlen : m.length = Bay.responseLength bay) (ha : (readModule bay m).accepted bay (numberAt m 6 1) = true)
    {a : OfferAnswer} (ho : offer (Bay.location bay) (readModule bay m).identity
      (setModules (s.chip.modules.endRead false) s.chip) = (c, a)) :
    ∃ t, exec (.moduleResponse m) s = .next t ∧ t.chip.inventory = c.inventory ∧ Owns s bay m a.handle t.chip ∧
      (∀ o x, c.alerted o x → t.chip.alerted o x) ∧ t.chip.slots = s.chip.slots ∧ t.chip.engines = s.chip.engines ∧
      t.chip.hub = s.chip.hub := by
  have hkeeps := InvKeeps.offer (Chip.sameButInventory_keeps _) (Bay.location bay) (readModule bay m).identity
    (.refl (setModules (s.chip.modules.endRead false) s.chip))
  rw [ho] at hkeeps
  have hframe := response_frame bay (readModule bay m).identity a.handle c
  refine ⟨_, exec_moduleResponse s hr hsum hlen ha ho, hframe.inventory, owns_response ?_ bay m a.handle,
    fun o x h => response_alerted (o := o) (x := x) h bay _ _, hframe.slots.trans hkeeps.slots, hframe.engines.trans hkeeps.engines,
    hframe.hub.trans hkeeps.hub⟩
  exact ⟨hkeeps.slots, hkeeps.engines, rfl, hkeeps.fans, hkeeps.hub, hkeeps.power⟩

/-- Settles O25, answer by answer. -/
theorem supplyIdentityStartsSupply : Obligations.SupplyIdentityStartsSupply := by
  refine ⟨fun s b second m h r hr hw hq hs hsum hlen ha hh hrec hp hl => ?supply,
    fun s f second m h r hr hw hq hs hsum hlen ha hh hrec hp hl => ?fan,
    fun s bay second m h hr hsum hlen ha hh hf hb => ?creates, fun s bay second m hr hsum hlen ha => ?others⟩
  case supply =>
    have ho := offer_bound (c := setModules (s.chip.modules.endRead false) s.chip) (l := .supply b)
      (id := (readModule (.supply b) m).identity) hh hrec hp hl
    have ht := response_supply (c := setModules (s.chip.modules.endRead false) s.chip)
      (id := (readModule (.supply b) m).identity) hs (some (s.chip.invRef h))
    refine ⟨_, exec_moduleResponse (bay := .supply b) s hr hsum hlen ha ho, ?_⟩
    obtain ⟨hreason, henable, hstate, hdelay, hcapacity, hhandle⟩ := ({ s.chip.supply b with
      capacity := (readModule (.supply b) m).identity.capacity.getD 0,
      handle := some (s.chip.invRef h) } : Supply).started_fields
    have hmodules := ht.frame.modules.trans (start_endRead_idle hq)
    dsimp only [State.onChip]
    refine ⟨?_, ?_, ?_, ?_, ?_, ?_, congrArg ModuleLink.reading hmodules, (congrArg ModuleLink.quiet hmodules).trans ?_,
      ht.frame.inventory, ht.frame.slots, ht.frame.engines, ht.frame.fans, ht.frame.hub⟩
    · exact (congrArg Supply.capacity ht.supply).trans hcapacity
    · exact (congrArg Supply.handle ht.supply).trans hhandle
    · exact (congrArg Supply.enable ht.supply).trans henable
    · exact (congrArg Supply.failReason ht.supply).trans hreason
    · exact (congrArg Supply.state ht.supply).trans hstate
    · exact (congrArg Supply.startDelay ht.supply).trans hdelay
    · exact (Bool.or_false _).trans hw
  case fan =>
    have ho := offer_bound (c := setModules (s.chip.modules.endRead false) s.chip) (l := .fan f)
      (id := (readModule (.fan f) m).identity) hh hrec hp hl
    have ht := response_fan (c := setModules (s.chip.modules.endRead false) s.chip)
      (id := (readModule (.fan f) m).identity) hs (some (s.chip.invRef h))
    refine ⟨_, exec_moduleResponse (bay := .fan f) s hr hsum hlen ha ho, ?_⟩
    obtain ⟨hhandle, hassumed, hdraw, hspeed, hpulses, htarget, hband⟩ := Fan.sought_fields ((s.chip.fan f).identified
      (some (s.chip.invRef h)) false (numberAt m 31 2) (numberAt m 33 2) (numberAt m 35 1)
      (s.chip.zone (fanZone f)).target) (s.chip.zone (fanZone f)).emergency
    have hmodules := ht.frame.modules.trans (start_endRead_idle hq)
    have hfan : _ = ((s.chip.fan f).identified (some (s.chip.invRef h)) false (numberAt m 31 2) (numberAt m 33 2)
      (numberAt m 35 1) (s.chip.zone (fanZone f)).target).sought (s.chip.zone (fanZone f)).emergency := ht.fan
    dsimp only [State.onChip]
    refine ⟨?_, ht.reservation, congrArg ModuleLink.reading hmodules, (congrArg ModuleLink.quiet hmodules).trans ?_,
      ht.frame.inventory, fun j hj => (ht.others j hj).1, ht.frame.slots, ht.frame.engines, ht.frame.hub⟩
    · rw [show OfferAnswer.handle _ = some (s.chip.invRef h) from rfl, hfan]
      refine ⟨hhandle, hassumed, hdraw, hspeed, hpulses, htarget, hband, ?_⟩
      split
      · exact ⟨rfl, rfl, rfl⟩
      · exact ⟨rfl, rfl, rfl, rfl, rfl⟩
    · exact (Bool.or_false _).trans hw
  case creates =>
    have ho := offer_creates (c := setModules (s.chip.modules.endRead false) s.chip) (l := Bay.location bay)
      (id := (readModule bay m).identity) hh hf hb
    obtain ⟨t, hexec, hinventory, ⟨hsupply, hfan⟩, -, hslots, hengines, hhub⟩ := moduleResponse_leaves hr hsum hlen ha ho
    obtain ⟨hepoch, hself, hother⟩ := writeRecord_leaves h (.create (Bay.location bay) (readModule bay m).identity)
      (setModules (s.chip.modules.endRead false) s.chip)
    refine ⟨t, hexec, ⟨?_, ?_, fun j hj => ?_, fun b hb hs => ?_, fun f hf hs => ?_⟩, hslots, hengines, hhub⟩
    · rw [hinventory]
      exact hepoch
    · rw [invHandle_of_inventory hinventory]
      exact hself
    · rw [invHandle_of_inventory hinventory]
      exact hother j hj
    · obtain ⟨hhandle, henable, -⟩ := hsupply b hb hs
      exact ⟨hhandle, henable⟩
    · obtain ⟨hhandle, hassumed, -⟩ := hfan f hf hs
      exact ⟨hhandle, hassumed⟩
  case others =>
    rcases ho : offer (Bay.location bay) (readModule bay m).identity
      (setModules (s.chip.modules.endRead false) s.chip) with ⟨c, a⟩
    obtain ⟨t, hexec, hinventory, howns, halert, hslots, hengines, hhub⟩ := moduleResponse_leaves hr hsum hlen ha ho
    have hoffer {c' : Chip} {a' : OfferAnswer} (h : offer (Bay.location bay) (readModule bay m).identity
        (setModules (s.chip.modules.endRead false) s.chip) = (c', a')) : c = c' ∧ a = a' :=
      Prod.mk.inj (ho.symm.trans h)
    refine ⟨t, hexec, ⟨fun h r hh hrec => ⟨fun hp hl => ?_, fun hp hb => ?_⟩, fun hh hf => ?_⟩, hslots, hengines, hhub⟩
    · obtain ⟨rfl, rfl⟩ := hoffer (offer_duplicate hh hrec hp hl)
      exact ⟨hinventory, howns⟩
    · obtain ⟨rfl, rfl⟩ := hoffer (offer_revives hh hrec hp hb)
      obtain ⟨hepoch, hself, hother⟩ := writeRecord_leaves h (r.revive (Bay.location bay) (readModule bay m).identity)
        (setModules (s.chip.modules.endRead false) s.chip)
      have hrevive := revive_identity (bySerial_serial hh hrec) (Bay.location bay)
      refine ⟨(congrArg Inventory.epoch hinventory).trans hepoch, ?_, fun j hj => ?_, howns⟩
      · rw [invHandle_of_inventory hinventory, hself, hrevive]
        rfl
      · rw [invHandle_of_inventory hinventory]
        exact hother j hj
    · obtain ⟨rfl, rfl⟩ := hoffer (offer_full hh hf)
      exact ⟨hinventory, halert _ _ (alerted_raise _ _ _), howns⟩

end Sys2Proof.Machine

/-!
PROOF. The power unit's records: the uplift of a slot brought into line (R95), a served queue of one entry (R97 to R100), and
the orders CAP and UNCAP (R101, R102, R104).
-/

namespace Sys2Proof.Machine

variable {c c' : Chip} {k : Fin 16} {g : GrantRecord} {e : QueueEntry}

/-! ## Grant records -/

@[simp] theorem setGrant_setGrant (k : Fin 16) (g g' : GrantRecord) (c : Chip) :
    setGrant k g' (setGrant k g c) = setGrant k g' c := by
  show { c with power := { c.power with grants := (c.power.grants.put k g).put k g' } } = _
  rw [Bank.put_put]
  rfl

theorem modGrant_setGrant (k : Fin 16) (f : GrantRecord → GrantRecord) (g : GrantRecord) (c : Chip) :
    modGrant k f (setGrant k g c) = setGrant k (f g) c := by
  rw [modGrant, setGrant_setGrant, grant_setGrant_self]

@[simp] theorem setGrant_grant (k : Fin 16) (c : Chip) : setGrant k (c.grant k) c = c := by
  have h : c.power.grants.put k (c.grant k) = c.power.grants := Bank.put_read ..
  show { c with power := { c.power with grants := c.power.grants.put k (c.grant k) } } = c
  rw [h]

/-! ## Levels (R92) -/

theorem levelFor_runDraw (k : Fin 16) (c : Chip) :
    levelFor (c.slot k).terms (c.runDraw k) = if c.runDraw k = 0 then .none else .full := by
  unfold levelFor Chip.runDraw
  cases (c.slot k).terms with
  | none => rfl
  | some t => exact ite_congr rfl (fun _ => rfl) fun _ => if_pos rfl

theorem levelFor_floorDraw (h : 0 < c.floorDraw k) :
    levelFor (c.slot k).terms (c.floorDraw k) = if c.floorDraw k = c.runDraw k then .full else .floor := by
  unfold Chip.floorDraw Chip.runDraw at *
  unfold levelFor
  cases ht : (c.slot k).terms with
  | none =>
    rw [ht] at h
    exact absurd h (lt_irrefl 0)
  | some t =>
    rw [ht] at h
    have h0 : ¬ t.floorDraw = 0 := fun h0 => absurd h (by simp [h0])
    have hiff : some t.runDraw = some t.floorDraw ↔ t.floorDraw = t.runDraw := by
      rw [Option.some.injEq]
      exact eq_comm
    exact (if_neg h0).trans (if_congr hiff rfl rfl)

/-! ## Uplift entries (R95) -/

theorem qualifiesUplift_iff : c.qualifiesUplift k = true ↔
    (c.slot k).state = .running ∧ (c.grant k).level = .floor ∧ (c.grant k).capSet = .onlyBudget := decide_eq_true_iff

theorem alignUplift_of_unqualified (hq : c.queueEntry k = none) (h : c.qualifiesUplift k = false) : alignUplift k c = c := by
  unfold alignUplift
  dsimp only
  rw [h, hq]
  rfl

theorem alignUplift_joins (hq : c.queueEntry k = none) (h : c.qualifiesUplift k = true) :
    alignUplift k c = joinQueue k .uplift (c.runDraw k - (c.grant k).grant) c := by
  unfold alignUplift
  dsimp only
  rw [h, hq]
  rfl

/-- A slot whose grant record was written, and that then does not qualify. -/
theorem alignUplift_setGrant (hq : c.queueEntry k = none)
    (h : ¬ ((c.slot k).state = .running ∧ g.level = .floor ∧ g.capSet = .onlyBudget)) :
    alignUplift k (setGrant k g c) = setGrant k g c := by
  refine alignUplift_of_unqualified hq (Bool.eq_false_iff.2 fun hx => h ?_)
  have := qualifiesUplift_iff.1 hx
  rwa [grant_setGrant_self] at this

/-! ## Reasons (R101, R104) -/

theorem addReason_of_has {r : CapReason} (h : (c.grant k).capSet.has r = true) : addReason r k c = c := if_pos h

/-- R104: the record after the last reason of a slot at FLOOR is taken away. -/
abbrev GrantRecord.keepsReason (g : GrantRecord) : GrantRecord :=
  if g.level = .floor ∧ g.capSet = .empty then { g with capSet := .onlyBudget } else g

theorem keepFloorReason_setGrant (k : Fin 16) (g : GrantRecord) (c : Chip) :
    keepFloorReason k (setGrant k g c) = setGrant k g.keepsReason c := modGrant_setGrant ..

theorem removeReason_of_has {r : CapReason} (h : (c.grant k).capSet.has r = true) : removeReason r k c =
    alignUplift k (setGrant k ({ c.grant k with capSet := (c.grant k).capSet.put r false } : GrantRecord).keepsReason c) := by
  unfold removeReason
  rw [if_pos h]
  show alignUplift k (keepFloorReason k (setGrant k _ c)) = _
  rw [keepFloorReason_setGrant]

/-! ## A queue of one entry (R97 to R100) -/

theorem serveUplift_eq (k : Fin 16) (c : Chip) : serveUplift k c = post (.uncapRequest k (c.runDraw k)) (setGrant k
    { c.grant k with grant := c.runDraw k, level := levelFor (c.slot k).terms (c.runDraw k),
                     capSet := (c.grant k).capSet.put .budget false, uncapRequest := true } c) := by
  unfold serveUplift writeGrant
  exact congrArg (post _) (modGrant_setGrant ..)

theorem serveHead_uplift (hk : e.kind = .uplift) (hn : (e.need : Int) ≤ c.available) :
    serveHead e c = some (serveUplift e.slot c) := by
  unfold serveHead
  rw [hk]
  exact if_pos hn

/-- R97: a queue of one entry that is served. -/
theorem queueService_serves (hdue : c.power.serviceDue = true) (hshed : c.power.shed = []) (hq : c.power.queue = [e])
    (hs : serveHead e c = some c') : queueService c = setServiceDue false (setQueue [] c') := by
  have hserved : (if c.power.serviceDue ∧ c.power.shed.isEmpty then serveQueue c.power.queue c else c) = setQueue [] c' := by
    rw [if_pos ⟨hdue, List.isEmpty_iff.2 hshed⟩, hq]
    simp only [serveQueue, hs]
  unfold queueService
  simp only [hserved]
  rfl

/-! ## CAP and UNCAP (R101, R102) -/

theorem capSlot_asks (hs : (c.slot k).state = .running) (hf : 0 < c.floorDraw k) (hg : c.floorDraw k < (c.grant k).grant)
    (hl : (c.grant k).level = .full) (hc : (c.grant k).capSet = .empty) (hr : (c.grant k).capRequest = none)
    (hq : c.queueEntry k = none) : capSlot k c =
      (post (.capRequest k (c.floorDraw k)) (setGrant k { c.grant k with
        capSet := { CapSet.empty with host := true }, capRequest := some { CapSet.empty with host := true } } c), .ok) := by
  unfold capSlot
  rw [if_pos ⟨hs, hf.ne', .inl (Nat.lt_of_le_of_lt (Nat.zero_le _) hg).ne'⟩]
  unfold addReason
  dsimp only
  rw [hc, if_neg (by decide), if_pos hg, hr]
  dsimp only
  refine congrArg (·, Status.ok) (alignUplift_of_unqualified hq (Bool.eq_false_iff.2 fun hx => ?_))
  have hlevel := (qualifiesUplift_iff.1 hx).2.1
  have hself : ((setGrant k { c.grant k with
    capSet := { CapSet.empty with host := true }, capRequest := some { CapSet.empty with host := true } } c).grant k).level =
      .floor := hlevel
  rw [grant_setGrant_self] at hself
  exact absurd (hl.symm.trans hself) (by decide)

theorem capSlot_held (hs : (c.slot k).state = .running) (hf : 0 < c.floorDraw k) (hh : (c.grant k).capSet.host = true) :
    capSlot k c = (c, .ok) := by
  unfold capSlot
  rw [if_pos ⟨hs, hf.ne', .inr hh⟩, addReason_of_has (r := .host) hh]

theorem capSlot_refuses (h : (c.slot k).state ≠ .running ∨ c.floorDraw k = 0 ∨
    ((c.grant k).grant = 0 ∧ (c.grant k).capSet.host = false)) : capSlot k c = (c, .state) := by
  refine if_neg fun ⟨hs, hf, hg⟩ => ?_
  rcases h with h | h | ⟨h0, hh⟩
  · exact h hs
  · exact hf h
  · rcases hg with hg | hg
    · exact hg h0
    · exact Bool.false_ne_true (hh.symm.trans hg)

/-- R104: HOST leaves a slot that keeps another reason, or that is not at FLOOR, and that then does not qualify for an uplift. -/
theorem uncapSlot_leaves (hq : c.queueEntry k = none) (hh : (c.grant k).capSet.host = true)
    (hkeep : ¬ ((c.grant k).level = .floor ∧ ({ (c.grant k).capSet with host := false } : CapSet) = .empty))
    (hno : ¬ ((c.slot k).state = .running ∧ (c.grant k).level = .floor ∧
      ({ (c.grant k).capSet with host := false } : CapSet) = .onlyBudget)) :
    uncapSlot k c = (setGrant k { c.grant k with capSet := { (c.grant k).capSet with host := false } } c, .ok) := by
  have hkeeps : ({ c.grant k with capSet := (c.grant k).capSet.put .host false } : GrantRecord).keepsReason =
      { c.grant k with capSet := { (c.grant k).capSet with host := false } } := if_neg hkeep
  unfold uncapSlot
  rw [if_pos hh, removeReason_of_has (r := .host) hh, hkeeps, alignUplift_setGrant hq hno]

/-- R104, R95: HOST was the only reason of a RUNNING slot at FLOOR, which joins the queue. -/
theorem uncapSlot_joins (hq : c.queueEntry k = none) (hc : (c.grant k).capSet = { CapSet.empty with host := true })
    (hl : (c.grant k).level = .floor) (hs : (c.slot k).state = .running) :
    uncapSlot k c = (joinQueue k .uplift (c.runDraw k - (c.grant k).grant)
      (setGrant k { c.grant k with capSet := .onlyBudget } c), .ok) := by
  have hh : (c.grant k).capSet.host = true := by rw [hc]
  have hkeeps : ({ c.grant k with capSet := (c.grant k).capSet.put .host false } : GrantRecord).keepsReason =
      { c.grant k with capSet := .onlyBudget } := if_pos ⟨hl, by rw [hc]; rfl⟩
  unfold uncapSlot
  rw [if_pos hh, removeReason_of_has (r := .host) hh, hkeeps, alignUplift_joins (c := setGrant k _ c) hq]
  · rw [grant_setGrant_self]
    rfl
  · refine qualifiesUplift_iff.2 ⟨hs, ?_, ?_⟩ <;> rw [grant_setGrant_self]
    exact hl

theorem uncapSlot_refuses (hh : (c.grant k).capSet.host = false) : uncapSlot k c = (c, .state) :=
  if_neg (hh ▸ Bool.false_ne_true)

/-- R95, R97: a slot that joins an empty queue while nothing is shed, and is not served. -/
theorem queueService_joined {kind : QueueKind} {need : Nat} (hqueue : c.power.queue = []) (hdue : c.power.serviceDue = false)
    (hw : c.waits { slot := k, kind := kind, need := need, priority := (c.effectivePriority k).getD 0, fresh := true }) :
    queueService (joinQueue k kind need c) = setQueue
      [{ slot := k, kind := kind, need := need, priority := (c.effectivePriority k).getD 0, fresh := false }] c := by
  have hjoin : joinQueue k kind need c = setServiceDue true (setQueue
      [{ slot := k, kind := kind, need := need, priority := (c.effectivePriority k).getD 0, fresh := true }] c) := by
    unfold joinQueue
    rw [hqueue]
    rfl
  have hwait : ∀ e ∈ (joinQueue k kind need c).power.queue, (joinQueue k kind need c).waits e := by
    rw [hjoin]
    intro e he
    have hself : e = { slot := k, kind := kind, need := need, priority := (c.effectivePriority k).getD 0, fresh := true } :=
      List.mem_singleton.1 he
    subst hself
    exact hw
  rw [queueService_waiting (.inr hwait), hjoin]
  exact setServiceDue_of_due (c := setQueue _ c) hdue

/-- R97, R100: a slot that joins an empty queue while nothing is shed, and is granted its run draw. -/
theorem queueService_uplifted {need : Nat} (hqueue : c.power.queue = []) (hshed : c.power.shed = [])
    (hdue : c.power.serviceDue = false) (hn : (need : Int) ≤ c.available) :
    queueService (joinQueue k .uplift need c) = serveUplift k c := by
  set e : QueueEntry :=
    { slot := k, kind := .uplift, need := need, priority := (c.effectivePriority k).getD 0, fresh := true } with he
  have hjoin : joinQueue k .uplift need c = setServiceDue true (setQueue [e] c) := by
    unfold joinQueue
    rw [hqueue]
    rfl
  rw [hjoin, queueService_serves (c := setServiceDue true (setQueue [e] c)) rfl hshed rfl
    (serveHead_uplift (c := setServiceDue true (setQueue [e] c)) rfl hn), serveUplift_eq, serveUplift_eq]
  have hpower : setServiceDue false (setQueue [] (setServiceDue true (setQueue [e] c))) = c := by
    have hq : setQueue [] c = c := by
      rw [← hqueue]
      rfl
    exact (setServiceDue_of_due (c := setQueue [] c) hdue).trans hq
  conv_rhs => rw [← hpower]
  rfl

/-- A grant record written with the grant it held moves no figure of R86. -/
theorem available_setGrant (hg : g.grant = (c.grant k).grant) : (setGrant k g c).available = c.available := by
  have hgrant (j : Fin 16) : ((setGrant k g c).grant j).grant = (c.grant j).grant := by
    rw [grant_setGrant]
    split
    · next h => rw [h, hg]
    · rfl
  have htotal : (setGrant k g c).totalGrants = c.totalGrants :=
    congrArg List.sum (List.map_congr_left fun j _ => hgrant j)
  unfold Chip.available Chip.committed
  rw [htotal]
  rfl

section Uncapped

variable {s : State} (hq : s.chip.quiescent) (hnone : s.chip.queueEntry k = none) (ht : s.chip.takes (.orderUncap k))
  (hc : (s.chip.grant k).capSet = { CapSet.empty with host := true }) (hl : (s.chip.grant k).level = .floor)
  (hs : (s.chip.slot k).state = .running) (hqueue : s.chip.power.queue = [])
include ht hnone hc hl hs

/-- The part as an uncapped slot at FLOOR is answered, before it joins the queue. -/
abbrev Chip.uncapped (c : Chip) (k : Fin 16) : Chip :=
  (setGrant k { c.grant k with capSet := .onlyBudget } c).answered (.orderUncap k) { status := .ok, result := [] }

theorem exec_orderUncap_joins : exec (.orderUncap k) s = .next (s.onChip (queueService (joinQueue k .uplift
    (s.chip.runDraw k - (s.chip.grant k).grant) (s.chip.uncapped k)))) :=
  takenOrder_of_takes ht (uncapSlot_joins (c := s.chip.opened (.orderUncap k)) hnone hc hl hs)

include hq hqueue

theorem exec_orderUncap_waits (hn : s.chip.available < ((s.chip.runDraw k - (s.chip.grant k).grant : Nat) : Int)) :
    exec (.orderUncap k) s = .next (s.onChip ((setQueue
      [{ slot := k, kind := .uplift, need := s.chip.runDraw k - (s.chip.grant k).grant,
         priority := (s.chip.effectivePriority k).getD 0, fresh := false }]
      (setGrant k { s.chip.grant k with capSet := .onlyBudget } s.chip)).answered (.orderUncap k)
        { status := .ok, result := [] })) := by
  have havail : (s.chip.uncapped k).available = s.chip.available := available_setGrant (c := s.chip) rfl
  rw [exec_orderUncap_joins hnone ht hc hl hs, queueService_joined (c := s.chip.uncapped k) (kind := .uplift)
    hqueue hq.1 ⟨by rw [havail]; exact hn, nofun⟩]
  rfl

theorem exec_orderUncap_served (hshed : s.chip.power.shed = [])
    (hn : ((s.chip.runDraw k - (s.chip.grant k).grant : Nat) : Int) ≤ s.chip.available) :
    exec (.orderUncap k) s = .next (s.onChip ((post (.uncapRequest k (s.chip.runDraw k)) (setGrant k { s.chip.grant k with
      grant := s.chip.runDraw k, level := if s.chip.runDraw k = 0 then .none else .full, capSet := .empty,
      uncapRequest := true } s.chip)).answered (.orderUncap k) { status := .ok, result := [] })) := by
  have havail : (s.chip.uncapped k).available = s.chip.available := available_setGrant (c := s.chip) rfl
  have hgrant : (s.chip.uncapped k).grant k = { s.chip.grant k with capSet := .onlyBudget } := grant_setGrant_self ..
  have htwice (g' : GrantRecord) : setGrant k g' (s.chip.uncapped k) =
      (setGrant k g' s.chip).answered (.orderUncap k) { status := .ok, result := [] } :=
    congrArg (fun c : Chip => c.answered (.orderUncap k) { status := .ok, result := [] }) (setGrant_setGrant k _ g' s.chip)
  rw [exec_orderUncap_joins hnone ht hc hl hs, queueService_uplifted (c := s.chip.uncapped k) hqueue hshed hq.1
    (by rw [havail]; exact hn), serveUplift_eq, levelFor_runDraw, hgrant, htwice]
  rfl

end Uncapped

/-- Settles O48, order by order. -/
theorem capAndUncapOrders : Obligations.CapAndUncapOrders := by
  intro s k hq hnone
  refine ⟨fun ht => ⟨fun hs hf hg hl hc hr => ?_, fun hs hf hh => ?_, fun h => ?_⟩,
    fun ht => ⟨fun hh hl => ?_, fun hh hkeep hno => ?_, fun hc hl hs hqueue hshed => ⟨fun hn => ?served, fun hn => ?waits⟩,
      fun hh => ?_⟩⟩
  · exact takenOrder_answered (c := setMessages _ (setGrant k _ s.chip)) ht hq
      (capSlot_asks (c := s.chip.opened (.orderCap k)) hs hf hg hl hc hr hnone)
  · exact takenOrder_answered ht hq (capSlot_held (c := s.chip.opened (.orderCap k)) hs hf hh)
  · exact takenOrder_refused hq ht (capSlot_refuses (c := s.chip.opened (.orderCap k)) h)
  · exact takenOrder_answered (c := setGrant k _ s.chip) ht hq (uncapSlot_leaves (c := s.chip.opened (.orderUncap k)) hnone hh
      (fun h => hl h.1) fun h => hl h.2.1)
  · refine takenOrder_answered (c := setGrant k _ s.chip) ht hq (uncapSlot_leaves (c := s.chip.opened (.orderUncap k)) hnone hh
      (fun h => ?_) fun h => ?_)
    · obtain ⟨hbudget, hthermal, -⟩ := CapSet.mk.inj h.2
      rcases hkeep with hb | hb
      · exact Bool.false_ne_true (hbudget.symm.trans hb)
      · exact Bool.false_ne_true (hthermal.symm.trans hb)
    · obtain ⟨hrun, -, hset⟩ := h
      rcases hno with hb | hb
      · exact Bool.false_ne_true ((CapSet.mk.inj hset).2.1.symm.trans hb)
      · exact hb hrun
  case served => exact exec_orderUncap_served hq hnone ht hc hl hs hqueue hshed hn
  case waits => exact exec_orderUncap_waits hq hnone ht hc hl hs hqueue hn
  · exact takenOrder_refused hq ht (uncapSlot_refuses (c := s.chip.opened (.orderUncap k)) hh)

end Sys2Proof.Machine

/-!
PROOF. Grace that runs out (R144, R145), and what an evaluation of a zone asks of the slots (R142, R143, R148).
-/

namespace Sys2Proof.Machine

variable {c c' t : Chip} {z : Fin 4} {k j : Fin 16} {f g : Fin 8}

/-! ## Thermal drain requests (R145, R146) -/

/-- R145: a slot that is sent a request. -/
def Chip.drains (c : Chip) (z : Fin 4) (k : Fin 16) : Bool := c.selected z k && !c.fans.drainSent.read k

theorem sendDrain_of_drains (h : c.drains z j = true) :
    sendDrain z j c = post (.thermalDrainRequest j) (setDrainSent j true c) := by
  unfold Chip.drains at h
  exact if_pos ((Bool.and_eq_true ..).mp h)

theorem sendDrain_of_not (h : c.drains z j = false) : sendDrain z j c = c := by
  unfold Chip.drains at h
  refine if_neg fun hx => ?_
  rw [hx.1, hx.2] at h
  exact Bool.false_ne_true h.symm

theorem selected_sendDrain (z : Fin 4) (j k : Fin 16) (c : Chip) : (sendDrain z j c).selected z k = c.selected z k :=
  ite_keeps (P := fun t => t.selected z k = c.selected z k) rfl rfl

theorem drainSent_sendDrain (z : Fin 4) (j k : Fin 16) (c : Chip) : (sendDrain z j c).fans.drainSent.read k =
    if k = j ∧ c.selected z j = true then true else c.fans.drainSent.read k := by
  cases hd : c.drains z j
  · rw [sendDrain_of_not hd]
    split
    · next h =>
      obtain ⟨rfl, hs⟩ := h
      unfold Chip.drains at hd
      rw [hs, Bool.true_and, Bool.not_eq_false'] at hd
      exact hd
    · rfl
  · have hs : c.selected z j = true := ((Bool.and_eq_true ..).mp hd).1
    rw [sendDrain_of_drains hd]
    refine (Bank.read_put ..).trans (if_congr ?_ rfl rfl)
    rw [hs]
    exact (and_iff_left rfl).symm

theorem messages_sendDrain (z : Fin 4) (j : Fin 16) (c : Chip) :
    (sendDrain z j c).messages = c.messages ++ if c.drains z j then [.thermalDrainRequest j] else [] := by
  cases hd : c.drains z j
  · rw [sendDrain_of_not hd]
    exact (List.append_nil _).symm
  · rw [sendDrain_of_drains hd]
    rfl

theorem drainSent_sendDrains (k : Fin 16) : ∀ (l : List (Fin 16)) (c : Chip),
    (forEach l (sendDrain z) c).fans.drainSent.read k =
      if k ∈ l ∧ c.selected z k = true then true else c.fans.drainSent.read k
  | [], c => (if_neg fun h => nomatch h.1).symm
  | j :: l, c => by
    refine (drainSent_sendDrains k l (sendDrain z j c)).trans ?_
    rw [selected_sendDrain, drainSent_sendDrain]
    by_cases hs : c.selected z k = true
    · by_cases hl : k ∈ l
      · rw [if_pos ⟨hl, hs⟩, if_pos ⟨List.mem_cons_of_mem j hl, hs⟩]
      · rw [if_neg fun h => hl h.1]
        refine if_congr ⟨fun h => ⟨h.1 ▸ List.mem_cons_self, hs⟩, fun h => ?_⟩ rfl rfl
        have hj := (List.mem_cons.1 h.1).resolve_right hl
        exact ⟨hj, hj ▸ hs⟩
    · rw [if_neg (fun h : k ∈ l ∧ _ => hs h.2), if_neg (fun h : k = j ∧ _ => hs (h.1 ▸ h.2)),
      if_neg (fun h : k ∈ j :: l ∧ _ => hs h.2)]

theorem messages_sendDrains : ∀ (l : List (Fin 16)) (c : Chip), l.Nodup → (forEach l (sendDrain z) c).messages =
    c.messages ++ (l.filter fun k => c.drains z k).map Instr.thermalDrainRequest
  | [], c, _ => (List.append_nil _).symm
  | j :: l, c, hl => by
    obtain ⟨hj, hl⟩ := List.nodup_cons.1 hl
    have hrest : (l.filter fun k => (sendDrain z j c).drains z k) = l.filter fun k => c.drains z k := by
      refine List.filter_congr fun k hk => ?_
      unfold Chip.drains
      rw [selected_sendDrain, drainSent_sendDrain, if_neg (fun h : k = j ∧ _ => hj (h.1 ▸ hk))]
    refine (messages_sendDrains l (sendDrain z j c) hl).trans ?_
    rw [hrest, messages_sendDrain, List.append_assoc, List.filter_cons]
    split <;> rfl

theorem sendDrains_power (z : Fin 4) (l : List (Fin 16)) (c : Chip) : (forEach l (sendDrain z) c).power = c.power :=
  forEach_keeps (P := fun t => t.power = c.power) l (sendDrain z)
    (fun _ _ h => ite_keeps (P := fun t => t.power = c.power) h h) c rfl

/-! ## THERMAL (R142 step 4, R148 step 2) -/

/-- A property that no step of settling an event of the power unit disturbs. -/
structure SettlingKeeps (P : Chip → Prop) : Prop where
  capForShed : ∀ k c, P c → P (capForShed k c)
  setShed : ∀ l c, P c → P (setShed l c)
  setServiceDue : ∀ b c, P c → P (setServiceDue b c)
  raise : ∀ o x c, P c → P (raise o x c)
  post : ∀ m c, P c → P (post m c)

namespace SettlingKeeps

variable {P : Chip → Prop} (h : SettlingKeeps P)
include h

theorem actHead (hc : P c) : P (actHead c) := by
  unfold Machine.actHead
  split
  · exact hc
  · split
    · exact h.capForShed _ _ (h.setShed _ _ hc)
    · exact h.post _ _ (h.setShed _ _ hc)

theorem startShedding (hc : P c) : P (startShedding c) := by
  unfold Machine.startShedding
  split
  · exact ite_keeps (h.raise _ _ _ hc) hc
  · exact h.actHead (h.setShed _ _ hc)

theorem settlePower (before : Chip) (report : Bool) (hc : P c) : P (settlePower before report c) := by
  unfold Machine.settlePower
  extract_lets c1 emptied more less c2 kept c3
  have h1 : P c1 := h.setShed _ _ hc
  have h2 : P c2 := ite_keeps (h.setServiceDue _ _ h1) h1
  have h3 : P c3 := h.setShed _ _ h2
  refine ite_keeps ?_ (ite_keeps (h.setServiceDue _ _ h3) h3)
  split
  · exact ite_keeps (ite_keeps (h.setShed _ _ h2) h2) (h.actHead h2)
  · exact ite_keeps (h.startShedding h2) h2

theorem powerEvent (report : Bool) {f : Chip → Chip} (hf : P (f c)) : P (powerEvent report f c) := h.settlePower c report hf

end SettlingKeeps

/-! ### The grant of a slot -/

/-- The slots' records, and a slot's grant, as they were. -/
structure Chip.GrantKept (c : Chip) (k : Fin 16) (t : Chip) : Prop where
  slots : t.slots = c.slots
  grant : (t.grant k).grant = (c.grant k).grant

theorem Chip.GrantKept.refl (c : Chip) (k : Fin 16) : c.GrantKept k c := ⟨rfl, rfl⟩

/-- A write of some slot's grant record that leaves the grant as it is. -/
theorem Chip.GrantKept.setGrant {x : GrantRecord} (h : c.GrantKept k t) (hx : x.grant = (t.grant j).grant) :
    c.GrantKept k (setGrant j x t) where
  slots := h.slots
  grant := by
    rw [grant_setGrant]
    split
    · next hj => rw [hx, ← hj, h.grant]
    · exact h.grant

/-- R95: of the power unit's records the uplift of a slot touches the queue and its trigger alone. -/
theorem alignUplift_keeps {P : Chip → Prop} (hq : ∀ q c, P c → P (setQueue q c)) (hd : ∀ b c, P c → P (setServiceDue b c))
    (k : Fin 16) (hc : P c) : P (alignUplift k c) := by
  have hleave : P (leaveQueue k c) := by
    unfold leaveQueue
    split
    · exact hc
    · exact hd _ _ (hq _ _ hc)
  unfold alignUplift
  dsimp only
  split
  · split
    · exact hd _ _ (hq _ _ hc)
    · exact hq _ _ hc
  · split
    · exact ite_keeps hleave hc
    · exact hc

theorem Chip.GrantKept.alignUplift (h : c.GrantKept k t) (j : Fin 16) : c.GrantKept k (alignUplift j t) :=
  alignUplift_keeps (P := c.GrantKept k) (fun _ _ h => ⟨h.slots, h.grant⟩) (fun _ _ h => ⟨h.slots, h.grant⟩) j h

/-- R109: a CAP asked for in shedding. -/
theorem capForShed_keeps {P : Chip → Prop} (hq : ∀ q c, P c → P (setQueue q c)) (hd : ∀ b c, P c → P (setServiceDue b c))
    (hp : ∀ m c, P c → P (post m c))
    (hg : ∀ q : Option CapSet, P (setGrant k { c.grant k with
      capSet := (c.grant k).capSet.put .budget true, capRequest := q } c)) : P (capForShed k c) := by
  unfold capForShed
  dsimp only
  split
  · exact alignUplift_keeps hq hd k (hp _ _ (hg _))
  · exact alignUplift_keeps hq hd k (hg _)

theorem Chip.grantKept_settling (c : Chip) (k : Fin 16) : SettlingKeeps (c.GrantKept k) where
  capForShed _ _ h := capForShed_keeps (fun _ _ h => ⟨h.slots, h.grant⟩) (fun _ _ h => ⟨h.slots, h.grant⟩)
    (fun _ _ h => ⟨h.slots, h.grant⟩) fun _ => h.setGrant rfl
  setShed _ _ h := ⟨h.slots, h.grant⟩
  setServiceDue _ _ h := ⟨h.slots, h.grant⟩
  raise _ _ _ h := ⟨h.slots, h.grant⟩
  post _ _ h := ⟨h.slots, h.grant⟩

/-- R101: a reason added, whatever is asked for. -/
theorem addReason_keeps {P : Chip → Prop} (r : CapReason) (hq : ∀ q c, P c → P (setQueue q c))
    (hd : ∀ b c, P c → P (setServiceDue b c)) (hp : ∀ m c, P c → P (post m c)) (hc : (c.grant k).capSet.has r = true → P c)
    (hg : ∀ q : Option CapSet, P (setGrant k { c.grant k with capSet := (c.grant k).capSet.put r true, capRequest := q } c)) :
    P (addReason r k c) := by
  unfold addReason
  dsimp only
  split
  · next h => exact hc h
  · split
    · split
      · exact alignUplift_keeps hq hd k (hp _ _ (hg _))
      · exact alignUplift_keeps hq hd k (hg _)
    · exact alignUplift_keeps hq hd k (hg _)

theorem Chip.GrantKept.requestThermal (h : c.GrantKept k t) (j : Fin 16) : c.GrantKept k (requestThermal j t) :=
  ite_keeps (P := c.GrantKept k) (addReason_keeps (P := c.GrantKept k) .thermal (fun _ _ h => ⟨h.slots, h.grant⟩)
    (fun _ _ h => ⟨h.slots, h.grant⟩) (fun _ _ h => ⟨h.slots, h.grant⟩) (fun _ => h) fun _ => h.setGrant rfl) h

theorem GrantRecord.keepsReason_grant (g : GrantRecord) : g.keepsReason.grant = g.grant := by
  unfold keepsReason
  split <;> rfl

theorem removeReason_of_not {r : CapReason} (h : ¬ (c.grant k).capSet.has r = true) : removeReason r k c = c := if_neg h

theorem Chip.GrantKept.removeReason (h : c.GrantKept k t) (r : CapReason) (j : Fin 16) :
    c.GrantKept k (removeReason r j t) := by
  by_cases hr : (t.grant j).capSet.has r = true
  · rw [removeReason_of_has hr]
    refine Chip.GrantKept.alignUplift (h.setGrant ?_) j
    exact GrantRecord.keepsReason_grant _
  · rw [removeReason_of_not hr]
    exact h

theorem Chip.grantKept_fanCalls (c : Chip) (k : Fin 16) : FanCallsKeep (c.GrantKept k) where
  fans _ _ h := ⟨h.slots, h.grant⟩
  raise _ _ _ h := ⟨h.slots, h.grant⟩
  post _ _ h := ⟨h.slots, h.grant⟩
  giveReservation _ _ _ _ h := (c.grantKept_settling k).powerEvent _ ⟨h.slots, h.grant⟩
  requestThermal _ _ h := h.requestThermal _
  removeReason _ _ _ h := h.removeReason _ _

/-! ### THERMAL asked for and taken away -/

/-- A slot's cap set holds THERMAL, or does not. -/
def Chip.thermalIs (c : Chip) (k : Fin 16) (b : Bool) : Prop := (c.grant k).capSet.thermal = b

theorem thermalIs_setGrant {x : GrantRecord} {b : Bool} (h : t.thermalIs k b)
    (hx : j = k → x.capSet.thermal = b) : (setGrant j x t).thermalIs k b := by
  unfold Chip.thermalIs
  rw [grant_setGrant]
  split
  · next hj => exact hx hj.symm
  · exact h

theorem thermalIs_settling (k : Fin 16) (b : Bool) : SettlingKeeps fun t => t.thermalIs k b where
  capForShed _ _ h := capForShed_keeps (P := fun t => t.thermalIs k b) (fun _ _ h => h) (fun _ _ h => h) (fun _ _ h => h)
    fun _ => thermalIs_setGrant h fun hj => hj ▸ h
  setShed _ _ h := h
  setServiceDue _ _ h := h
  raise _ _ _ h := h
  post _ _ h := h

theorem requestThermal_keepsThermal (h : t.thermalIs k true) (j : Fin 16) : (requestThermal j t).thermalIs k true :=
  ite_keeps (P := fun t => t.thermalIs k true) (addReason_keeps (P := fun t => t.thermalIs k true) .thermal
    (fun _ _ h => h) (fun _ _ h => h) (fun _ _ h => h) (fun _ => h) fun _ => thermalIs_setGrant h fun _ => rfl) h

/-- R105: THERMAL is added to a slot that can be capped. -/
theorem requestThermal_adds (h : t.canCap k = true) : (requestThermal k t).thermalIs k true := by
  unfold requestThermal
  rw [if_pos h]
  refine addReason_keeps (P := fun t => t.thermalIs k true) .thermal (fun _ _ h => h) (fun _ _ h => h) (fun _ _ h => h)
    (fun h => h) fun _ => ?_
  unfold Chip.thermalIs
  rw [grant_setGrant_self]
  rfl

theorem GrantRecord.keepsReason_thermal (g : GrantRecord) (h : g.capSet.thermal = false) :
    g.keepsReason.capSet.thermal = false := by
  unfold keepsReason
  split
  · rfl
  · exact h

theorem removeThermal_keeps (h : t.thermalIs k false) (j : Fin 16) : (removeReason .thermal j t).thermalIs k false := by
  by_cases hr : (t.grant j).capSet.has .thermal = true
  · rw [removeReason_of_has hr]
    exact alignUplift_keeps (P := fun t => t.thermalIs k false) (fun _ _ h => h) (fun _ _ h => h) j
      (thermalIs_setGrant h fun _ => GrantRecord.keepsReason_thermal _ rfl)
  · rw [removeReason_of_not hr]
    exact h

theorem removeThermal_removes (k : Fin 16) (t : Chip) : (removeReason .thermal k t).thermalIs k false := by
  by_cases hr : (t.grant k).capSet.has .thermal = true
  · rw [removeReason_of_has hr]
    refine alignUplift_keeps (P := fun t => t.thermalIs k false) (fun _ _ h => h) (fun _ _ h => h) k ?_
    unfold Chip.thermalIs
    rw [grant_setGrant_self]
    exact GrantRecord.keepsReason_thermal _ rfl
  · rw [removeReason_of_not hr]
    exact Bool.eq_false_iff.2 hr

/-- Operations over a list, one of which makes true what none of the others undoes. -/
theorem forEach_reaches {α : Type} {P Q : Chip → Prop} {op : α → Chip → Chip} (hP : ∀ a t, P t → P (op a t))
    (hQ : ∀ a t, Q t → Q (op a t)) {a : α} (ha : ∀ t, P t → Q (op a t)) :
    ∀ (l : List α) (t : Chip), a ∈ l → P t → Q (forEach l op t) := by
  intro l
  induction l with
  | nil => exact fun _ hm _ => nomatch hm
  | cons x l ih =>
    intro t hm ht
    rcases List.mem_cons.1 hm with rfl | hm
    · exact forEach_keeps (P := Q) l op hQ (op a t) (ha t ht)
    · exact ih (op x t) hm (hP x t ht)

theorem modFan_thermalIs {b : Bool} (h : t.thermalIs k b) (f : Fin 8) (g : Fan → Fan) : (modFan f g t).thermalIs k b := h

theorem giveReservation_thermalIs {b : Bool} (h : t.thermalIs k b) (f : Fin 8) (band rated : Nat) :
    (giveReservation f band rated t).thermalIs k b :=
  SettlingKeeps.powerEvent (P := fun t => t.thermalIs k b) (thermalIs_settling k b) false h

theorem reserve_thermalIs {b : Bool} (h : t.thermalIs k b) (f : Fin 8) (step : Nat) : (reserve f step t).thermalIs k b :=
  giveReservation_thermalIs (modFan_thermalIs h f _) f step _

theorem unboostFan_thermalIs {b : Bool} (h : t.thermalIs k b) (f : Fin 8) : (unboostFan f t).thermalIs k b := by
  unfold unboostFan
  refine ite_keeps (P := fun t => t.thermalIs k b) ?_ h
  split
  · unfold enterPinned
    exact reserve_thermalIs (modFan_thermalIs h f _) f _
  · unfold enterCalibrating startSearch
    exact modFan_thermalIs (modFan_thermalIs (reserve_thermalIs h f 63) f _) f _

/-- R142: THERMAL is asked for at every slot of the zone that can be capped. -/
theorem thermal_beginEmergency (hz : c.slotZone k = z) (hs : (c.slot k).state = .running) (hf : c.floorDraw k ≠ 0)
    (hg : (c.grant k).grant ≠ 0) : (beginEmergency z c).thermalIs k true := by
  have hk := c.grantKept_fanCalls k
  have hbegin : c.GrantKept k (c.beginning z) :=
    hk.boostFan _ (hk.boostFan _ (hk.raise _ _ _ (hk.modZone _ _ (.refl c k))))
  have hzone (t : Chip) (h : t.thermalIs k true) (g : Zone → Zone) : (modZone z g t).thermalIs k true := h
  rw [beginEmergency_eq]
  refine hzone _ ?_ _
  refine forEach_reaches (P := c.GrantKept k) (Q := fun t => t.thermalIs k true) (op := requestThermal) (a := k)
    (fun j _ h => h.requestThermal j) (fun j _ h => requestThermal_keepsThermal h j) (fun t h => requestThermal_adds ?_) _ _
    (List.mem_filter.2 ⟨List.mem_finRange k, decide_eq_true hz⟩) hbegin
  have hslot : t.slot k = c.slot k := by
    unfold Chip.slot
    rw [h.slots]
  have hfloor : t.floorDraw k = c.floorDraw k := by
    unfold Chip.floorDraw
    rw [hslot]
  refine decide_eq_true ⟨?_, ?_, ?_⟩
  · rw [hslot]
    exact hs
  · rw [hfloor]
    exact hf
  · rw [h.grant]
    exact hg

/-- R148: THERMAL is taken from every slot of the zone. -/
theorem thermal_endEmergency (hz : c.slotZone k = z) : (endEmergency z c).thermalIs k false := by
  have hzone (t : Chip) (h : t.thermalIs k false) (g : Zone → Zone) : (modZone z g t).thermalIs k false := h
  rw [endEmergency_eq]
  refine hzone _ (unboostFan_thermalIs (unboostFan_thermalIs ?_ _) _) _
  exact forEach_reaches (P := fun _ => True) (Q := fun t => t.thermalIs k false) (op := removeReason .thermal) (a := k)
    (fun _ _ _ => trivial) (fun j _ h => removeThermal_keeps h j) (fun t _ => removeThermal_removes k t) _ _
    (List.mem_filter.2 ⟨List.mem_finRange k, decide_eq_true hz⟩) trivial

end Sys2Proof.Machine

/-!
PROOF. What the grace timer, the evaluation of a zone, and the arrival or removal of a fan do to an emergency (R141 to R148).
-/

namespace Sys2Proof.Machine

variable {c t : Chip} {z : Fin 4} {k : Fin 16} {f g : Fin 8}

/-! ## The grace timer (R144, R145) -/

theorem exec_graceSecondTick {s : State} {n : Nat} (hq : s.chip.quiescent) (hg : (s.chip.zone z).grace = some (n + 2))
    (ht : (s.chip.zone z).graceTimer = true) : exec (.graceSecondTick z) s =
      .next (s.onChip (setZone z { s.chip.zone z with grace := some (n + 1) } s.chip)) := by
  refine taken_settled (?_ : graceTicked z s.chip = _) hq
  unfold graceTicked modZone
  dsimp only
  rw [hg]
  dsimp only
  rw [if_pos ht]

/-- R145: the part as the grace timer expires, before the requests are sent. -/
abbrev Chip.graceless (c : Chip) (z : Fin 4) : Chip := modZone z (fun r => { r with grace := some 0, graceTimer := false }) c

theorem exec_graceTimerExpiry {s : State} (ht : (s.chip.zone z).graceTimer = true) : exec (.graceTimerExpiry z) s =
    .next (s.onChip (queueService (forEach (keys 16) (sendDrain z) (s.chip.graceless z)))) :=
  congrArg (fun c => (Host.Outcome.next (s.onChip (queueService c)) : Result)) (if_pos ht)

theorem zone_graceless (z : Fin 4) (c : Chip) :
    (c.graceless z).zone z = { c.zone z with grace := some 0, graceTimer := false } := (zone_modZone ..).trans (if_pos rfl)

/-- R145: the slots that the cause selects. -/
theorem selected_graceless : (c.graceless z).selected z k = true ↔ c.slotZone k = z ∧ (c.slot k).state = .running ∧
    ((c.zone z).cause = some .fans ∨ c.countedMargin k ≤ c.settings.criticalMargin) := by
  unfold Chip.selected
  rw [zone_graceless]
  exact decide_eq_true_iff

theorem graceTimerExpiry_leaves (s : State) (z : Fin 4) (ht : (s.chip.zone z).graceTimer = true) :
    ∃ t, exec (.graceTimerExpiry z) s = .next t ∧
      t.chip.zone z = { s.chip.zone z with grace := some 0, graceTimer := false } ∧ t.chip.slots = s.chip.slots ∧
      ∀ k, (let chosen := s.chip.slotZone k = z ∧ (s.chip.slot k).state = .running ∧
              ((s.chip.zone z).cause = some .fans ∨ s.chip.countedMargin k ≤ s.chip.settings.criticalMargin)
            (chosen → t.chip.fans.drainSent.read k = true) ∧
            (¬ chosen → t.chip.fans.drainSent.read k = s.chip.fans.drainSent.read k)) ∧
          (s.chip.quiescent → t.chip.messages = s.chip.messages ++
            ((keys 16).filter fun k => decide (s.chip.slotZone k = z ∧ (s.chip.slot k).state = .running ∧
              ((s.chip.zone z).cause = some .fans ∨ s.chip.countedMargin k ≤ s.chip.settings.criticalMargin) ∧
              s.chip.fans.drainSent.read k = false)).map Instr.thermalDrainRequest) := by
  have hframe := s.chip.sameFrame_keeps.toPowerKeeps.queueService
    (s.chip.sameFrame_keeps.sendDrains z (s.chip.sameFrame_keeps.modZone z (fun r => { r with
      grace := some 0, graceTimer := false }) (.refl s.chip)))
  refine ⟨_, exec_graceTimerExpiry ht, ?_, hframe.slots, fun k => ⟨⟨fun hk => ?_, fun hk => ?_⟩, fun hq => ?_⟩⟩ <;>
    dsimp only [State.onChip]
  · rw [zone_congr (queueService_fans _)]
    exact (sendDrains_leaves z z 0 _).2.trans (zone_graceless ..)
  · rw [queueService_fans, drainSent_sendDrains, if_pos ⟨List.mem_finRange k, selected_graceless.2 hk⟩]
  · rw [queueService_fans, drainSent_sendDrains,
      if_neg (fun h : _ ∧ (s.chip.graceless z).selected z k = true => hk (selected_graceless.1 h.2))]
    rfl
  · have hpower := sendDrains_power z (keys 16) (s.chip.graceless z)
    have hservice : queueService (forEach (keys 16) (sendDrain z) (s.chip.graceless z)) =
        forEach (keys 16) (sendDrain z) (s.chip.graceless z) :=
      queueService_of_settled (by rw [hpower]; exact hq.1) (by rw [hpower]; exact hq.2)
    rw [hservice, messages_sendDrains (keys 16) _ (List.nodup_finRange 16)]
    refine congrArg (fun l => s.chip.messages ++ List.map Instr.thermalDrainRequest l) (List.filter_congr fun k _ => ?_)
    refine Bool.eq_iff_iff.2 ((Bool.and_eq_true_iff).trans ?_)
    rw [selected_graceless, Bool.not_eq_true', decide_eq_true_iff]
    exact ⟨fun ⟨⟨hz, hs, hm⟩, hd⟩ => ⟨hz, hs, hm, hd⟩, fun ⟨hz, hs, hm, hd⟩ => ⟨⟨hz, hs, hm⟩, hd⟩⟩

/-! ## The evaluation of a zone (R141, R142, R148) -/

/-- R141: a fan that is FAILED or ABSENT. -/
abbrev Fan.idle (r : Fan) : Bool := decide (r.state = .failed ∨ r.state = .absent)

theorem Fan.idle_eq_not_works (r : Fan) : r.idle = !r.works := by
  unfold idle works
  cases r.state <;> rfl

theorem fanCondition_eq (z : Fin 4) (c : Chip) :
    c.fanCondition z = ((c.fan (firstFan z)).idle && (c.fan (secondFan z)).idle) := by
  rw [Fan.idle_eq_not_works, Fan.idle_eq_not_works]
  rfl

theorem endsEmergency_iff : c.endsEmergency z = true ↔ c.fanCondition z = false ∧
    ∀ d, (c.zone z).demand = some d → c.settings.criticalMargin + 5 ≤ d := by
  cases hf : c.fanCondition z
  · exact ⟨fun h => ⟨rfl, (endsEmergency_of_works hf).1 h⟩, fun h => (endsEmergency_of_works hf).2 h.2⟩
  · refine ⟨fun h => ?_, fun h => nomatch h.1⟩
    unfold Chip.endsEmergency at h
    rw [hf] at h
    exact nomatch h

theorem Fan.boosting_of_driven {r : Fan} (h : r.state = .calibrating ∨ r.state = .tracking ∨ r.state = .locked ∨
    r.state = .pinned) : r.boosting = r.boosted := by
  unfold boosting
  rcases h with h | h | h | h <;> rw [h]

/-- R141, R142, R148: what the evaluation of a zone does, by the fan condition, the margin and the demand. -/
theorem evaluateZone_leaves (c : Chip) (z : Fin 4) :
    ((c.zone z).emergency = false → c.fanCondition z = false → c.marginCondition z = false → evaluateZone z c = c) ∧
    ((c.zone z).emergency = false → c.fanCondition z = true ∨ c.marginCondition z = true →
      evaluateZone z c = beginEmergency z c) ∧
    ((c.zone z).emergency = true → c.endsEmergency z = true → evaluateZone z c = endEmergency z c) :=
  ⟨fun he hf hm => evaluateZone_quiet he hm hf, fun he h => evaluateZone_begins he h.symm, fun he h => evaluateZone_ends he h⟩

/-- R142 step 3: the fans of a zone whose emergency begins. -/
theorem fan_begins (hz : fanZone f = z) (c : Chip) :
    match (c.fan f).state with
    | .calibrating | .tracking | .locked | .pinned =>
      ((beginEmergency z c).fan f).state = .boost ∧ ((beginEmergency z c).fan f).band = 63 ∧
        ((beginEmergency z c).fan f).reservedBand = 63 ∧ ((beginEmergency z c).fan f).search = none ∧
        ((beginEmergency z c).fan f).pinnedBand = (c.fan f).pinnedBand
    | .absent | .identifying | .boost | .failed => (beginEmergency z c).fan f = c.fan f := by
  rw [fan_beginEmergency, if_pos hz]
  cases hs : (c.fan f).state
  case calibrating | tracking | locked | pinned =>
    rw [Fan.boosting_of_driven (by simp [hs])]
    exact ⟨rfl, rfl, rfl, rfl, rfl⟩
  all_goals
    unfold Fan.boosting
    rw [hs]

/-- R148 step 3: the fans of a zone whose emergency ends. -/
theorem fan_ends (hz : fanZone f = z) (hs : (c.fan f).state = .boost) :
    match (c.fan f).pinnedBand with
    | some b => ((endEmergency z c).fan f).state = .pinned ∧ ((endEmergency z c).fan f).band = b ∧
        ((endEmergency z c).fan f).reservedBand = stepCovering b
    | none => ((endEmergency z c).fan f).state = .calibrating ∧ ((endEmergency z c).fan f).band = 32 ∧
        ((endEmergency z c).fan f).reservedBand = 63 := by
  rw [fan_endEmergency, if_pos hz]
  cases hp : (c.fan f).pinnedBand with
  | some b =>
    rw [Fan.unboosting_of_pin hs hp]
    exact ⟨rfl, rfl, rfl⟩
  | none =>
    rw [Fan.unboosting_of_none hs hp]
    exact ⟨rfl, rfl, rfl⟩

/-! ## Fans that come and go (R125, R136, R141) -/

/-- R141: neither fan of a zone works. -/
theorem fanCondition_of_idle (hz : fanZone g = fanZone f) (hne : g ≠ f) (hf : (c.fan f).works = false)
    (hg : (c.fan g).works = false) : c.fanCondition (fanZone f) = true := by
  have hboth : ∀ j, j = firstFan (fanZone f) ∨ j = secondFan (fanZone f) → (c.fan j).works = false := by
    intro j hj
    have hjz := (fanZone_eq_iff j (fanZone f)).2 hj
    have : ∀ f g j : Fin 8, fanZone g = fanZone f → g ≠ f → fanZone j = fanZone f → j = f ∨ j = g := by decide
    rcases this f g j hz hne hjz with rfl | rfl
    · exact hf
    · exact hg
  unfold Chip.fanCondition
  rw [hboth _ (.inl rfl), hboth _ (.inr rfl)]
  rfl

theorem zone_fanLeft (f : Fin 8) (c : Chip) (z : Fin 4) : (c.fanLeft f).zone z = c.zone z := (fanLeft_written f c).zone z

/-- R136, R141: the removal of a fan whose neighbour does not work. -/
theorem fanRemoval_begins (hz : fanZone g = fanZone f) (hne : g ≠ f) (hs : (c.fan f).state ≠ .absent)
    (hg : (c.fan g).works = false) (he : (c.zone (fanZone f)).emergency = false) :
    (fanRemoval f c).zone (fanZone f) = (c.zone (fanZone f)).begun .fans c.settings.emergencyGrace ∧
      (fanRemoval f c).alerted (.zone (fanZone f)) .zoneEmergency := by
  have h := fanLeft_written f c
  have hcondition : (c.fanLeft f).fanCondition (fanZone f) = true := by
    refine fanCondition_of_idle hz hne ?_ ?_
    · rw [h.fan]
      rfl
    · rw [(h.others g hne).1]
      exact hg
  have hcause : (c.fanLeft f).emergencyCause (fanZone f) = .fans := if_pos hcondition
  rw [fanRemoval_eq hs, evaluateZone_begins (by rw [zone_fanLeft]; exact he) (.inr hcondition)]
  refine ⟨?_, alerted_beginEmergency _ _⟩
  rw [zone_beginEmergency, if_pos rfl, hcause, zone_fanLeft, h.frame.settings]

/-- R125, R148: the arrival of a fan in a zone with no demand. -/
theorem fanArrival_ends (hs : (c.fan f).state = .absent) (he : (c.zone (fanZone f)).emergency = true)
    (hd : (c.zone (fanZone f)).demand = none) :
    (fanArrival f c).zone (fanZone f) = (c.zone (fanZone f)).ended := by
  have hfan : (modFan f (fun _ => Fan.arrived) c).fan f = Fan.arrived := fan_modFan_self ..
  have hends : (modFan f (fun _ => Fan.arrived) c).endsEmergency (fanZone f) = true := by
    refine endsEmergency_iff.2 ⟨fanCondition_of_works ?_, fun d h => ?_⟩
    · rw [hfan]
      rfl
    · rw [zone_modFan, hd] at h
      exact nomatch h
  rw [fanArrival_eq hs, evaluateZone_ends (c := modFan f _ c) he hends, zone_endEmergency, if_pos rfl]
  rfl

/-- Settles O30, part by part. -/
theorem graceRunsOut : Obligations.GraceRunsOut := by
  refine ⟨fun s z n hq hg ht => exec_graceSecondTick hq hg ht, graceTimerExpiry_leaves, fun c z => ?evaluates,
    fun s f g hz hne ht => ⟨fun hp hf hs hg he => ?removes, fun hp hf hs he hd => ?arrives⟩⟩
  case evaluates =>
    intro idle noFan critical clear t
    have hnoFan : noFan = c.fanCondition z := (fanCondition_eq z c).symm
    have hcritical : critical ↔ c.marginCondition z = true := marginCondition_iff.symm
    have hcause : (if noFan = true then EmergencyCause.fans else .margin) = c.emergencyCause z := by
      rw [hnoFan]
      rfl
    obtain ⟨hquiet, hbegin, hend⟩ := evaluateZone_leaves c z
    refine ⟨fun he hn hm => hquiet he (hnoFan ▸ hn) (Bool.eq_false_iff.2 (mt hcritical.2 hm)), fun he h => ?_,
      fun he hn hclear => ?_, fun he h => ?_⟩
    · have ht : t = beginEmergency z c := hbegin he (h.imp (hnoFan ▸ ·) hcritical.1)
      rw [ht, hcause]
      refine ⟨?_, alerted_beginEmergency _ _, fun f hf => fan_begins hf c, fun k hz hs hf hg => thermal_beginEmergency hz hs hf hg⟩
      rw [zone_beginEmergency, if_pos rfl]
    · have ht : t = endEmergency z c := hend he (endsEmergency_iff.2 ⟨hnoFan ▸ hn, hclear⟩)
      rw [ht]
      refine ⟨?_, fun f hf hs => fan_ends hf hs, fun k hz => thermal_endEmergency hz⟩
      rw [zone_endEmergency, if_pos rfl]
    · rw [hcause]
      refine evaluateZone_stays he (Bool.eq_false_iff.2 fun hx => ?_)
      obtain ⟨hf, hclear⟩ := endsEmergency_iff.1 hx
      rcases h with h | h
      · exact Bool.false_ne_true (hf.symm.trans (hnoFan ▸ h))
      · exact h hclear
  case removes =>
    have hworks : (s.chip.fan g).works = false := (Bool.not_eq_true' _).mp
      ((Fan.idle_eq_not_works (s.chip.fan g)).symm.trans (decide_eq_true hg))
    obtain ⟨hzone, halert⟩ := fanRemoval_begins (c := setModules (s.chip.modules.debounced (.fan f)) s.chip) hz hne hs
      hworks he
    have hd := Chip.departed_vacate (.fan f) (setModules ((s.chip.modules.debounced (.fan f)).drop (.fan f))
      (fanRemoval f (setModules (s.chip.modules.debounced (.fan f)) s.chip)))
    rw [exec_modulePresenceDebounceExpiry, moduleDebounced_leaves (bay := .fan f) ht hp hf, moduleRemoval_fan]
    refine ⟨_, rfl, ?_, hd.alerted _ _ halert⟩
    exact (zone_congr hd.fans _).trans hzone
  case arrives =>
    have hzone := fanArrival_ends (c := setModules (s.chip.modules.debounced (.fan f)) s.chip) hs he hd
    rw [exec_modulePresenceDebounceExpiry, moduleDebounced_arrives (bay := .fan f) ht hp hf, moduleArrival_fan]
    refine ⟨_, rfl, ?_⟩
    exact (zone_congr (queueService_fans _) _).trans hzone

end Sys2Proof.Machine

/-!
PROOF. The figures of the power unit (R85, R86), the settling of its events (R90, R97, R112), and the projection walk (R108).
-/

namespace Sys2Proof.Machine

variable {c c' t : Chip} {b : Fin 6} {k j : Fin 16} {g : GrantRecord} {e : QueueEntry}

/-! ## The figures of R85 and R86 -/

/-- R85: the budget is made by the states and capacities of the supplies and the policy. -/
theorem budget_congr (hs : ∀ b, (t.supply b).state = (c.supply b).state ∧ (t.supply b).capacity = (c.supply b).capacity)
    (hset : t.settings = c.settings) : t.budget = c.budget := by
  have honline : t.onlineCapacities = c.onlineCapacities := by
    unfold Chip.onlineCapacities
    have hfilter : ((keys 6).filter fun b => decide ((t.supply b).state = .online)) =
        (keys 6).filter fun b => decide ((c.supply b).state = .online) :=
      List.filter_congr fun b _ => by rw [(hs b).1]
    rw [hfilter]
    exact List.map_congr_left fun b _ => (hs b).2
  unfold Chip.budget Chip.largestOnline Chip.onlineCapacity
  rw [honline, hset]

theorem totalGrants_eq_sum (c : Chip) : c.totalGrants = ∑ k, (c.grant k).grant :=
  (Fin.sum_univ_def fun k => (c.grant k).grant).symm

/-- R86: the sum of the grants after one is written. -/
theorem totalGrants_setGrant (k : Fin 16) (g : GrantRecord) (c : Chip) :
    (setGrant k g c).totalGrants + (c.grant k).grant = c.totalGrants + g.grant := by
  have hself : ((setGrant k g c).grant k).grant = g.grant := by rw [grant_setGrant_self]
  have hrest : ∑ j ∈ Finset.univ.erase k, ((setGrant k g c).grant j).grant =
      ∑ j ∈ Finset.univ.erase k, (c.grant j).grant :=
    Finset.sum_congr rfl fun j hj => by rw [grant_setGrant, if_neg (Finset.ne_of_mem_erase hj)]
  rw [totalGrants_eq_sum, totalGrants_eq_sum, ← Finset.add_sum_erase _ _ (Finset.mem_univ k),
    ← Finset.add_sum_erase _ (fun j => (c.grant j).grant) (Finset.mem_univ k), hrest, hself]
  omega

/-- R86: the available draw after a grant is written. -/
theorem available_writes (k : Fin 16) (g : GrantRecord) (c : Chip) :
    (setGrant k g c).available = c.available + (c.grant k).grant - g.grant := by
  have h := totalGrants_setGrant k g c
  have hbudget : (setGrant k g c).budget = c.budget := rfl
  have hreserved : (setGrant k g c).fanReservations = c.fanReservations := rfl
  have hbase : (setGrant k g c).settings = c.settings := rfl
  unfold Chip.available Chip.committed
  rw [hbudget, hreserved, hbase]
  omega

theorem overCommitted_iff : c.overCommitted = true ↔ c.budget < c.committed := decide_eq_true_iff

theorem not_overCommitted_of_available (h : 0 ≤ c.available) : c.overCommitted = false := by
  unfold Chip.available at h
  exact decide_eq_false (by omega)

theorem available_of_overCommitted (h : c.overCommitted = true) : c.available < 0 := by
  have hlt := overCommitted_iff.1 h
  unfold Chip.available
  omega

/-! ## Settling with an empty shed list (R90, R112) -/

theorem pruneShed_of_nil (h : c.power.shed = []) : pruneShed c = c := by
  unfold pruneShed
  rw [h, List.filter_nil]
  exact (congrArg (setShed · c) h.symm).trans rfl

theorem setShed_of_eq {l : List ShedEntry} (h : c.power.shed = l) : setShed l c = c := by
  subst h
  rfl

/-- R97: an event that leaves the chassis within its budget is a trigger when it moved a figure that way. -/
theorem settlePower_within {before : Chip} {report : Bool} (hb : before.power.shed = []) (hc : c.power.shed = [])
    (ho : c.overCommitted = false) : settlePower before report c =
      if c.committed < before.committed ∨ before.budget < c.budget then setServiceDue true c else c := by
  have hdue (b : Prop) [Decidable b] : (if b then setServiceDue true c else c).overCommitted = false ∧
      (if b then setServiceDue true c else c).power.shed = [] := by
    split
    · exact ⟨ho, hc⟩
    · exact ⟨ho, hc⟩
  specialize hdue (c.committed < before.committed ∨ before.budget < c.budget)
  unfold settlePower
  dsimp only
  rw [pruneShed_of_nil hc, hb]
  generalize (if c.committed < before.committed ∨ before.budget < c.budget then setServiceDue true c else c) = d at hdue ⊢
  obtain ⟨hover, hshed⟩ := hdue
  rw [hover, if_neg Bool.false_ne_true, hshed]
  exact (if_neg fun h => nomatch h.2).trans (setShed_of_eq hshed)

/-- R112: an event that moves a figure of R90 one way and leaves the chassis over-committed, with nothing on the shed list. -/
theorem settlePower_starts {before : Chip} {report : Bool} (hc : c.power.shed = []) (ho : c.overCommitted = true)
    (hmore : ¬ (c.committed < before.committed ∨ before.budget < c.budget))
    (hless : before.committed < c.committed ∨ c.budget < before.budget) :
    settlePower before report c = startShedding c := by
  unfold settlePower
  dsimp only
  rw [pruneShed_of_nil hc, if_neg hmore, ho, if_pos rfl, hc]
  exact if_pos (.inr (.inr (.inr hless)))

/-- R112: a budget that falls below the committed draw starts shedding. -/
theorem settlePower_over {before : Chip} {report : Bool} (hc : c.power.shed = []) (ho : c.overCommitted = true)
    (hcommitted : c.committed = before.committed) (hbudget : c.budget < before.budget) :
    settlePower before report c = startShedding c := settlePower_starts hc ho (by omega) (.inr hbudget)

/-! ## A queue that is served, and one whose head waits (R97 to R100) -/

theorem serveAdmission_eq (k : Fin 16) (grant : Nat) (caps : CapSet) (c : Chip) : serveAdmission k grant caps c =
    post (.grantRequest k grant (levelFor (c.slot k).terms grant)) (setGrant k { c.grant k with
      grant := grant, level := levelFor (c.slot k).terms grant, capSet := caps, stage := .settling } c) := by
  have hwrite : writeGrant k grant (modGrant k (fun g => { g with stage := .settling, capSet := caps }) c) =
      setGrant k { c.grant k with
        grant := grant, level := levelFor (c.slot k).terms grant, capSet := caps, stage := .settling } c :=
    modGrant_setGrant ..
  unfold serveAdmission
  dsimp only
  rw [hwrite, grant_setGrant_self]

theorem serveHead_admission (hk : e.kind = .admission) (hn : (e.need : Int) ≤ c.available) :
    serveHead e c = some (serveAdmission e.slot (c.runDraw e.slot) .empty c) := by
  unfold serveHead
  rw [hk]
  exact if_pos hn

theorem serveHead_floor (hk : e.kind = .admission) (hn : c.available < e.need) (hs : c.settings.floorAdmission = true)
    (hf : 0 < c.floorDraw e.slot) (ha : (c.floorDraw e.slot : Int) ≤ c.available) :
    serveHead e c = some (serveAdmission e.slot (c.floorDraw e.slot) .onlyBudget c) := by
  unfold serveHead
  rw [hk]
  dsimp only
  rw [if_neg (Int.not_le.2 hn), if_pos ⟨hs, hf, ha⟩]

/-- R97: a queue whose head cannot be served, at the end of an event with nothing to shed. -/
theorem queueService_blocked {rest : List QueueEntry} (hq : c.power.queue = e :: rest) (hw : c.waits e)
    (hf : ∀ x ∈ c.power.queue, x.fresh = false) : queueService c = setServiceDue false c := by
  have hserved : (if c.power.serviceDue ∧ c.power.shed.isEmpty then serveQueue c.power.queue c else c) = c := by
    split
    · rw [hq]
      simp only [serveQueue, serveHead_of_waits hw]
      rw [← hq]
      rfl
    · rfl
  unfold queueService
  simp only [hserved]
  rw [map_clearFresh hf]
  rfl

/-! ## PSU_PG (Table 30) -/

theorem setSupply_setSupply (b : Fin 6) (p q : Supply) (c : Chip) : setSupply b q (setSupply b p c) = setSupply b q c := by
  show { c with power := { c.power with supplies := (c.power.supplies.put b p).put b q } } = _
  rw [Bank.put_put]
  rfl

theorem modSupply_setSupply (b : Fin 6) (f : Supply → Supply) (p : Supply) (c : Chip) :
    modSupply b f (setSupply b p c) = setSupply b (f p) c := by
  rw [modSupply, setSupply_setSupply, supply_setSupply_self]

/-- Table 30: the record of a supply whose PSU_PG changes. -/
def Supply.pgChanged (level : Bool) (p : Supply) : Supply :=
  match p.state, level with
  | .starting, true => { p with powerGood := true, state := .online, startDelay := false }
  | .online, false => ({ p with powerGood := false } : Supply).fails .lost
  | _, _ => { p with powerGood := level }

theorem Supply.pgChanged_rises {p : Supply} (hs : p.state = .starting) :
    p.pgChanged true = { p with powerGood := true, state := .online, startDelay := false } := by
  unfold pgChanged
  rw [hs]

theorem Supply.pgChanged_falls {p : Supply} (hs : p.state = .online) :
    p.pgChanged false = ({ p with powerGood := false } : Supply).fails .lost := by
  unfold pgChanged
  rw [hs]

theorem Supply.pgChanged_stays {p : Supply} {level : Bool} (hr : p.state = .starting → level = true → False)
    (hf : p.state = .online → level = false → False) : p.pgChanged level = { p with powerGood := level } := by
  unfold pgChanged
  split
  · next hst => exact (hr hst rfl).elim
  · next hst => exact (hf hst rfl).elim
  · rfl

theorem psuPgChanged_rises (hp : (c.supply b).powerGood = false) (hs : (c.supply b).state = .starting) :
    psuPgChanged b true c = settlePower (setSupply b { c.supply b with powerGood := true } c) false
      (setSupply b { c.supply b with powerGood := true, state := .online, startDelay := false } c) := by
  unfold psuPgChanged
  rw [hp, if_neg (by decide), hs]
  have hset := modSupply_setSupply b (fun p => { p with state := .online, startDelay := false })
    { c.supply b with powerGood := true } c
  show settlePower _ false (modSupply b (fun p => { p with state := .online, startDelay := false })
    (setSupply b { c.supply b with powerGood := true } c)) = _
  rw [hset]
  rfl

theorem failSupply_eq (b : Fin 6) (x : SupplyFail) (c : Chip) : failSupply b x c =
    settlePower c false (raise (.supply b) .supplyFailed (modSupply b (Supply.fails · x) c)) := rfl

theorem psuPgChanged_falls (hp : (c.supply b).powerGood = true) (hs : (c.supply b).state = .online) :
    psuPgChanged b false c = settlePower (setSupply b { c.supply b with powerGood := false } c) false
      (raise (.supply b) .supplyFailed (setSupply b (({ c.supply b with powerGood := false } : Supply).fails .lost) c)) := by
  unfold psuPgChanged
  rw [hp, if_neg (by decide), hs]
  have hmod : modSupply b (fun p => { p with powerGood := false }) c =
      setSupply b { c.supply b with powerGood := false } c := rfl
  dsimp only
  rw [hmod, failSupply_eq, modSupply_setSupply]

theorem psuPgChanged_stays {level : Bool} (hp : (c.supply b).powerGood = !level)
    (hs : (c.supply b).state = .starting → level = false) (ho : (c.supply b).state = .online → level = true) :
    psuPgChanged b level c = modSupply b (fun p => { p with powerGood := level }) c := by
  have hne : ¬ (c.supply b).powerGood = level := by
    rw [hp]
    cases level <;> decide
  unfold psuPgChanged
  rw [if_neg hne]
  cases hst : (c.supply b).state
  case starting =>
    rw [hs hst]
  case online =>
    rw [ho hst]
  all_goals rfl

theorem psuPgChanged_written {level : Bool} (hp : (c.supply b).powerGood = !level) :
    c.SupplyWritten b ((c.supply b).pgChanged level) (psuPgChanged b level c) ∧
      ((c.supply b).state = .online → level = false → (psuPgChanged b level c).alerted (.supply b) .supplyFailed) := by
  have hset (p q : Supply) (o : Chip) (ho : c.SupplyWritten b p o) : c.SupplyWritten b q (setSupply b q o) :=
    ho.modSupply fun _ => q
  have hsettle {p : Supply} {before o : Chip} (ho : c.SupplyWritten b p o) :
      c.SupplyWritten b p (settlePower before false o) :=
    ho.of_sources (o.sameSources_keeps.settlePower before false (.refl o))
      (c.sameButPower_keeps.settlePower before false ho.frame)
  by_cases h1 : (c.supply b).state = .starting ∧ level = true
  · obtain ⟨hs, rfl⟩ := h1
    rw [psuPgChanged_rises hp hs, Supply.pgChanged_rises hs]
    exact ⟨hsettle (hset _ _ _ (.refl c b)), nofun⟩
  · by_cases h2 : (c.supply b).state = .online ∧ level = false
    · obtain ⟨hs, rfl⟩ := h2
      rw [psuPgChanged_falls hp hs, Supply.pgChanged_falls hs]
      refine ⟨hsettle ((hset _ _ _ (.refl c b)).raise ..), fun _ _ => ?_⟩
      exact PowerKeeps.settlePower (P := fun t => t.alerted (.supply b) .supplyFailed)
        (Chip.alerted_keeps (.supply b) .supplyFailed).toPowerKeeps _ _ (alerted_raise _ _ _)
    · have hstay := Supply.pgChanged_stays (p := c.supply b) (level := level) (fun h hl => h1 ⟨h, hl⟩) fun h hl => h2 ⟨h, hl⟩
      rw [psuPgChanged_stays hp (fun hs => Bool.eq_false_iff.2 fun hl => h1 ⟨hs, hl⟩)
        (fun ho => Bool.eq_true_of_not_eq_false fun hl => h2 ⟨ho, hl⟩), hstay]
      exact ⟨(Chip.SupplyWritten.refl c b).modSupply fun p => { p with powerGood := level }, fun ho hl => absurd ⟨ho, hl⟩ h2⟩

end Sys2Proof.Machine

/-!
PROOF. A supply that comes ONLINE and the queue it serves (R97 to R100), a supply that is lost and the shedding it starts (R109,
R112), and the projection walk (R108).
-/

namespace Sys2Proof.Machine

variable {c c' t : Chip} {s : State} {b : Fin 6} {k j : Fin 16} {g : GrantRecord} {e : QueueEntry}

/-! ## A supply that comes ONLINE -/

/-- R80: the part as a supply has come ONLINE. -/
abbrev Chip.broughtOnline (c : Chip) (b : Fin 6) : Chip :=
  setSupply b { c.supply b with powerGood := true, state := .online, startDelay := false } c

section Online

variable (hq : s.chip.quiescent) (hp : (s.chip.supply b).powerGood = false) (hs : (s.chip.supply b).state = .starting)
  (hshed : s.chip.power.shed = []) (hbudget : s.chip.budget < (s.chip.broughtOnline b).budget)
include hp hs hshed hbudget

/-- R97: the budget rises, and the queue is to be served. -/
theorem exec_psuPgChange_online (ha : 0 ≤ (s.chip.broughtOnline b).available) : exec (.psuPgChange b true) s =
    .next (s.onChip (queueService (setServiceDue true (s.chip.broughtOnline b)))) := by
  have hbefore : (setSupply b { s.chip.supply b with powerGood := true } s.chip).budget = s.chip.budget := by
    refine budget_congr (fun j => ?_) rfl
    rw [supply_setSupply]
    split
    · next h =>
      rw [h]
      exact ⟨rfl, rfl⟩
    · exact ⟨rfl, rfl⟩
  have hsettle : psuPgChanged b true s.chip = setServiceDue true (s.chip.broughtOnline b) := by
    have hwithin := settlePower_within (report := false) (c := s.chip.broughtOnline b)
      (before := setSupply b { s.chip.supply b with powerGood := true } s.chip) hshed hshed
      (not_overCommitted_of_available ha)
    rw [psuPgChanged_rises hp hs, hwithin, if_pos]
    rw [hbefore]
    exact .inr hbudget
  exact congrArg (fun c => (Host.Outcome.next (s.onChip (queueService c)) : Result)) hsettle

include hq

/-- R97: the one entry of the queue is served. -/
theorem exec_psuPgChange_served {m : Instr} (hqueue : s.chip.power.queue = [e])
    (ha : 0 ≤ (s.chip.broughtOnline b).available)
    (hserve : serveHead e (setServiceDue true (s.chip.broughtOnline b)) =
      some (post m (setGrant k g (setServiceDue true (s.chip.broughtOnline b))))) : exec (.psuPgChange b true) s =
    .next (s.onChip (setMessages (s.chip.messages ++ [m]) (setGrant k g (setQueue [] (s.chip.broughtOnline b))))) := by
  have hdue : setServiceDue false (s.chip.broughtOnline b) = s.chip.broughtOnline b := setServiceDue_of_due hq.1
  rw [exec_psuPgChange_online hp hs hshed hbudget ha,
    queueService_serves (c := setServiceDue true (s.chip.broughtOnline b)) rfl hshed hqueue hserve]
  conv_rhs => rw [← hdue]
  rfl

theorem exec_psuPgChange_blocked {rest : List QueueEntry} (hqueue : s.chip.power.queue = e :: rest)
    (ha : 0 ≤ (s.chip.broughtOnline b).available) (hw : (s.chip.broughtOnline b).waits e) :
    exec (.psuPgChange b true) s = .next (s.onChip (s.chip.broughtOnline b)) := by
  rw [exec_psuPgChange_online hp hs hshed hbudget ha,
    queueService_blocked (c := setServiceDue true (s.chip.broughtOnline b)) hqueue hw hq.2]
  exact congrArg (fun c => (Host.Outcome.next (s.onChip c) : Result)) (setServiceDue_of_due (c := s.chip.broughtOnline b) hq.1)

omit hq in
/-- R97: two entries that both fit are served in one event. -/
theorem exec_psuPgChange_two {e2 : QueueEntry} (hqueue : s.chip.power.queue = [e, e2]) (hk : e.kind = .admission)
    (hk2 : e2.kind = .admission) (hne : e2.slot ≠ e.slot) (hneed : e.need = s.chip.runDraw e.slot)
    (hfit : (e.need : Int) + e2.need ≤ (s.chip.broughtOnline b).available) :
    ∃ t, exec (.psuPgChange b true) s = .next t ∧ t.chip.power.queue = [] ∧
      (t.chip.grant e.slot).grant = s.chip.runDraw e.slot ∧ (t.chip.grant e2.slot).grant = s.chip.runDraw e2.slot := by
  set o := setServiceDue true (s.chip.broughtOnline b) with ho
  have havail : o.available = (s.chip.broughtOnline b).available := rfl
  have hfirst := serveHead_admission (e := e) (c := o) hk (by omega)
  have hafter : (serveAdmission e.slot (o.runDraw e.slot) .empty o).available = o.available + (o.grant e.slot).grant -
      o.runDraw e.slot := by
    rw [serveAdmission_eq]
    exact available_writes e.slot _ o
  have hrun : o.runDraw e.slot = s.chip.runDraw e.slot := rfl
  have hsecond := serveHead_admission (e := e2) (c := serveAdmission e.slot (o.runDraw e.slot) .empty o) hk2 (by omega)
  have hrun2 : (serveAdmission e.slot (o.runDraw e.slot) .empty o).runDraw e2.slot = s.chip.runDraw e2.slot := rfl
  have hservice : queueService o = setServiceDue false (setQueue [] (serveAdmission e2.slot (s.chip.runDraw e2.slot) .empty
      (serveAdmission e.slot (s.chip.runDraw e.slot) .empty o))) := by
    have hserved : (if o.power.serviceDue ∧ o.power.shed.isEmpty then serveQueue o.power.queue o else o) =
        setQueue [] (serveAdmission e2.slot (s.chip.runDraw e2.slot) .empty
          (serveAdmission e.slot (s.chip.runDraw e.slot) .empty o)) := by
      have hq : o.power.queue = [e, e2] := hqueue
      rw [if_pos ⟨rfl, List.isEmpty_iff.2 hshed⟩, hq]
      simp only [serveQueue, hfirst, hsecond]
      rfl
    unfold queueService
    simp only [hserved]
    rfl
  have hgrant (i : Fin 16) (grant : Nat) (d : Chip) (x : Fin 16) : ((serveAdmission i grant .empty d).grant x).grant =
      if x = i then grant else (d.grant x).grant := by
    rw [serveAdmission_eq]
    show ((setGrant i _ d).grant x).grant = _
    rw [grant_setGrant]
    split <;> rfl
  refine ⟨_, exec_psuPgChange_online hp hs hshed hbudget (by omega), ?_⟩
  dsimp only [State.onChip]
  rw [← ho, hservice]
  refine ⟨rfl, ?_, ?_⟩
  · show ((serveAdmission e2.slot _ .empty _).grant e.slot).grant = _
    rw [hgrant, if_neg hne.symm, hgrant, if_pos rfl]
  · show ((serveAdmission e2.slot _ .empty _).grant e2.slot).grant = _
    rw [hgrant, if_pos rfl]

end Online

/-! ## The projection walk (R108) -/

/-- R108: shed order. -/
theorem shedOrder_pairwise (c : Chip) : c.shedOrder.Pairwise fun i j => ∃ p q, c.effectivePriority i = some p ∧
    c.effectivePriority j = some q ∧ (p < q ∨ (p = q ∧ j < i)) := by
  unfold Chip.shedOrder
  refine List.pairwise_flatMap.2 ⟨fun p _ => ?_, ?_⟩
  · refine List.Pairwise.imp_of_mem (R := fun i j : Fin 16 => j < i) (fun {i j} hi hj h => ?_) ?_
    · exact ⟨p, p, of_decide_eq_true (List.mem_filter.1 hi).2, of_decide_eq_true (List.mem_filter.1 hj).2, .inr ⟨rfl, h⟩⟩
    · exact (List.pairwise_reverse.2 (List.pairwise_lt_finRange 16)).filter _
  · refine List.Pairwise.imp (fun {p q} h i hi j hj => ?_) List.pairwise_lt_range
    exact ⟨p, q, of_decide_eq_true (List.mem_filter.1 hi).2, of_decide_eq_true (List.mem_filter.1 hj).2, .inl h⟩

theorem mem_shedOrder {p : Nat} (h : c.effectivePriority k = some p) (hp : p ≤ 7) : k ∈ c.shedOrder :=
  List.mem_flatMap.2 ⟨p, List.mem_range.2 (by omega), List.mem_filter.2 ⟨List.mem_reverse.2 (List.mem_finRange k),
    decide_eq_true h⟩⟩

/-- R108: a waiting entry of a slot that is a candidate of its kind. -/
structure ShedEntry.Walked (c : Chip) (x : ShedEntry) : Prop where
  waiting : x.acting = false
  cap : x.action = .cap → c.capCandidate x.slot = true
  off : x.action = .off → c.offCandidate x.slot = true

theorem capWalk_walked : ∀ (order : List (Fin 16)) (p : Nat), ∀ x ∈ (capWalk c order p).1, x.Walked c
  | [], _ => nofun
  | j :: order, p => by
    unfold capWalk
    split
    · exact nofun
    · split
      · next hc =>
        intro x hx
        obtain rfl | hx := List.mem_cons.1 hx
        · exact ⟨rfl, fun _ => hc, nofun⟩
        · exact capWalk_walked order _ x hx
      · exact capWalk_walked order p

theorem offWalk_walked : ∀ (order : List (Fin 16)) (p : Nat) (l : List ShedEntry), (∀ x ∈ l, x.Walked c) →
    ∀ x ∈ offWalk c order p l, x.Walked c
  | [], _, _, hl => hl
  | j :: order, p, l, hl => by
    unfold offWalk
    split
    · exact hl
    · split
      · next hc =>
        split
        · refine offWalk_walked order _ _ fun x hx => ?_
          obtain ⟨y, hy, rfl⟩ := List.mem_map.1 hx
          split
          · next hj => exact ⟨(hl y hy).waiting, nofun, fun _ => hj ▸ hc⟩
          · exact hl y hy
        · refine offWalk_walked order _ _ fun x hx => ?_
          obtain hx | hx := List.mem_append.1 hx
          · exact hl x hx
          · rw [List.mem_singleton.1 hx]
            exact ⟨rfl, nofun, fun _ => hc⟩
      · exact offWalk_walked order p l hl

theorem projectionWalk_walked (kept : Option ShedEntry) : ∀ x ∈ c.projectionWalk kept, x.Walked c :=
  offWalk_walked _ _ _ (capWalk_walked _ _)

theorem capCandidate_iff : c.capCandidate k = true ↔ (c.slot k).state = .running ∧ (c.grant k).level = .full ∧
    c.floorDraw k ≠ 0 := decide_eq_true_iff

theorem offCandidate_iff : c.offCandidate k = true ↔ (c.slot k).switchClosed = true ∧ ((c.slot k).state = .powering ∨
    (c.slot k).state = .starting ∨ (c.slot k).state = .running ∨ (c.slot k).state = .adopting) := decide_eq_true_iff

/-- R108 step 1: with no slot that drains or powers down the walk starts from the committed draw. -/
theorem projectionWalk_of_steady (h : ∀ k, (c.slot k).state ≠ .draining ∧ (c.slot k).state ≠ .poweringDown) :
    c.projectionWalk none =
      offWalk c c.shedOrder (capWalk c c.shedOrder c.committed).2 (capWalk c c.shedOrder c.committed).1 := by
  have hfree : ((keys 16).filter fun k => c.freeing k) = [] :=
    List.filter_eq_nil_iff.2 fun k _ hk => (of_decide_eq_true hk).elim (h k).1 (h k).2
  have hproj : c.projectedDraw none = c.committed := by
    unfold Chip.projectedDraw
    rw [hfree]
    rfl
  have horder : (c.shedOrder.filter fun k => decide (Option.map ShedEntry.slot none ≠ some k)) = c.shedOrder :=
    List.filter_eq_self.2 fun k _ => decide_eq_true nofun
  unfold Chip.projectionWalk
  dsimp only
  rw [hproj, horder]

theorem offWalk_within (order : List (Fin 16)) {p : Nat} (l : List ShedEntry) (hp : p ≤ c.budget) :
    offWalk c order p l = l := by
  cases order with
  | nil => rfl
  | cons j order =>
    unfold offWalk
    exact if_pos hp

theorem capWalk_within (order : List (Fin 16)) {p : Nat} (hp : p ≤ c.budget) : capWalk c order p = ([], p) := by
  cases order with
  | nil => rfl
  | cons j order =>
    unfold capWalk
    exact if_pos hp

theorem capWalk_candidate {order : List (Fin 16)} {p : Nat} (hp : c.budget < p) (hj : c.capCandidate j = true) :
    capWalk c (j :: order) p = ({ slot := j, action := .cap, acting := false } ::
      (capWalk c order (p - ((c.grant j).grant - c.floorDraw j))).1,
      (capWalk c order (p - ((c.grant j).grant - c.floorDraw j))).2) := by
  rw [capWalk, if_neg (Nat.not_le.2 hp), if_pos hj]

theorem offWalk_capped {order : List (Fin 16)} {p : Nat} {l : List ShedEntry} (hp : c.budget < p)
    (hj : c.offCandidate j = true) (hl : (l.any fun e => decide (e.slot = j)) = true) : offWalk c (j :: order) p l =
      offWalk c order (p - c.floorDraw j) (l.map fun e => if e.slot = j then { e with action := .off } else e) := by
  rw [offWalk, if_neg (Nat.not_le.2 hp), if_pos hj, if_pos hl]

/-- R108: two candidates of both kinds, in shed order. -/
theorem projectionWalk_two (h : ∀ k, (c.slot k).state ≠ .draining ∧ (c.slot k).state ≠ .poweringDown)
    (horder : c.shedOrder = [j, k]) (hne : j ≠ k) (hj : c.capCandidate j = true) (hk : c.capCandidate k = true)
    (hoj : c.offCandidate j = true) (hok : c.offCandidate k = true) (hover : c.budget < c.committed) {p1 p2 : Nat}
    (h1 : c.committed - ((c.grant j).grant - c.floorDraw j) = p1) (h2 : p1 - ((c.grant k).grant - c.floorDraw k) = p2)
    {entry : Fin 16 → ShedAction → ShedEntry} (hentry : ∀ k x, entry k x = { slot := k, action := x, acting := false }) :
    c.projectionWalk none =
      if p1 ≤ c.budget then [entry j .cap]
      else if p2 ≤ c.budget then [entry j .cap, entry k .cap]
      else if p2 - c.floorDraw j ≤ c.budget then [entry j .off, entry k .cap]
      else [entry j .off, entry k .off] := by
  rw [projectionWalk_of_steady h, horder, capWalk_candidate hover hj, h1]
  simp only [hentry]
  by_cases hp1 : p1 ≤ c.budget
  · rw [capWalk_within _ hp1, if_pos hp1]
    exact offWalk_within _ _ hp1
  have hp1' := Nat.not_le.1 hp1
  rw [capWalk_candidate hp1' hk, h2, if_neg hp1]
  dsimp only [capWalk]
  by_cases hp2 : p2 ≤ c.budget
  · rw [if_pos hp2]
    exact offWalk_within _ _ hp2
  rw [if_neg hp2, offWalk_capped (Nat.not_le.1 hp2) hoj (by simp)]
  simp only [List.map_cons, List.map_nil, if_true, if_neg hne.symm]
  by_cases hp3 : p2 - c.floorDraw j ≤ c.budget
  · rw [if_pos hp3]
    exact offWalk_within _ _ hp3
  rw [if_neg hp3, offWalk_capped (Nat.not_le.1 hp3) hok (by simp)]
  simp only [List.map_cons, List.map_nil, if_true, if_neg hne]
  rfl

/-! ## Shedding that starts (R109, R112) -/

/-- Table 38: what the head of the queue is served with. -/
theorem serveHead_cases {e : QueueEntry} {c c' : Chip} (hs : serveHead e c = some c') :
    (∃ grant caps, (caps = .empty ∨ caps = .onlyBudget) ∧ c' = serveAdmission e.slot grant caps c) ∨
      c' = serveUplift e.slot c := by
  unfold serveHead at hs
  split at hs
  · split at hs
    · exact .inl ⟨_, _, .inl rfl, (Option.some.inj hs).symm⟩
    · split at hs
      · exact .inl ⟨_, _, .inr rfl, (Option.some.inj hs).symm⟩
      · exact nomatch hs
  · split at hs
    · exact .inr (Option.some.inj hs).symm
    · exact nomatch hs

/-- R97: the service of the queue, head by head. -/
theorem queueService_of_heads {P : Chip → Prop}
    (hhead : ∀ e ∈ c.power.queue, ∀ d d', serveHead e d = some d' → P d → P d') (hqueue : ∀ q c, P c → P (setQueue q c))
    (hdue : ∀ b c, P c → P (setServiceDue b c)) (hc : P c) : P (queueService c) := by
  have hserve (q : List QueueEntry) : ∀ d, (∀ e ∈ q, ∀ d d', serveHead e d = some d' → P d → P d') → P d →
      P (serveQueue q d) := by
    induction q with
    | nil => exact fun d _ hd => hqueue _ _ hd
    | cons e rest ih =>
      intro d hq hd
      unfold serveQueue
      split
      · next hs => exact ih _ (fun x hx => hq x (List.mem_cons_of_mem e hx)) (hq e List.mem_cons_self _ _ hs hd)
      · exact hqueue _ _ hd
  exact hdue _ _ (hqueue _ _ (ite_keeps (hserve _ _ hhead hc) hc))

/-- R97: the service of the queue writes grants, the queue and messages alone. -/
theorem queueService_keeps {P : Chip → Prop} (hgrant : ∀ k g c, P c → P (setGrant k g c))
    (hqueue : ∀ q c, P c → P (setQueue q c)) (hdue : ∀ b c, P c → P (setServiceDue b c))
    (hpost : ∀ m c, P c → P (post m c)) (hc : P c) : P (queueService c) := by
  refine queueService_of_heads (fun e _ d d' hs hd => ?_) hqueue hdue hc
  obtain ⟨grant, caps, -, rfl⟩ | rfl := serveHead_cases hs
  · rw [serveAdmission_eq]
    exact hpost _ _ (hgrant _ _ _ hd)
  · rw [serveUplift_eq]
    exact hpost _ _ (hgrant _ _ _ hd)

theorem shed_queueService (c : Chip) : (queueService c).power.shed = c.power.shed :=
  queueService_keeps (P := fun t => t.power.shed = c.power.shed) (fun _ _ _ h => h) (fun _ _ h => h) (fun _ _ h => h)
    (fun _ _ h => h) rfl

/-- R109: what a CAP asked for in shedding leaves. -/
theorem capForShed_leaves (k : Fin 16) (c : Chip) : (capForShed k c).power.shed = c.power.shed ∧
    ((capForShed k c).grant k).capSet.budget = true ∧
    ((c.grant k).capRequest = none → ((capForShed k c).grant k).capRequest = some .onlyBudget ∧
      Instr.capRequest k (c.floorDraw k) ∈ (capForShed k c).messages) := by
  refine ⟨?_, ?_, fun hr => ?_⟩
  · exact capForShed_keeps (P := fun t => t.power.shed = c.power.shed) (fun _ _ h => h) (fun _ _ h => h) (fun _ _ h => h)
      fun _ => rfl
  · refine capForShed_keeps (P := fun t => (t.grant k).capSet.budget = true) (fun _ _ h => h) (fun _ _ h => h)
      (fun _ _ h => h) fun _ => ?_
    rw [grant_setGrant_self]
    rfl
  · unfold capForShed
    dsimp only
    rw [hr]
    refine alignUplift_keeps (P := fun t => (t.grant k).capRequest = some .onlyBudget ∧
      Instr.capRequest k (c.floorDraw k) ∈ t.messages) (fun _ _ h => h) (fun _ _ h => h) k ⟨?_, ?_⟩
    · show ((setGrant k _ c).grant k).capRequest = _
      rw [grant_setGrant_self]
      rfl
    · exact List.mem_append_right _ List.mem_cons_self

theorem actHead_cap {e : ShedEntry} {rest : List ShedEntry} (ha : e.action = .cap) : actHead (setShed (e :: rest) c) =
    capForShed e.slot (setShed ({ e with acting := true } :: rest) c) := by
  unfold actHead setShed
  dsimp only
  rw [ha]

theorem actHead_off {e : ShedEntry} {rest : List ShedEntry} (ha : e.action = .off) : actHead (setShed (e :: rest) c) =
    post (.shedOffAction e.slot) (setShed ({ e with acting := true } :: rest) c) := by
  unfold actHead setShed
  dsimp only
  rw [ha]

theorem capWalk_raise (o : AlertObject) (x : Cause) (c : Chip) :
    ∀ (order : List (Fin 16)) (p : Nat), capWalk (raise o x c) order p = capWalk c order p
  | [], _ => rfl
  | j :: order, p => by
    unfold capWalk
    rw [capWalk_raise o x c order, capWalk_raise o x c order]
    rfl

theorem offWalk_raise (o : AlertObject) (x : Cause) (c : Chip) :
    ∀ (order : List (Fin 16)) (p : Nat) (l : List ShedEntry), offWalk (raise o x c) order p l = offWalk c order p l
  | [], _, _ => rfl
  | j :: order, p, l => by
    unfold offWalk
    rw [offWalk_raise o x c order, offWalk_raise o x c order, offWalk_raise o x c order]
    rfl

/-- R108: a raised cause moves no figure of the walk. -/
theorem projectionWalk_raise (o : AlertObject) (x : Cause) (c : Chip) (kept : Option ShedEntry) :
    (raise o x c).projectionWalk kept = c.projectionWalk kept := by
  unfold Chip.projectionWalk
  dsimp only
  rw [capWalk_raise, offWalk_raise]
  rfl

/-- R112: shedding that starts with nothing to shed. -/
theorem startShedding_exhausted (hw : c.projectionWalk none = []) :
    startShedding c = if c.totalGrants = 0 then raise .chassis .budgetExhausted c else c := by
  unfold startShedding
  rw [hw]

/-- R109, R110, R112: shedding that starts with an entry, which acts. -/
theorem startShedding_acts {e : ShedEntry} {rest : List ShedEntry} (hw : c.projectionWalk none = e :: rest) :
    (startShedding c).power.shed = { e with acting := true } :: rest ∧
      (e.action = .cap → ((startShedding c).grant e.slot).capSet.budget = true ∧
        ((c.grant e.slot).capRequest = none →
          ((startShedding c).grant e.slot).capRequest = some .onlyBudget ∧
          Instr.capRequest e.slot (c.floorDraw e.slot) ∈ (startShedding c).messages)) ∧
      (e.action = .off → Instr.shedOffAction e.slot ∈ (startShedding c).messages) := by
  have hstart : startShedding c = actHead (setShed (e :: rest) c) := by
    unfold startShedding
    rw [hw]
  obtain ⟨hshed, hbudget, hrequest⟩ := capForShed_leaves e.slot (setShed ({ e with acting := true } :: rest) c)
  rw [hstart]
  by_cases ha : e.action = .cap
  · rw [actHead_cap ha]
    exact ⟨hshed, fun _ => ⟨hbudget, hrequest⟩, fun ho => nomatch ha.symm.trans ho⟩
  · have ho : e.action = .off := by
      cases h : e.action
      · exact absurd h ha
      · rfl
    rw [actHead_off ho]
    exact ⟨rfl, fun h => absurd h ha, fun _ => List.mem_append_right _ List.mem_cons_self⟩

/-- R112: what shedding that starts leaves, by the walk. -/
theorem startShedding_leaves (hs : c.power.shed = []) :
    (c.projectionWalk none = [] → (queueService (startShedding c)).power.shed = [] ∧
      (c.totalGrants = 0 → (queueService (startShedding c)).alerted .chassis .budgetExhausted)) ∧
    (∀ e rest, c.projectionWalk none = e :: rest →
      (queueService (startShedding c)).power.shed = { e with acting := true } :: rest ∧
      (e.action = .cap → ((queueService (startShedding c)).grant e.slot).capSet.budget = true ∧
        ((c.grant e.slot).capRequest = none →
          ((queueService (startShedding c)).grant e.slot).capRequest = some .onlyBudget ∧
          Instr.capRequest e.slot (c.floorDraw e.slot) ∈ (queueService (startShedding c)).messages)) ∧
      (e.action = .off → Instr.shedOffAction e.slot ∈ (queueService (startShedding c)).messages)) := by
  refine ⟨fun hw => ?_, fun e rest hw => ?_⟩
  · rw [shed_queueService, startShedding_exhausted hw]
    refine ⟨ite_keeps (P := fun t => t.power.shed = []) hs hs, fun h0 => ?_⟩
    rw [if_pos h0]
    exact Chip.alerted.queueService (alerted_raise _ _ _)
  · have hact := startShedding_acts hw
    rw [queueService_waiting (.inl (by rw [hact.1]; exact nofun))]
    exact hact

/-- R79, R112: a supply lost that over-commits the chassis. -/
theorem exec_psuPgChange_lost (hp : (s.chip.supply b).powerGood = true) (hs : (s.chip.supply b).state = .online)
    (hshed : s.chip.power.shed = []) (hwithin : s.chip.overCommitted = false)
    (hover : (setSupply b (({ s.chip.supply b with powerGood := false } : Supply).fails .lost) s.chip).overCommitted = true) :
    exec (.psuPgChange b false) s = .next (s.onChip (queueService (startShedding (raise (.supply b) .supplyFailed
      (setSupply b (({ s.chip.supply b with powerGood := false } : Supply).fails .lost) s.chip))))) := by
  have hbefore : (setSupply b { s.chip.supply b with powerGood := false } s.chip).budget = s.chip.budget := by
    refine budget_congr (fun j => ?_) rfl
    rw [supply_setSupply]
    split
    · next h =>
      rw [h]
      exact ⟨rfl, rfl⟩
    · exact ⟨rfl, rfl⟩
  have hbudget : s.chip.committed ≤ s.chip.budget := Nat.not_lt.1 (of_decide_eq_false hwithin)
  have hlost := overCommitted_iff.1 hover
  have hsettle := settlePower_over (report := false)
    (before := setSupply b { s.chip.supply b with powerGood := false } s.chip)
    (c := raise (.supply b) .supplyFailed
      (setSupply b (({ s.chip.supply b with powerGood := false } : Supply).fails .lost) s.chip)) hshed hover rfl
    (by rw [hbefore]; exact Nat.lt_of_lt_of_le hlost hbudget)
  rw [← psuPgChanged_falls hp hs] at hsettle
  exact congrArg (fun c => (Host.Outcome.next (s.onChip (queueService c)) : Result)) hsettle

/-- Settles O27, signal by signal. -/
theorem supplySignalsByState : Obligations.SupplySignalsByState := by
  refine ⟨fun s b level hp => ?changes, fun s b hd hs => ?expires, fun s b e rest hq hp hs hshed hqueue => ?serves,
    fun s b hq hp hs hshed hwithin => ?sheds, fun c => ?walks⟩
  case changes =>
    obtain ⟨hwritten, halert⟩ := psuPgChanged_written hp
    have h := hwritten.queueService
    refine ⟨s.onChip (queueService (psuPgChanged b level s.chip)), rfl, ?_, ?_, h.others, h.frame.slots, h.frame.engines,
      h.frame.modules, h.frame.inventory, h.frame.fans, h.frame.hub⟩
    · have hgood : ((s.chip.supply b).pgChanged level).powerGood = level := by
        unfold Supply.pgChanged
        split <;> rfl
      exact (congrArg Supply.powerGood h.supply).trans hgood
    · have hrecord := h.supply
      dsimp only [State.onChip]
      split
      · next hst =>
        rw [Supply.pgChanged_rises hst] at hrecord
        exact hrecord
      · next hst =>
        rw [Supply.pgChanged_falls hst] at hrecord
        exact ⟨hrecord, Chip.alerted.queueService (halert hst rfl)⟩
      · next hrise hfall =>
        rw [Supply.pgChanged_stays hrise hfall] at hrecord
        exact hrecord
  case expires =>
    have hwritten := ((Chip.SupplyWritten.refl s.chip b).failSupply .noOutput).queueService
    have hexpired : startDelayExpired b s.chip = failSupply b .noOutput s.chip := if_pos ⟨hs, hd⟩
    refine ⟨_, congrArg (fun c => (Host.Outcome.next (s.onChip (queueService c)) : Result)) hexpired, hwritten.supply,
      Chip.alerted.queueService (alerted_failSupply b .noOutput _), hwritten.others, hwritten.frame.slots,
      hwritten.frame.engines, hwritten.frame.modules, hwritten.frame.inventory, hwritten.frame.fans, hwritten.frame.hub⟩
  case serves =>
    intro k g run floor online served hbudget
    have ho (e : QueueEntry) (h : (e.need : Int) ≤ online.available) : 0 ≤ online.available := by omega
    refine ⟨fun hk hn hr => ?_, fun hk hn hfloor hf ha hr => ?_, fun hk hn hr => ?_,
      fun e2 hr hk hk2 hne hneed hfit => ?_, fun ha hn hw => ?_⟩
    · subst hr
      refine exec_psuPgChange_served hq hp hs hshed hbudget hqueue (ho e hn) ?_
      rw [serveHead_admission (c := setServiceDue true (s.chip.broughtOnline b)) hk hn, serveAdmission_eq, levelFor_runDraw]
      rfl
    · subst hr
      refine exec_psuPgChange_served hq hp hs hshed hbudget hqueue (Int.le_trans (Int.natCast_nonneg floor) ha) ?_
      rw [serveHead_floor (c := setServiceDue true (s.chip.broughtOnline b)) hk hn hfloor hf ha, serveAdmission_eq,
        levelFor_floorDraw (c := setServiceDue true (s.chip.broughtOnline b)) hf]
      rfl
    · subst hr
      refine exec_psuPgChange_served hq hp hs hshed hbudget hqueue (ho e hn) ?_
      rw [serveHead_uplift (c := setServiceDue true (s.chip.broughtOnline b)) hk hn, serveUplift_eq, levelFor_runDraw]
      rfl
    · subst hr
      exact exec_psuPgChange_two hp hs hshed hbudget hqueue hk hk2 hne hneed hfit
    · refine exec_psuPgChange_blocked hq hp hs hshed hbudget hqueue ha ⟨hn, fun hk => ?_⟩
      rcases hw with hw | hw
      · exact nomatch hk.symm.trans hw
      · exact hw
  case sheds =>
    intro lost hover
    have hstart := startShedding_leaves (c := raise (.supply b) .supplyFailed lost) hshed
    rw [projectionWalk_raise] at hstart
    exact ⟨_, exec_psuPgChange_lost hp hs hshed hwithin hover, hstart⟩
  case walks =>
    intro cap off entry
    refine ⟨shedOrder_pairwise c, fun k p => mem_shedOrder, fun e he => ?_, fun h => ⟨fun hle => ?_, ?_⟩⟩
    · obtain ⟨hwaiting, hcap, hoff⟩ := projectionWalk_walked none e he
      exact ⟨hwaiting, fun ha => capCandidate_iff.1 (hcap ha), fun ha => offCandidate_iff.1 (hoff ha)⟩
    · rw [projectionWalk_of_steady h, capWalk_within _ hle]
      exact offWalk_within _ _ hle
    · intro j k horder hne hj hk hoj hok hover p1 p2
      exact projectionWalk_two h horder hne (capCandidate_iff.2 hj) (capCandidate_iff.2 hk) (offCandidate_iff.2 hoj)
        (offCandidate_iff.2 hok) hover rfl rfl fun _ _ => rfl

end Sys2Proof.Machine

/-!
PROOF. What settling an event and serving the queue leave of one slot's grant and place in the queue (R90, R97, R108 to R112),
and the reports of settlements, caps and uncaps to the power unit (R99, R100, R103, R109).
-/

namespace Sys2Proof.Machine

variable {c t before : Chip} {s : State} {k j : Fin 16} {g : GrantRecord} {report : Bool}

/-! ## The queue entries of other slots -/

theorem mem_insertEntry_iff {e x : QueueEntry} : ∀ {q : List QueueEntry}, x ∈ insertEntry e q ↔ x = e ∨ x ∈ q
  | [] => List.mem_cons
  | y :: q => by
    unfold insertEntry
    split
    · exact List.mem_cons
    · rw [List.mem_cons, mem_insertEntry_iff, List.mem_cons]
      exact or_left_comm

/-- R95: bringing one slot into line leaves the entries of the others. -/
theorem mem_queue_alignUplift {x : QueueEntry} (hx : x.slot ≠ j) :
    x ∈ (alignUplift j c).power.queue ↔ x ∈ c.power.queue := by
  have hleave : x ∈ (leaveQueue j c).power.queue ↔ x ∈ c.power.queue := by
    unfold leaveQueue
    split
    · exact Iff.rfl
    · exact List.mem_filter.trans (and_iff_left (decide_eq_true hx))
  have hmap (n : Nat) : x ∈ (c.power.queue.map fun e => if e.slot = j then { e with need := n } else e) ↔
      x ∈ c.power.queue := by
    refine List.mem_map.trans ⟨fun ⟨y, hy, heq⟩ => ?_, fun h => ⟨x, h, if_neg hx⟩⟩
    split at heq
    · next hj => exact absurd (heq ▸ hj) hx
    · exact heq ▸ hy
  have hjoin (n : Nat) : x ∈ (joinQueue j .uplift n c).power.queue ↔ x ∈ c.power.queue :=
    mem_insertEntry_iff.trans (or_iff_right fun h => hx (congrArg QueueEntry.slot h))
  unfold alignUplift
  dsimp only
  split
  · split
    · exact hjoin _
    · exact hmap _
  · split
    · split
      · exact hleave
      · exact Iff.rfl
    · exact Iff.rfl

theorem mem_queue_capForShed {x : QueueEntry} (hx : x.slot ≠ j) :
    x ∈ (capForShed j c).power.queue ↔ x ∈ c.power.queue := by
  unfold capForShed
  dsimp only
  split
  · exact mem_queue_alignUplift hx
  · exact mem_queue_alignUplift hx

theorem grant_capForShed (h : k ≠ j) : (capForShed j c).grant k = c.grant k :=
  capForShed_keeps (P := fun t => t.grant k = c.grant k) (fun _ _ h => h) (fun _ _ h => h) (fun _ _ h => h)
    fun _ => by rw [grant_setGrant, if_neg h]

/-- R109: a CAP asked for in shedding moves no grant. -/
theorem available_capForShed (j : Fin 16) (c : Chip) : (capForShed j c).available = c.available :=
  capForShed_keeps (P := fun t => t.available = c.available) (fun _ _ h => h) (fun _ _ h => h) (fun _ _ h => h)
    fun _ => available_setGrant rfl

theorem overCommitted_iff_available : c.overCommitted = true ↔ c.available < 0 :=
  ⟨available_of_overCommitted, fun h => Bool.eq_true_of_not_eq_false fun ho => by
    have hle := Nat.le_of_not_lt (of_decide_eq_false ho)
    unfold Chip.available at h
    omega⟩

/-! ## Settling around a slot that is not capped -/

/-- A property that settling an event does not disturb as long as it caps slots other than one. -/
structure SettlesAround (k : Fin 16) (P : Chip → Prop) : Prop where
  capForShed : ∀ j c, j ≠ k → P c → P (capForShed j c)
  setShed : ∀ l c, P c → P (setShed l c)
  setServiceDue : ∀ b c, P c → P (setServiceDue b c)
  raise : ∀ o x c, P c → P (raise o x c)
  post : ∀ m c, P c → P (post m c)

namespace SettlesAround

variable {P : Chip → Prop} (h : SettlesAround k P)
include h

theorem actHead (hl : ∀ e ∈ c.power.shed, e.action = .cap → e.slot ≠ k) (hc : P c) : P (actHead c) := by
  unfold Machine.actHead
  split
  · exact hc
  · next e rest hs =>
    dsimp only
    split
    · next ha => exact h.capForShed _ _ (hl e (hs ▸ List.mem_cons_self) ha) (h.setShed _ _ hc)
    · exact h.post _ _ (h.setShed _ _ hc)

theorem startShedding (hno : c.capCandidate k = false) (hc : P c) : P (startShedding c) := by
  unfold Machine.startShedding
  split
  · exact ite_keeps (h.raise _ _ _ hc) hc
  · refine h.actHead (fun e he ha hk => ?_) (h.setShed _ _ hc)
    exact Bool.false_ne_true ((hk ▸ hno).symm.trans ((projectionWalk_walked none e he).cap ha))

/-- R90, R109, R112: a slot that is no candidate for a CAP and stands on the shed list for none is not capped. -/
theorem settlePower (before : Chip) (report : Bool) (hno : c.capCandidate k = false)
    (hl : ∀ e ∈ (pruneShed c).power.shed, e.action = .cap → e.slot ≠ k) (hc : P c) : P (settlePower before report c) := by
  unfold Machine.settlePower
  extract_lets c1 emptied more less c2 kept c3
  have h1 : P c1 := h.setShed _ _ hc
  have h2 : P c2 := ite_keeps (h.setServiceDue _ _ h1) h1
  have h3 : P c3 := h.setShed _ _ h2
  have h2s : c2.power.shed = (pruneShed c).power.shed ∧ c2.capCandidate k = c.capCandidate k := by
    unfold c2
    split
    · exact ⟨rfl, rfl⟩
    · exact ⟨rfl, rfl⟩
  obtain ⟨hs2, hno2⟩ := h2s
  have hl2 : ∀ e ∈ c2.power.shed, e.action = .cap → e.slot ≠ k := fun e he => hl e (hs2.subst (motive := (e ∈ ·)) he)
  refine ite_keeps ?_ (ite_keeps (h.setServiceDue _ _ h3) h3)
  split
  · exact ite_keeps (ite_keeps (h.setShed _ _ h2) h2) (h.actHead hl2 h2)
  · exact ite_keeps (h.startShedding (hno2.trans hno) h2) h2

end SettlesAround

/-- R97: a queue without an entry of a slot writes the grants of the others. -/
theorem queueService_around {P : Chip → Prop} (hgrant : ∀ j g c, j ≠ k → P c → P (setGrant j g c))
    (hqueue : ∀ q c, P c → P (setQueue q c)) (hdue : ∀ b c, P c → P (setServiceDue b c))
    (hpost : ∀ m c, P c → P (post m c)) (hq : ∀ e ∈ c.power.queue, e.slot ≠ k) (hc : P c) : P (queueService c) := by
  refine queueService_of_heads (fun e he d d' hs hd => ?_) hqueue hdue hc
  obtain ⟨grant, caps, -, rfl⟩ | rfl := serveHead_cases hs
  · rw [serveAdmission_eq]
    exact hpost _ _ (hgrant _ _ _ (hq e he) hd)
  · rw [serveUplift_eq]
    exact hpost _ _ (hgrant _ _ _ (hq e he) hd)

/-- R97, R100: while the chassis is over-committed nothing is served. -/
theorem queueService_overCommitted (h : c.overCommitted = true) : queueService c =
    setServiceDue false (setQueue (c.power.queue.map fun e => { e with fresh := false }) c) := by
  have ha := available_of_overCommitted h
  refine queueService_waiting (.inr fun e _ => ⟨?_, fun _ => .inr (.inr ?_)⟩)
  · exact lt_of_lt_of_le ha (Int.natCast_nonneg _)
  · exact lt_of_lt_of_le ha (Int.natCast_nonneg _)

/-! ## Settling with entries on the shed list -/

/-- R112: the head of a pruned list that waits acts while the chassis is over-committed. -/
theorem settlePower_off {rest : List ShedEntry} (hp : c.power.shed.filter c.keepsShedEntry =
      { slot := j, action := .off, acting := false } :: rest) (ho : c.overCommitted = true) :
    ∃ b, settlePower before report c = post (.shedOffAction j)
      (setShed ({ slot := j, action := .off, acting := true } :: rest) (setServiceDue b c)) := by
  have hact (b : Bool) := actHead_off (c := setServiceDue b c) (rest := rest)
    (e := { slot := j, action := .off, acting := false }) rfl
  unfold settlePower
  extract_lets c1 emptied more less c2 kept c3
  have h1 : c1 = setShed ({ slot := j, action := .off, acting := false } :: rest) c := congrArg (setShed · c) hp
  obtain ⟨b, hb⟩ : ∃ b, c2 = setShed ({ slot := j, action := .off, acting := false } :: rest) (setServiceDue b c) := by
    unfold c2
    split
    · exact ⟨true, congrArg (setServiceDue true) h1⟩
    · exact ⟨c.power.serviceDue, h1⟩
  have hover : c2.overCommitted = true := by
    rw [hb]
    exact ho
  refine ⟨b, ?_⟩
  rw [if_pos hover, hb]
  exact hact b

/-- R112: an acting head stands through an event that moves neither figure of R90. -/
theorem settlePower_stands {e : ShedEntry} (hs : c.power.shed = [e]) (ha : e.acting = true)
    (hk : (c.slot e.slot).switchClosed = true) (hcommitted : c.committed = before.committed)
    (hbudget : c.budget = before.budget) : settlePower before report c = c := by
  have hkeeps : c.keepsShedEntry e = true := decide_eq_true ⟨hk, .inl ha⟩
  have hprune : pruneShed c = c := by
    unfold pruneShed
    rw [hs, List.filter_cons_of_pos hkeeps, List.filter_nil]
    exact setShed_of_eq hs
  have hmore : ¬ (c.committed < before.committed ∨ before.budget < c.budget) := by omega
  have hover : before.overCommitted = c.overCommitted := by
    unfold Chip.overCommitted
    rw [hcommitted, hbudget]
  have hless : ¬ ((!c.overCommitted) = true ∨ before.committed < c.committed ∨ c.budget < before.budget) ∨
      c.overCommitted = false := by
    cases c.overCommitted
    · exact .inr rfl
    · refine .inl fun h => ?_
      rcases h with h | h
      · exact nomatch h
      · omega
  have hkept : c.power.shed.filter (fun e => e.acting) = [e] := by
    rw [hs, List.filter_cons_of_pos ha, List.filter_nil]
  unfold settlePower
  dsimp only
  rw [hprune, if_neg hmore, hover, hkept]
  split
  · next ho =>
    rw [hs]
    dsimp only
    rw [if_pos ha, if_neg (hless.resolve_right (ho ▸ nofun))]
  · exact (if_neg fun h => nomatch h.1).trans (setShed_of_eq hs)

/-! ## The figures after a grant is written -/

theorem overCommitted_setGrant_congr {g' : GrantRecord} (h : g.grant = g'.grant) :
    (setGrant k g c).overCommitted = (setGrant k g' c).overCommitted := by
  refine Bool.eq_iff_iff.2 ?_
  rw [overCommitted_iff_available, overCommitted_iff_available, available_writes, available_writes, h]

theorem committed_setGrant (h : g.grant = (c.grant k).grant) : (setGrant k g c).committed = c.committed := by
  have ha := available_setGrant (c := c) h
  have hb : (setGrant k g c).budget = c.budget := rfl
  unfold Chip.available at ha
  rw [hb] at ha
  omega

/-! ## Settlement reports (R99) -/

theorem takeSettlement_ignored {o : SettleOutcome} (h : (c.grant k).stage ≠ .settling) : takeSettlement k o c = c := if_neg h

theorem takeSettlement_settled (h : (c.grant k).stage = .settling) : takeSettlement k .settled c = settled k c := if_pos h

theorem takeSettlement_failed (h : (c.grant k).stage = .settling) (hs : (c.slot k).state = .awaitingGrant) :
    takeSettlement k .failed c = toHeld k .noAnswer (failAdmission k c) := by
  have hslot : (failAdmission k c).slot k = c.slot k :=
    (PowerKeeps.failAdmission (c.sameSlots_keeps).toPowerKeeps k (.refl c)).slot k
  unfold takeSettlement
  rw [if_pos h]
  dsimp only [settlementFailed]
  exact if_pos (by rw [hslot]; exact hs)

theorem settled_orders (h : c.overCommitted = false) :
    settled k c = post (.closeOrder k) (setGrant k { c.grant k with stage := .closing } c) :=
  if_neg (by rw [h]; exact Bool.false_ne_true)

/-- R99: the record of a slot that goes back to the queue. -/
abbrev GrantRecord.requeued : GrantRecord := { GrantRecord.reset with stage := .queued }

/-- R99: a slot whose admission waits again while the chassis is over-committed. -/
structure Chip.Requeued (c : Chip) (k : Fin 16) (t : Chip) : Prop where
  grant : t.grant k = .requeued
  entry : ∃ e ∈ t.power.queue, e.slot = k ∧ e.kind = .admission ∧ e.need = c.runDraw k
  exceeded : t.overCommitted = true
  slots : c.SameSlots t

theorem Chip.requeued_settles (c : Chip) (k : Fin 16) : SettlesAround k (c.Requeued k) where
  capForShed j t hj h := by
    obtain ⟨hgrant, ⟨e, he, hk, hrest⟩, hover, hslots⟩ := h
    refine ⟨(grant_capForShed hj.symm).trans hgrant, ⟨e, ?_, hk, hrest⟩, ?_, ?_⟩
    · exact (mem_queue_capForShed (by rw [hk]; exact hj.symm)).2 he
    · rw [overCommitted_iff_available, available_capForShed, ← overCommitted_iff_available]
      exact hover
    · exact PowerKeeps.capForShed c.sameSlots_keeps.toPowerKeeps j hslots
  setShed _ _ h := ⟨h.grant, h.entry, h.exceeded, ⟨h.slots.slots, h.slots.engines, h.slots.inventory⟩⟩
  setServiceDue _ _ h := ⟨h.grant, h.entry, h.exceeded, ⟨h.slots.slots, h.slots.engines, h.slots.inventory⟩⟩
  raise _ _ _ h := ⟨h.grant, h.entry, h.exceeded, ⟨h.slots.slots, h.slots.engines, h.slots.inventory⟩⟩
  post _ _ h := ⟨h.grant, h.entry, h.exceeded, ⟨h.slots.slots, h.slots.engines, h.slots.inventory⟩⟩

theorem requeued_settled (hs : (c.slot k).state = .awaitingGrant) (hw : (c.slot k).switchClosed = false)
    (ho : c.overCommitted = true) (hb : (setGrant k .requeued c).overCommitted = true) : c.Requeued k (settled k c) := by
  have hevent : settled k c = settlePower c true (joinQueue k .admission (c.runDraw k) (setGrant k .requeued c)) := if_pos ho
  have hnew : c.Requeued k (joinQueue k .admission (c.runDraw k) (setGrant k .requeued c)) :=
    ⟨grant_setGrant_self .., ⟨_, mem_insertEntry_iff.2 (.inl rfl), rfl, rfl, rfl⟩, hb, ⟨rfl, rfl, rfl⟩⟩
  rw [hevent]
  refine (c.requeued_settles k).settlePower c true ?_ (fun e he _ hk => ?_) hnew
  · exact Bool.eq_false_iff.2 fun h => nomatch hs.symm.trans (capCandidate_iff.1 h).1
  · obtain ⟨-, hkeeps⟩ := List.mem_filter.1 he
    have hclosed : (c.slot e.slot).switchClosed = true := (of_decide_eq_true hkeeps).1
    rw [hk, hw] at hclosed
    exact Bool.false_ne_true hclosed

theorem Chip.Requeued.queueService (h : c.Requeued k t) : c.Requeued k (queueService t) := by
  obtain ⟨hgrant, ⟨e, he, hk, hkind, hneed⟩, hover, hslots⟩ := h
  rw [queueService_overCommitted hover]
  exact ⟨hgrant, ⟨{ e with fresh := false }, List.mem_map_of_mem he, hk, hkind, hneed⟩, hover,
    ⟨hslots.slots, hslots.engines, hslots.inventory⟩⟩

/-! ## Outcomes of a CAP (R103) -/

theorem takeCapOutcome_ignored {o : LimitOutcome} (h : (c.grant k).capRequest = none) : takeCapOutcome k o c = c := by
  unfold takeCapOutcome
  rw [h]

theorem takeCapOutcome_accepted {q : CapSet} (h : (c.grant k).capRequest = some q) :
    takeCapOutcome k .accepted c = capAccepted k c := by
  unfold takeCapOutcome
  rw [h]

theorem takeCapOutcome_refused {q : CapSet} {o : LimitOutcome} (h : (c.grant k).capRequest = some q)
    (ho : o = .refused ∨ o = .failed) : takeCapOutcome k o c = capRefused k q c := by
  unfold takeCapOutcome
  rw [h]
  rcases ho with rfl | rfl <;> rfl

theorem takeCapOutcome_dropped {q : CapSet} {o : LimitOutcome} (h : (c.grant k).capRequest = some q)
    (ho : o = .superseded ∨ o = .abandoned) :
    takeCapOutcome k o c = setGrant k { c.grant k with capRequest := none } c := by
  unfold takeCapOutcome
  rw [h]
  rcases ho with rfl | rfl <;> rfl

/-- R103: the record of a slot whose grant an accepted CAP has lowered. -/
abbrev Chip.lowered (c : Chip) (k : Fin 16) : GrantRecord :=
  { c.grant k with capRequest := none, grant := c.floorDraw k, level := levelFor (c.slot k).terms (c.floorDraw k) }

theorem capAccepted_lowers (h : c.floorDraw k < (c.grant k).grant) : ∃ report, capAccepted k c =
    settlePower c report (completeCapEntry k (alignUplift k (setGrant k (c.lowered k).keepsReason c))) := by
  have hwrite : keepFloorReason k (writeGrant k (c.floorDraw k) (modGrant k (fun g => { g with capRequest := none }) c)) =
      setGrant k (c.lowered k).keepsReason c := by
    rw [← keepFloorReason_setGrant]
    exact congrArg (keepFloorReason k) (modGrant_setGrant ..)
  refine ⟨decide (c.floorDraw k < (c.grant k).grant), ?_⟩
  rw [← hwrite]
  unfold capAccepted powerEvent
  dsimp only
  rw [if_pos h]
  rfl

theorem GrantRecord.keepsReason_of_reason {r : GrantRecord} (h : r.capSet.host = true ∨ r.capSet.thermal = true) :
    r.keepsReason = r := by
  refine if_neg fun ⟨_, he⟩ => ?_
  rw [he] at h
  exact h.elim nofun nofun

end Sys2Proof.Machine

/-!
PROOF. The outcomes of CAP and UNCAP orders (R100, R103, R109), and what the power unit does with the reports it is sent.
-/

namespace Sys2Proof.Machine

variable {c t before : Chip} {s : State} {k j : Fin 16} {g : GrantRecord} {q : CapSet} {o : LimitOutcome}

/-! ## A CAP accepted (R103, R112) -/

/-- A slot with this grant record and no entry on the queue. -/
structure Chip.Holds (k : Fin 16) (g : GrantRecord) (t : Chip) : Prop where
  grant : t.grant k = g
  queue : ∀ e ∈ t.power.queue, e.slot ≠ k

theorem Chip.holds_settles (k : Fin 16) (g : GrantRecord) : SettlesAround k (Chip.Holds k g) where
  capForShed j t hj h := by
    refine ⟨(grant_capForShed hj.symm).trans h.grant, fun e he hk => ?_⟩
    exact h.queue e ((mem_queue_capForShed (by rw [hk]; exact hj.symm)).1 he) hk
  setShed _ _ h := ⟨h.grant, h.queue⟩
  setServiceDue _ _ h := ⟨h.grant, h.queue⟩
  raise _ _ _ h := ⟨h.grant, h.queue⟩
  post _ _ h := ⟨h.grant, h.queue⟩

theorem Chip.Holds.grant_queueService (h : t.Holds k g) : (queueService t).grant k = g :=
  queueService_around (k := k) (P := fun t => t.grant k = g)
    (fun _ _ _ hj h => (grant_setGrant ..).trans ((if_neg hj.symm).trans h)) (fun _ _ h => h) (fun _ _ h => h)
    (fun _ _ h => h) h.queue h.grant

theorem mem_completeCapEntry {e : ShedEntry} : e ∈ (completeCapEntry k c).power.shed ↔ e ∈ c.power.shed ∧
    ¬ (e.slot = k ∧ e.action = .cap ∧ (e.acting = true ∨ (c.grant k).level = .floor)) := by
  refine List.mem_filter.trans (and_congr_right fun _ => ?_)
  rw [Bool.not_eq_true', decide_eq_false_iff_not]

/-- R103, R104: an accepted CAP of a slot with HOST or THERMAL among its reasons lowers it to FLOOR, where it stays. -/
theorem grant_capAccepted (hn : c.queueEntry k = none) (hr : (c.grant k).capSet.host = true ∨ (c.grant k).capSet.thermal = true)
    (hf : 0 < c.floorDraw k) (hg : c.floorDraw k < (c.grant k).grant) (hrun : c.floorDraw k < c.runDraw k) :
    (capAccepted k c).Holds k
      { c.grant k with capRequest := none, grant := c.floorDraw k, level := .floor } := by
  obtain ⟨report, hevent⟩ := capAccepted_lowers hg
  have hlevel : levelFor (c.slot k).terms (c.floorDraw k) = .floor := by rw [levelFor_floorDraw hf, if_neg hrun.ne]
  have hkeeps : (c.lowered k).keepsReason = { c.grant k with
      capRequest := none, grant := c.floorDraw k, level := .floor } :=
    (GrantRecord.keepsReason_of_reason (r := c.lowered k) hr).trans (congrArg (fun l => ({ c.grant k with
      capRequest := none, grant := c.floorDraw k, level := l } : GrantRecord)) hlevel)
  have halign : alignUplift k (setGrant k (c.lowered k).keepsReason c) = setGrant k (c.lowered k).keepsReason c := by
    refine alignUplift_setGrant hn fun ⟨_, _, hset⟩ => ?_
    rw [hkeeps] at hset
    have hset : (c.grant k).capSet = .onlyBudget := hset
    rw [hset] at hr
    exact hr.elim nofun nofun
  rw [hevent, halign, hkeeps]
  have hself (g : GrantRecord) : (completeCapEntry k (setGrant k g c)).grant k = g := grant_setGrant_self ..
  refine (Chip.holds_settles k _).settlePower c report ?_ (fun e he ha hk => ?_)
    ⟨hself _, queueEntry_eq_none_iff.1 hn⟩
  · refine Bool.eq_false_iff.2 fun h => ?_
    have hfull := (capCandidate_iff.1 h).2.1
    rw [hself] at hfull
    exact nomatch hfull
  · refine (mem_completeCapEntry.1 (List.mem_of_mem_filter he)).2 ⟨hk, ha, .inr ?_⟩
    rw [grant_setGrant_self]

/-- R112: the acting CAP completes, and the OFF behind it acts while the chassis is still over-committed. -/
theorem capAccepted_hands (hj : j ≠ k) (hc : (c.slot j).switchClosed = true)
    (hd : (c.slot j).state ≠ .draining) (hshed : c.power.shed =
      [{ slot := k, action := .cap, acting := true }, { slot := j, action := .off, acting := false }])
    (hg : c.floorDraw k < (c.grant k).grant)
    (ho : (setGrant k { c.grant k with grant := c.floorDraw k } c).overCommitted = true) :
    ((capAccepted k c).grant k).grant = c.floorDraw k ∧
      (capAccepted k c).power.shed = [{ slot := j, action := .off, acting := true }] ∧
      Instr.shedOffAction j ∈ (capAccepted k c).messages := by
  obtain ⟨report, hevent⟩ := capAccepted_lowers hg
  set d := completeCapEntry k (alignUplift k (setGrant k (c.lowered k).keepsReason c)) with hd'
  have hgrant : (d.grant k).grant = c.floorDraw k := by
    refine alignUplift_keeps (P := fun t => (t.grant k).grant = c.floorDraw k) (fun _ _ h => h) (fun _ _ h => h) k ?_
    rw [grant_setGrant_self, GrantRecord.keepsReason_grant]
  have hslots : d.slots = c.slots :=
    alignUplift_keeps (P := fun t => t.slots = c.slots) (fun _ _ h => h) (fun _ _ h => h) k rfl
  have hover : d.overCommitted = true := by
    refine alignUplift_keeps (P := fun t => t.overCommitted = true) (fun _ _ h => h) (fun _ _ h => h) k ?_
    rw [← ho]
    exact overCommitted_setGrant_congr (GrantRecord.keepsReason_grant _)
  have hlist : d.power.shed = [{ slot := j, action := .off, acting := false }] := by
    have hbefore : (alignUplift k (setGrant k (c.lowered k).keepsReason c)).power.shed = c.power.shed :=
      alignUplift_keeps (P := fun t => t.power.shed = c.power.shed) (fun _ _ h => h) (fun _ _ h => h) k rfl
    show List.filter _ (alignUplift k (setGrant k (c.lowered k).keepsReason c)).power.shed = _
    rw [hbefore, hshed]
    simp [hj]
  have hprune : d.power.shed.filter d.keepsShedEntry = [{ slot := j, action := .off, acting := false }] := by
    have hslot : d.slot j = c.slot j := congrArg (fun b : Bank 16 Slot => b.read j) hslots
    rw [hlist]
    refine List.filter_cons_of_pos (decide_eq_true ⟨?_, .inr ⟨?_, .inl rfl⟩⟩)
    · rw [hslot]
      exact hc
    · rw [hslot]
      exact hd
  clear_value d
  obtain ⟨b, hb⟩ := settlePower_off (before := c) (report := report) hprune hover
  rw [hevent, hb]
  exact ⟨hgrant, rfl, List.mem_append_right _ List.mem_cons_self⟩

/-! ## A CAP refused (R103, R109) -/

/-- R103: the record of a slot whose CAP was refused. -/
abbrev Chip.uncappedBy (c : Chip) (k : Fin 16) (q : CapSet) : GrantRecord :=
  { c.grant k with capRequest := none, capSet := (c.grant k).capSet.without q }

theorem turnCapOff_of_nil (h : c.power.shed = []) : turnCapOff k c = c := by
  unfold turnCapOff
  rw [h]

theorem turnCapOff_acting (h : c.power.shed = [{ slot := k, action := .cap, acting := true }]) : turnCapOff k c =
    post (.shedOffAction k) (setShed [{ slot := k, action := .off, acting := true }] c) := by
  unfold turnCapOff
  rw [h]
  exact if_pos ⟨rfl, rfl, rfl⟩

/-- R103: the part before its CAP entry is looked at. -/
abbrev Chip.capRefusedMark (c : Chip) (k : Fin 16) (q : CapSet) : Chip :=
  if q.host then raise (.slot k) .degraded (alignUplift k (setGrant k (c.uncappedBy k q) c))
  else alignUplift k (setGrant k (c.uncappedBy k q) c)

theorem capRefused_eq (hl : (c.grant k).level ≠ .floor) : capRefused k q c = settlePower c false
    (if q.budget then turnCapOff k (c.capRefusedMark k q) else c.capRefusedMark k q) := by
  have hmod : keepFloorReason k (modGrant k (fun g => { g with capRequest := none, capSet := g.capSet.without q }) c) =
      setGrant k (c.uncappedBy k q) c :=
    (keepFloorReason_setGrant ..).trans (congrArg (setGrant k · c) (if_neg fun h => hl h.1))
  unfold capRefused powerEvent
  dsimp only
  rw [hmod]

/-- What the refusal of a CAP marks, whatever becomes of the slot's entry on the queue. -/
theorem capRefusedMark_keeps {P : Chip → Prop} (hq : ∀ q c, P c → P (setQueue q c)) (hd : ∀ b c, P c → P (setServiceDue b c))
    (hr : ∀ o x c, P c → P (raise o x c)) (h : P (setGrant k (c.uncappedBy k q) c)) : P (c.capRefusedMark k q) :=
  ite_keeps (hr _ _ _ (alignUplift_keeps hq hd k h)) (alignUplift_keeps hq hd k h)

/-- R103: a refusal with nothing to shed. -/
theorem capRefused_within (hn : c.queueEntry k = none) (hl : (c.grant k).level ≠ .floor) (ho : c.overCommitted = false)
    (hshed : c.power.shed = []) : capRefused k q c =
      if q.host then raise (.slot k) .degraded (setGrant k (c.uncappedBy k q) c) else setGrant k (c.uncappedBy k q) c := by
  have halign : alignUplift k (setGrant k (c.uncappedBy k q) c) = setGrant k (c.uncappedBy k q) c :=
    alignUplift_setGrant hn fun h => hl h.2.1
  have hmark : c.capRefusedMark k q = if q.host then raise (.slot k) .degraded (setGrant k (c.uncappedBy k q) c)
      else setGrant k (c.uncappedBy k q) c := by
    unfold Chip.capRefusedMark
    rw [halign]
  have hnil : (c.capRefusedMark k q).power.shed = [] :=
    capRefusedMark_keeps (P := fun t => t.power.shed = []) (fun _ _ h => h) (fun _ _ h => h) (fun _ _ _ h => h) hshed
  have hsame : (c.capRefusedMark k q).committed = c.committed ∧ (c.capRefusedMark k q).budget = c.budget :=
    capRefusedMark_keeps (P := fun t => t.committed = c.committed ∧ t.budget = c.budget) (fun _ _ h => h) (fun _ _ h => h)
      (fun _ _ _ h => h) ⟨committed_setGrant rfl, rfl⟩
  obtain ⟨hcommitted, hbudget⟩ := hsame
  have hwithin : (c.capRefusedMark k q).overCommitted = false := by
    unfold Chip.overCommitted at ho ⊢
    rw [hcommitted, hbudget]
    exact ho
  rw [capRefused_eq hl, turnCapOff_of_nil hnil, ite_self, settlePower_within hshed hnil hwithin, if_neg (by omega), hmark]

/-- R109: a refused CAP on the list becomes OFF and acts. -/
theorem capRefused_turns (hb : q.budget = true) (hl : (c.grant k).level = .full) (hc : (c.slot k).switchClosed = true)
    (hshed : c.power.shed = [{ slot := k, action := .cap, acting := true }]) :
    capRefused k q c = post (.shedOffAction k)
      (setShed [{ slot := k, action := .off, acting := true }] (c.capRefusedMark k q)) := by
  have hlist : (c.capRefusedMark k q).power.shed = [{ slot := k, action := .cap, acting := true }] :=
    capRefusedMark_keeps (P := fun t => t.power.shed = _) (fun _ _ h => h) (fun _ _ h => h) (fun _ _ _ h => h) hshed
  have hsame : (c.capRefusedMark k q).committed = c.committed ∧ (c.capRefusedMark k q).budget = c.budget ∧
      (c.capRefusedMark k q).slots = c.slots :=
    capRefusedMark_keeps (P := fun t => t.committed = c.committed ∧ t.budget = c.budget ∧ t.slots = c.slots)
      (fun _ _ h => h) (fun _ _ h => h) (fun _ _ _ h => h) ⟨committed_setGrant rfl, rfl, rfl⟩
  obtain ⟨hcommitted, hbudget, hslots⟩ := hsame
  rw [capRefused_eq (hl ▸ nofun), if_pos hb, turnCapOff_acting hlist]
  refine settlePower_stands rfl rfl ?_ hcommitted hbudget
  have hslot : (c.capRefusedMark k q).slot k = c.slot k := congrArg (fun b : Bank 16 Slot => b.read k) hslots
  exact (congrArg Slot.switchClosed hslot).trans hc

theorem capRefused_leaves (hb : q.budget = true) (hl : (c.grant k).level = .full) (hc : (c.slot k).switchClosed = true)
    (hshed : c.power.shed = [{ slot := k, action := .cap, acting := true }]) :
    (capRefused k q c).grant k = c.uncappedBy k q ∧ ((capRefused k q c).grant k).capSet.budget = false ∧
      (capRefused k q c).power.shed = [{ slot := k, action := .off, acting := true }] ∧
      Instr.shedOffAction k ∈ (capRefused k q c).messages := by
  have hrecord : (c.capRefusedMark k q).grant k = c.uncappedBy k q :=
    capRefusedMark_keeps (P := fun t => t.grant k = _) (fun _ _ h => h) (fun _ _ h => h) (fun _ _ _ h => h)
      (grant_setGrant_self ..)
  have hbudget : (c.uncappedBy k q).capSet.budget = false := by
    show ((c.grant k).capSet.budget && !q.budget) = false
    rw [hb]
    exact Bool.and_false _
  rw [← hrecord] at hbudget
  rw [capRefused_turns hb hl hc hshed]
  exact ⟨hrecord, hbudget, rfl, List.mem_append_right _ List.mem_cons_self⟩

/-! ## What the reports leave of the other blocks -/

theorem capOutcome_frame (s : State) (k : Fin 16) (o : LimitOutcome) : s.chip.SameButPower
    (queueService (takeCapOutcome k o (deliver (.capOutcome k o) s.chip))) :=
  s.chip.sameButPower_keeps.queueService (s.chip.sameButPower_keeps.takeCapOutcome k o
    (s.chip.sameButPower_keeps.messages _ _ (.refl s.chip)))

/-- R97: with entries on the shed list the queue service writes the queue alone. -/
theorem queueService_shedding {l : List ShedEntry} (h : c.power.shed = l) (hl : l ≠ []) (k : Fin 16) :
    (queueService c).power.shed = l ∧ (queueService c).messages = c.messages ∧ (queueService c).grant k = c.grant k := by
  rw [queueService_waiting (.inl (h ▸ hl))]
  exact ⟨h, rfl, rfl⟩

/-! ## UNCAP (R100) -/

theorem takeUncapOutcome_taken (h : (c.grant k).uncapRequest = true) : takeUncapOutcome k o c =
    match o with
    | .refused | .failed => raise (.slot k) .degraded (setGrant k { c.grant k with uncapRequest := false } c)
    | .accepted | .superseded | .abandoned => setGrant k { c.grant k with uncapRequest := false } c := by
  unfold takeUncapOutcome
  rw [if_pos h]
  cases o <;> rfl

theorem takeUncapOutcome_ignored (h : (c.grant k).uncapRequest = false) : takeUncapOutcome k o c = c :=
  if_neg (h ▸ Bool.false_ne_true)

/-! ## The reports as commands -/

/-- R12, R99: a settlement that failed. -/
theorem exec_settlementReport_failed (hst : (s.chip.grant k).stage = .settling) (hs : (s.chip.slot k).state = .awaitingGrant) :
    ∃ t, exec (.settlementReport k .failed) s = .next t ∧ (t.chip.slot k).state = .held ∧
      (t.chip.slot k).holdReason = some .noAnswer ∧ t.chip.alerted (.slot k) .held ∧ s.chip.onlySlotRecord k t.chip := by
  have hevent := takeSettlement_failed (c := deliver (.settlementReport k .failed) s.chip) hst hs
  have hkeeps := onlySlotRecord_keeps k s.chip
  obtain ⟨hslot, honly⟩ := message_leaves (m := .settlementReport k .failed) (event := takeSettlement k .failed) s
    (by
      rw [hevent]
      exact hkeeps.toHeld _ (hkeeps.toPowerKeeps.failAdmission k (s.chip.onlySlotRecord_refl k)))
  rw [hevent, slot_toHeld] at hslot
  rw [hevent] at honly
  refine ⟨_, congrArg (fun c => (Host.Outcome.next (s.onChip (queueService c)) : Result)) hevent, ?_, ?_, ?_, honly⟩
  · exact congrArg Slot.state hslot
  · exact congrArg Slot.holdReason hslot
  · exact Chip.alerted.queueService (alerted_raise _ _ _)

/-- R103: an accepted CAP that lowers a slot which keeps HOST or THERMAL. -/
theorem exec_capOutcome_accepted (hn : s.chip.queueEntry k = none) (hr : (s.chip.grant k).capRequest = some q)
    (hset : (s.chip.grant k).capSet.host = true ∨ (s.chip.grant k).capSet.thermal = true)
    (hf : 0 < s.chip.floorDraw k) (hg : s.chip.floorDraw k < (s.chip.grant k).grant)
    (hrun : s.chip.floorDraw k < s.chip.runDraw k) :
    ∃ t, exec (.capOutcome k .accepted) s = .next t ∧ (t.chip.grant k).grant = s.chip.floorDraw k ∧
      (t.chip.grant k).level = .floor ∧ (t.chip.grant k).capSet = (s.chip.grant k).capSet ∧
      (t.chip.grant k).capRequest = none ∧ t.chip.slots = s.chip.slots ∧
      t.chip.engines = s.chip.engines ∧ t.chip.hub = s.chip.hub := by
  have hevent := takeCapOutcome_accepted (c := deliver (.capOutcome k .accepted) s.chip) hr
  have hframe := capOutcome_frame s k .accepted
  have hgrant := (grant_capAccepted (c := deliver (.capOutcome k .accepted) s.chip) hn hset hf hg hrun).grant_queueService
  rw [hevent] at hframe
  refine ⟨_, congrArg (fun c => (Host.Outcome.next (s.onChip (queueService c)) : Result)) hevent,
    congrArg GrantRecord.grant hgrant, congrArg GrantRecord.level hgrant, (congrArg GrantRecord.capSet hgrant).trans rfl,
    congrArg GrantRecord.capRequest hgrant, hframe.slots, hframe.engines, hframe.hub⟩

/-- R112: an accepted CAP that is not enough. -/
theorem exec_capOutcome_hands (hr : (s.chip.grant k).capRequest = some q) (hj : j ≠ k)
    (hcj : (s.chip.slot j).switchClosed = true) (hd : (s.chip.slot j).state ≠ .draining) (hshed : s.chip.power.shed =
      [{ slot := k, action := .cap, acting := true }, { slot := j, action := .off, acting := false }])
    (hg : s.chip.floorDraw k < (s.chip.grant k).grant)
    (ho : (setGrant k { s.chip.grant k with grant := s.chip.floorDraw k } s.chip).overCommitted = true) :
    ∃ t, exec (.capOutcome k .accepted) s = .next t ∧ (t.chip.grant k).grant = s.chip.floorDraw k ∧
      t.chip.power.shed = [{ slot := j, action := .off, acting := true }] ∧
      Instr.shedOffAction j ∈ t.chip.messages ∧ t.chip.slots = s.chip.slots := by
  have hevent := takeCapOutcome_accepted (c := deliver (.capOutcome k .accepted) s.chip) hr
  have hframe := capOutcome_frame s k .accepted
  obtain ⟨hgrant, hlist, hposted⟩ := capAccepted_hands (c := deliver (.capOutcome k .accepted) s.chip) hj hcj hd hshed hg ho
  obtain ⟨hshed', hmessages, hgrant'⟩ := queueService_shedding hlist (List.cons_ne_nil _ _) k
  rw [hevent] at hframe
  refine ⟨_, congrArg (fun c => (Host.Outcome.next (s.onChip (queueService c)) : Result)) hevent, ?_, hshed', ?_, hframe.slots⟩
  · exact (congrArg GrantRecord.grant hgrant').trans hgrant
  · exact hmessages.symm.subst (motive := (Instr.shedOffAction j ∈ ·)) hposted

/-- R109: a CAP refused or failed while it is the acting entry of the list. -/
theorem exec_capOutcome_turns (hr : (s.chip.grant k).capRequest = some q) (ho : o = .refused ∨ o = .failed)
    (hb : q.budget = true) (hl : (s.chip.grant k).level = .full) (hc : (s.chip.slot k).switchClosed = true)
    (hshed : s.chip.power.shed = [{ slot := k, action := .cap, acting := true }]) :
    ∃ t, exec (.capOutcome k o) s = .next t ∧
      t.chip.power.shed = [{ slot := k, action := .off, acting := true }] ∧
      Instr.shedOffAction k ∈ t.chip.messages ∧ (t.chip.grant k).grant = (s.chip.grant k).grant ∧
      (t.chip.grant k).capSet.budget = false ∧ (t.chip.grant k).capRequest = none ∧ t.chip.slots = s.chip.slots := by
  have hevent := takeCapOutcome_refused (c := deliver (.capOutcome k o) s.chip) hr ho
  have hframe := capOutcome_frame s k o
  obtain ⟨hrecord, hbudget, hlist, hposted⟩ := capRefused_leaves (c := deliver (.capOutcome k o) s.chip) hb hl hc hshed
  obtain ⟨hshed', hmessages, hgrant'⟩ := queueService_shedding hlist (List.cons_ne_nil _ _) k
  rw [hevent] at hframe
  refine ⟨_, congrArg (fun c => (Host.Outcome.next (s.onChip (queueService c)) : Result)) hevent, hshed', ?_, ?_, ?_, ?_,
    hframe.slots⟩
  · exact hmessages.symm.subst (motive := (Instr.shedOffAction k ∈ ·)) hposted
  · exact (congrArg GrantRecord.grant (hgrant'.trans hrecord)).trans rfl
  · dsimp only [State.onChip]
    rw [hgrant']
    exact hbudget
  · exact congrArg GrantRecord.capRequest (hgrant'.trans hrecord)

/-- Settles O23, report by report. -/
theorem powerUnitReportsAreTaken : Obligations.PowerUnitReportsAreTaken := by
  refine ⟨fun s k hq => ⟨fun hst ho => ?ordered, fun hst hs => ?failed, fun hst hs hw ho hb => ?requeued, fun o hst => ?_⟩,
    fun s k q hq hn => ⟨fun hr hset hf hg hrun => ?accepted, fun o hr ho hl hwithin hshed => ?refused, fun o hr ho => ?_,
      fun o hr => ?_⟩,
    fun s k q hq hr hc => ⟨fun j hj hcj hd hshed hf hg ho => ?hands, fun o ho hb hl hshed => ?turns⟩,
    fun s k o hq => ⟨fun hu => ?uncapped, fun hu => ?_⟩⟩
  case ordered =>
    refine takenMessage_settled ((takeSettlement_settled (c := deliver _ s.chip) hst).trans
      (settled_orders (c := deliver (.settlementReport k .settled) s.chip) ho)) hq
  case failed => exact exec_settlementReport_failed hst hs
  case requeued =>
    have hevent := takeSettlement_settled (c := deliver (.settlementReport k .settled) s.chip) hst
    obtain ⟨hgrant, hentry, -, hslots⟩ :=
      (requeued_settled (c := deliver (.settlementReport k .settled) s.chip) hs hw ho hb).queueService
    exact ⟨_, congrArg (fun c => (Host.Outcome.next (s.onChip (queueService c)) : Result)) hevent, hgrant, hentry,
      hslots.slots, hslots.engines⟩
  · exact takenMessage_settled (takeSettlement_ignored (c := deliver _ s.chip) hst) hq
  case accepted => exact exec_capOutcome_accepted hn hr hset hf hg hrun
  case refused =>
    have hevent := (takeCapOutcome_refused (c := deliver (.capOutcome k o) s.chip) hr ho).trans
      (capRefused_within (c := deliver (.capOutcome k o) s.chip) hn hl hwithin hshed)
    exact takenMessage_settled hevent (ite_keeps (P := Chip.quiescent) hq hq)
  · exact takenMessage_settled (takeCapOutcome_dropped (c := deliver _ s.chip) hr ho) hq
  · exact takenMessage_settled (takeCapOutcome_ignored (c := deliver _ s.chip) hr) hq
  case hands => exact exec_capOutcome_hands hr hj hcj hd hshed hg ho
  case turns => exact exec_capOutcome_turns hr ho hb hl hc hshed
  case uncapped =>
    cases o
    all_goals exact takenMessage_settled (takeUncapOutcome_taken (c := deliver _ s.chip) hu) hq
  · exact takenMessage_settled (takeUncapOutcome_ignored (c := deliver _ s.chip) hu) hq

end Sys2Proof.Machine

/-!
PROOF. AMEND of a channel (R150, R154).
-/

namespace Sys2Proof.Machine

variable {c : Chip} {s : State} {h : Fin 32} {ch : Channel} {items : List Item} {d : Definition}

theorem exec_amendChannel {c : Chip} {a : Answer} (hq : c.quiescent) (ht : s.chip.takes (.amendChannel h items))
    (hw : amendWellFormed .channel items = true)
    (ho : amendChannelOwner h items (s.chip.opened (.amendChannel h items)) = (c.opened (.amendChannel h items), a)) :
    exec (.amendChannel h items) s = .next (s.onChip (c.answered (.amendChannel h items) a)) :=
  taken_answered ht hq ((if_pos hw).trans ho)

theorem namesField_iff {n : Nat} : namesField items n = true ↔ ∃ x ∈ items, x.field = n := by
  simp [namesField]

theorem namesHubField_iff : namesHubField items = true ↔ ∃ x ∈ items, x.field = 1 ∨ 11 ≤ x.field := by
  simp [namesHubField]

/-- R154: what the owner checks before the definition. -/
theorem amendChannelOwner_hubField (hc : c.channel h = some ch) (hf : namesHubField items = true) :
    amendChannelOwner h items c = (c, { status := .state, result := [] }) := by
  unfold amendChannelOwner
  rw [hc]
  exact if_pos hf

theorem amendChannelOwner_barred {x : Status} (hc : c.channel h = some ch) (hf : namesHubField items = false)
    (hb : ch.amendBar (namesField items 2) = x) (hx : x ≠ .ok) :
    amendChannelOwner h items c = (c, { status := x, result := [] }) := by
  unfold amendChannelOwner
  rw [hc]
  dsimp only
  rw [if_neg (hf ▸ Bool.false_ne_true), hb]
  cases x
  case ok => exact absurd rfl hx
  all_goals rfl

theorem amendChannelOwner_unnamed (hc : c.channel h = some ch) (hf : namesHubField items = false)
    (hb : ch.amendBar (namesField items 2) = .ok) (hd : ch.definition.with items = none) :
    amendChannelOwner h items c = (c, { status := .range, result := [] }) := by
  unfold amendChannelOwner
  rw [hc]
  dsimp only
  rw [if_neg (hf ▸ Bool.false_ne_true), hb]
  dsimp only
  rw [hd]
  rfl

theorem amendChannelOwner_checked (hc : c.channel h = some ch) (hf : namesHubField items = false)
    (hb : ch.amendBar (namesField items 2) = .ok) (hd : ch.definition.with items = some d) :
    amendChannelOwner h items c = statusOnly (checkedAmend h ch d (namesField items 5) c) := by
  unfold amendChannelOwner
  rw [hc]
  dsimp only
  rw [if_neg (hf ▸ Bool.false_ne_true), hb]
  dsimp only
  rw [hd]

/-- R154: the state of the channel, as it bars an AMEND. -/
theorem amendBar_of_state {b : Bool} (hs : ch.state ≠ .hold) : ch.amendBar b = .state := if_pos hs

theorem amendBar_of_busy {b : Bool} (hs : ch.state = .hold) (hb : ch.busy = true) : ch.amendBar b = .busy := by
  unfold Channel.amendBar
  rw [if_neg (not_not.2 hs), if_pos hb]

theorem amendBar_of_idle {b : Bool} (hs : ch.state = .hold) (hb : ch.busy = false) :
    ch.amendBar b = if ch.granted && b then .state else .ok := by
  unfold Channel.amendBar
  rw [if_neg (not_not.2 hs), if_neg (hb ▸ Bool.false_ne_true)]

/-- R154: the definition as it would stand. -/
theorem with_of_amendedTo (hd : ch.amendedTo items d) : ch.definition.with items = some d := by
  obtain ⟨hslot, hbase, hlimit, hpreferred, hf2, hfallback, ha2, hauto, hframe, hfirst, hcount⟩ := hd
  dsimp only at hslot hbase hlimit hpreferred hf2 hfallback ha2 hauto hframe hfirst hcount
  have hp : (numberOf items 5).getD ch.preferred.val < 2 := hpreferred ▸ d.preferred.isLt
  unfold Definition.with Channel.definition
  dsimp only
  rw [dif_pos hp, if_pos ⟨hf2, ha2⟩, ← hslot, ← hbase, ← hlimit, ← hframe, ← hfirst, ← hcount, ← hfallback, ← hauto]
  refine congrArg some ?_
  have hpref : (⟨(numberOf items 5).getD ch.preferred.val, hp⟩ : Fin 2) = d.preferred := Fin.ext hpreferred.symm
  rw [hpref]

/-! ## A definition that is checked -/

theorem checkedAmend_range {b : Bool} (hr : d.breaksRange) : checkedAmend h ch d b c = (c, .range) := by
  have hin : ¬ d.inRange = true := fun h => Definition.inRange_iff.1 h hr
  unfold checkedAmend
  split
  · rfl
  · rfl

theorem slot_lt_of_inRange (hr : ¬ d.breaksRange) : d.slot < 16 := by
  have hslot : ¬ 15 < d.slot := fun h => hr (.inl h)
  omega

theorem checkedAmend_inRange {b : Bool} (hr : ¬ d.breaksRange) : checkedAmend h ch d b c =
    if d.slot ≠ ch.slot.val ∧ c.slotFull d.slot then (c, .full)
    else if c.overlaps (some h) d then (c, .overlap)
    else (setChannel h (some (ch.redefine ⟨d.slot, slot_lt_of_inRange hr⟩ d b)) c, .ok) := by
  have hs := slot_lt_of_inRange hr
  unfold checkedAmend
  rw [dif_pos hs, if_pos (Definition.inRange_iff.2 hr)]

/-- R150, R154: the AMEND of a channel, check by check. -/
theorem amendChannel_checks (s : State) (h : Fin 32) (ch : Channel) (items : List Item) (hq : s.chip.quiescent)
    (hc : s.chip.channel h = some ch) (hw : amendWellFormed .channel items = true) :
    (let i := Instr.amendChannel h items
     let refused (x : Status) : Prop := exec i s = .next (s.onChip (s.chip.answered i { status := x, result := [] }))
     s.chip.takes i →
     ((∃ x ∈ items, x.field = 1 ∨ 11 ≤ x.field) → refused .state) ∧
     ((∀ x ∈ items, x.field ≠ 1 ∧ x.field ≤ 10) →
       (ch.state ≠ .hold → refused .state) ∧
       (ch.state = .hold → ch.busy = true → refused .busy) ∧
       (ch.state = .hold → ch.busy = false → ch.granted = true → (∃ x ∈ items, x.field = 2) → refused .state) ∧
       (ch.state = .hold → ch.busy = false → ch.granted = false ∨ (∀ x ∈ items, x.field ≠ 2) →
         ((∃ f ∈ [5, 6, 7], ∃ n, numberOf items f = some n ∧ 2 ≤ n) → refused .range) ∧
         ∀ d, ch.amendedTo items d →
           (d.breaksRange → refused .range) ∧
           (¬ d.breaksRange → d.slot ≠ ch.slot.val → s.chip.slotFull d.slot = true → refused .full) ∧
           (¬ d.breaksRange → d.slot = ch.slot.val ∨ s.chip.slotFull d.slot = false →
             (d.sharesWith s.chip (some h) → refused .overlap) ∧
             (¬ d.sharesWith s.chip (some h) → ∀ slot : Fin 16, slot.val = d.slot →
               exec i s = .next (s.onChip ((setChannel h (some { ch with
                 slot := slot, base := d.base, limit := d.limit, preferred := d.preferred, fallback := d.fallback,
                 autoPass := d.autoPass, maxFrame := d.maxFrame, firstCell := d.firstCell, cellCount := d.cellCount,
                 active := if namesField items 5 then d.preferred else ch.active }) s.chip).answered i
                 { status := .ok, result := [] }))))))) := by
  intro i refused ht
  set o := s.chip.opened i with ho
  have hco : o.channel h = some ch := hc
  have hrefuse {x : Status} (hx : amendChannelOwner h items o = (o, { status := x, result := [] })) : refused x :=
    exec_amendChannel hq ht hw hx
  refine ⟨fun hf => hrefuse (amendChannelOwner_hubField hco (namesHubField_iff.2 hf)), fun hf => ?_⟩
  have hhub := namesHubField_of_fields hf
  refine ⟨fun hs => hrefuse (amendChannelOwner_barred hco hhub (amendBar_of_state hs) nofun),
    fun hs hb => hrefuse (amendChannelOwner_barred hco hhub (amendBar_of_busy hs hb) nofun), fun hs hb hg h2 => ?_,
    fun hs hb hg => ?_⟩
  · refine hrefuse (amendChannelOwner_barred (x := .state) hco hhub ?_ nofun)
    rw [amendBar_of_idle hs hb, hg, namesField_iff.2 h2]
    rfl
  have hbar : ch.amendBar (namesField items 2) = .ok := by
    rw [amendBar_of_idle hs hb]
    rcases hg with hg | hg
    · rw [hg]
      rfl
    · have hn : namesField items 2 = false := Bool.eq_false_iff.2 fun hx => by
        obtain ⟨x, hx, h2⟩ := namesField_iff.1 hx
        exact hg x hx h2
      rw [hn, Bool.and_false]
      rfl
  refine ⟨fun ⟨f, hf, n, hn, h2⟩ => hrefuse (amendChannelOwner_unnamed hco hhub hbar (with_eq_none hf hn h2)),
    fun d hd => ?_⟩
  have hchecked := amendChannelOwner_checked hco hhub hbar (with_of_amendedTo hd)
  have hrefused {x : Status} (hx : checkedAmend h ch d (namesField items 5) o = (o, x)) : refused x :=
    hrefuse (hchecked.trans (congrArg statusOnly hx))
  refine ⟨fun hr => hrefused (checkedAmend_range hr), fun hr hne hfull => hrefused ?_, fun hr hfull => ?_⟩
  · rw [checkedAmend_inRange hr, if_pos ⟨hne, hfull⟩]
  have hnot : ¬ (d.slot ≠ ch.slot.val ∧ o.slotFull d.slot = true) := fun ⟨hne, hx⟩ =>
    hfull.elim hne fun hno => Bool.false_ne_true (hno.symm.trans hx)
  refine ⟨fun hshare => hrefused ?_, fun hshare slot hslot => ?_⟩
  · rw [checkedAmend_inRange hr, if_neg hnot, if_pos (Chip.overlaps_iff (c := o).2 hshare)]
  · obtain rfl : slot = ⟨d.slot, slot_lt_of_inRange hr⟩ := Fin.ext hslot
    refine exec_amendChannel (c := setChannel h (some (ch.redefine ⟨d.slot, slot_lt_of_inRange hr⟩ d
      (namesField items 5))) s.chip) hq ht hw (hchecked.trans ?_)
    rw [checkedAmend_inRange hr, if_neg hnot, if_neg fun hx => hshare (Chip.overlaps_iff (c := o).1 hx)]
    rfl

end Sys2Proof.Machine

/-!
PROOF. AMEND of one setting (R185, R186): the value's form and range, the settings written, and the settings that are read at a
later use.
-/

namespace Sys2Proof.Machine

variable {c : Chip} {s : State} {n : Nat} {v : List Byte}

/-! ## An item list of one item -/

/-- The item that names one setting. -/
abbrev oneSetting (n : Nat) (v : List Byte) : List Item := [{ field := n, value := some v }]

theorem valueOf_oneSetting (n m : Nat) (v : List Byte) : valueOf (oneSetting n v) m = if n = m then some v else none := by
  unfold valueOf
  split
  · next h => simp [h]
  · next h => simp [h]

theorem numberOf_oneSetting (n m : Nat) (v : List Byte) :
    numberOf (oneSetting n v) m = if n = m then some (number v) else none := by
  unfold numberOf
  rw [valueOf_oneSetting]
  split <;> rfl

theorem namesField_oneSetting (n m : Nat) (v : List Byte) : namesField (oneSetting n v) m = decide (n = m) :=
  Bool.or_false _

theorem amendWellFormed_oneSetting (h : itemWellFormed .settings { field := n, value := some v } = true) :
    amendWellFormed .settings (oneSetting n v) = true := by
  unfold amendWellFormed itemsWellFormed
  rw [List.all_cons, h]
  rfl

/-- R185: the settings after one of them is written. -/
theorem writeSettings_one (n : Nat) (v : List Byte) (t : Settings) : writeSettings (oneSetting n v) t =
    { autoAdmission := if n = 1 then decide (number v = 0) else t.autoAdmission,
      policy := if n = 2 then policyOf (number v) else t.policy,
      baseDraw := if n = 3 then number v else t.baseDraw,
      slotCeiling := if n = 4 then number v else t.slotCeiling,
      floorAdmission := if n = 5 then decide (number v = 0) else t.floorAdmission,
      zoneMap := if n = 6 then writePairs t.zoneMap (readPairs v.tail) else t.zoneMap,
      powerUpDelay := if n = 7 then number v else t.powerUpDelay,
      resetHold := if n = 8 then number v else t.resetHold,
      drainTimeout := if n = 9 then number v else t.drainTimeout,
      shedDrainTimeout := if n = 10 then number v else t.shedDrainTimeout,
      pollInterval := if n = 11 then number v else t.pollInterval,
      criticalMargin := if n = 12 then number v else t.criticalMargin,
      emergencyGrace := if n = 13 then number v else t.emergencyGrace,
      defaultFanDraw := if n = 14 then number v else t.defaultFanDraw,
      defaultFanSpeed := if n = 15 then number v else t.defaultFanSpeed,
      defaultFanPulses := if n = 16 then number v else t.defaultFanPulses } := by
  have hnumber (m old : Nat) : (numberOf (oneSetting n v) m).getD old = if n = m then number v else old := by
    rw [numberOf_oneSetting]
    split <;> rfl
  have hflag (m : Nat) (b : Bool) : decide ((numberOf (oneSetting n v) m).getD (if b then 0 else 1) = 0) =
      if n = m then decide (number v = 0) else b := by
    rw [hnumber]
    split
    · rfl
    · cases b <;> rfl
  have hpolicy : ((numberOf (oneSetting n v) 2).map policyOf).getD t.policy =
      if n = 2 then policyOf (number v) else t.policy := by
    rw [numberOf_oneSetting]
    split <;> rfl
  have hzones : writePairs t.zoneMap (readPairs ((valueOf (oneSetting n v) 6).getD []).tail) =
      if n = 6 then writePairs t.zoneMap (readPairs v.tail) else t.zoneMap := by
    rw [valueOf_oneSetting]
    split
    · rfl
    · exact writePairs_nil _
  unfold writeSettings
  dsimp only
  rw [hflag, hflag, hpolicy, hzones]
  simp only [hnumber]

/-! ## The owner -/

theorem exec_amendSettings_of {c : Chip} {a : Answer} (hq : c.quiescent) (ht : s.chip.takes (.amendSettings (oneSetting n v)))
    (hw : itemWellFormed .settings { field := n, value := some v } = true)
    (ho : amendSettingsOwner (oneSetting n v) (s.chip.opened (.amendSettings (oneSetting n v))) =
      (c.opened (.amendSettings (oneSetting n v)), a)) :
    exec (.amendSettings (oneSetting n v)) s = .next (s.onChip (c.answered (.amendSettings (oneSetting n v)) a)) :=
  taken_answered ht hq ((if_pos (amendWellFormed_oneSetting hw)).trans ho)

theorem amendSettingsOwner_inRange (h : settingInRange { field := n, value := some v } = true) :
    amendSettingsOwner (oneSetting n v) c = (applySettings (oneSetting n v) c, { status := .ok, result := [] }) :=
  if_pos ((Bool.and_true _).trans h)

theorem amendSettingsOwner_range (h : settingInRange { field := n, value := some v } = false) :
    amendSettingsOwner (oneSetting n v) c = (c, { status := .range, result := [] }) :=
  if_neg fun hx => Bool.false_ne_true (h.symm.trans ((Bool.and_true _).symm.trans hx))

/-- R185: a value out of range writes nothing. -/
theorem exec_amendSettings_range (hq : s.chip.quiescent) (ht : s.chip.takes (.amendSettings (oneSetting n v)))
    (hw : itemWellFormed .settings { field := n, value := some v } = true)
    (h : settingInRange { field := n, value := some v } = false) : exec (.amendSettings (oneSetting n v)) s =
      .next (s.onChip (s.chip.answered (.amendSettings (oneSetting n v)) { status := .range, result := [] })) :=
  exec_amendSettings_of hq ht hw (amendSettingsOwner_range h)

theorem stepped_iff {low high step x : Nat} : stepped low high step x = true ↔ low ≤ x ∧ x ≤ high ∧ x % step = 0 :=
  decide_eq_true_iff

/-- R186: a setting that is read at a later use changes nothing else. -/
theorem applySettings_later (h2 : n ≠ 2) (h3 : n ≠ 3) (h6 : n ≠ 6) (h12 : n ≠ 12) :
    applySettings (oneSetting n v) c = setSettings (writeSettings (oneSetting n v) c.settings) c := by
  have hzone : (writeSettings (oneSetting n v) c.settings).zoneMap = c.settings.zoneMap := by
    rw [writeSettings_one]
    exact if_neg h6
  unfold applySettings
  dsimp only
  rw [namesField_oneSetting, namesField_oneSetting, namesField_oneSetting, decide_eq_false h2, decide_eq_false h3,
    decide_eq_false h12]
  exact fanSettings_of_zoneMap hzone

/-- R185: the AMEND of one such setting. -/
theorem exec_amendSettings_later {low high step : Nat} {f : Nat → Settings → Settings} (hq : s.chip.quiescent)
    (hrange : settingInRange { field := n, value := some v } = stepped low high step (number v))
    (hwrite : ∀ t, writeSettings (oneSetting n v) t = f (number v) t)
    (hn : n ≠ 2 ∧ n ≠ 3 ∧ n ≠ 6 ∧ n ≠ 12)
    (hw : itemWellFormed .settings { field := n, value := some v } = true)
    (ht : s.chip.takes (.amendSettings (oneSetting n v))) :
    (low ≤ number v → number v ≤ high → number v % step = 0 → exec (.amendSettings (oneSetting n v)) s = .next (s.onChip
      ((setSettings (f (number v) s.chip.settings) s.chip).answered (.amendSettings (oneSetting n v))
        { status := .ok, result := [] }))) ∧
    (number v < low ∨ high < number v ∨ number v % step ≠ 0 → exec (.amendSettings (oneSetting n v)) s =
      .next (s.onChip (s.chip.answered (.amendSettings (oneSetting n v)) { status := .range, result := [] }))) := by
  obtain ⟨h2, h3, h6, h12⟩ := hn
  refine ⟨fun hlow hhigh hstep => ?_, fun h => exec_amendSettings_range hq ht hw ?_⟩
  · refine exec_amendSettings_of (c := setSettings (f (number v) s.chip.settings) s.chip) hq ht hw
      ((amendSettingsOwner_inRange (hrange.trans (stepped_iff.2 ⟨hlow, hhigh, hstep⟩))).trans ?_)
    rw [applySettings_later h2 h3 h6 h12, hwrite]
    rfl
  · refine hrange.trans (Bool.eq_false_iff.2 fun hx => ?_)
    obtain ⟨hlow, hhigh, hstep⟩ := stepped_iff.1 hx
    omega

end Sys2Proof.Machine

/-!
PROOF. AMEND of the redundancy policy or of the base draw (R85, R86, R90, R186).
-/

namespace Sys2Proof.Machine

variable {c t before : Chip} {s : State} {n : Nat} {v : List Byte} {report : Bool} {i : Instr} {new : Settings} {e : QueueEntry}

/-! ## The walk and the service of the queue on a part with a request -/

theorem capWalk_opened (i : Instr) (c : Chip) :
    ∀ (order : List (Fin 16)) (p : Nat), capWalk (c.opened i) order p = capWalk c order p
  | [], _ => rfl
  | j :: order, p => by
    unfold capWalk
    rw [capWalk_opened i c order, capWalk_opened i c order]
    rfl

theorem offWalk_opened (i : Instr) (c : Chip) :
    ∀ (order : List (Fin 16)) (p : Nat) (l : List ShedEntry), offWalk (c.opened i) order p l = offWalk c order p l
  | [], _, _ => rfl
  | j :: order, p, l => by
    unfold offWalk
    rw [offWalk_opened i c order, offWalk_opened i c order, offWalk_opened i c order]
    rfl

/-- R108: the port has no part in the walk. -/
theorem projectionWalk_opened (i : Instr) (c : Chip) (kept : Option ShedEntry) :
    (c.opened i).projectionWalk kept = c.projectionWalk kept := by
  unfold Chip.projectionWalk
  dsimp only
  rw [capWalk_opened, offWalk_opened]
  rfl

/-- R97: an event at whose end nothing can be served, whether or not a trigger was met. -/
theorem ordered_waits {b : Bool} {x : Status} (hq : c.quiescent) (h : c.power.shed ≠ [] ∨ ∀ e ∈ c.power.queue, c.waits e) :
    (setServiceDue b (c.opened i)).ordered i x = c.answered i { status := x, result := [] } := by
  refine (queueService_waiting (c := writeAnswer i (setServiceDue b (c.opened i), _)) h).trans ?_
  have hclear : (writeAnswer i (setServiceDue b (c.opened i), ({ status := x, result := [] } : Answer))).power.queue.map
      (fun e => { e with fresh := false }) = c.power.queue := map_clearFresh hq.2
  rw [hclear]
  exact setServiceDue_of_due (c := c.answered i { status := x, result := [] }) hq.1

theorem settings_queueService (c : Chip) : (queueService c).settings = c.settings :=
  queueService_keeps (P := fun t => t.settings = c.settings) (fun _ _ _ h => h) (fun _ _ h => h) (fun _ _ h => h)
    (fun _ _ h => h) rfl

theorem settings_ordered (i : Instr) (x : Status) (c : Chip) : (c.ordered i x).settings = c.settings :=
  settings_queueService _

/-- The settings stand through an event of the power unit. -/
theorem settings_keeps (new : Settings) : PowerKeeps fun t => t.settings = new where
  power _ _ h := h
  raise _ _ _ h := h
  messages _ _ h := h

/-- R114: the end of an over-commit. -/
theorem settlePower_eases (ho : c.overCommitted = false) : ∃ b, settlePower before report c =
    setServiceDue b (setShed ((c.power.shed.filter c.keepsShedEntry).filter fun e => e.acting) c) := by
  unfold settlePower
  extract_lets c1 emptied more less c2 kept c3
  obtain ⟨b, hb⟩ : ∃ b, c2 = setServiceDue b c1 := by
    unfold c2
    split
    · exact ⟨true, rfl⟩
    · exact ⟨c1.power.serviceDue, rfl⟩
  have hover : c2.overCommitted = false := by
    rw [hb]
    exact ho
  have h3 : c3 = setServiceDue b (setShed ((c.power.shed.filter c.keepsShedEntry).filter fun e => e.acting) c) := by
    unfold c3 kept
    rw [hb]
    rfl
  rw [hover, if_neg Bool.false_ne_true, h3]
  split
  · exact ⟨true, rfl⟩
  · exact ⟨b, rfl⟩

/-! ## The event -/

theorem applySettings_power (h : n = 2 ∨ n = 3) : applySettings (oneSetting n v) c =
    settlePower c false (setSettings (writeSettings (oneSetting n v) c.settings) c) := by
  have hnames : (namesField (oneSetting n v) 2 || namesField (oneSetting n v) 3) = true := by
    rw [namesField_oneSetting, namesField_oneSetting, Bool.or_eq_true, decide_eq_true_iff, decide_eq_true_iff]
    exact h
  have h12 : namesField (oneSetting n v) 12 = false := by
    rw [namesField_oneSetting]
    exact decide_eq_false (by omega)
  have hsettings := (settings_keeps (writeSettings (oneSetting n v) c.settings)).settlePower c false
    (c := setSettings (writeSettings (oneSetting n v) c.settings) c) rfl
  have hzone : (writeSettings (oneSetting n v) c.settings).zoneMap = c.settings.zoneMap := by
    rw [writeSettings_one]
    exact if_neg (by omega)
  unfold applySettings powerEvent
  dsimp only
  rw [hnames, h12, if_pos rfl]
  exact fanSettings_of_zoneMap ((congrArg Settings.zoneMap hsettings).trans hzone)

/-- R90, R186: an AMEND of the policy or the base draw in its range. -/
theorem exec_amendSettings_power (h : n = 2 ∨ n = 3) (hw : itemWellFormed .settings { field := n, value := some v } = true)
    (hr : settingInRange { field := n, value := some v } = true) (ht : s.chip.takes (.amendSettings (oneSetting n v)))
    (hnew : writeSettings (oneSetting n v) s.chip.settings = new) : exec (.amendSettings (oneSetting n v)) s =
      .next (s.onChip ((settlePower (s.chip.opened (.amendSettings (oneSetting n v))) false
        ((setSettings new s.chip).opened (.amendSettings (oneSetting n v)))).ordered
          (.amendSettings (oneSetting n v)) .ok)) := by
  subst hnew
  refine (taken_of_takes _ ht).trans ?_
  rw [onItems, if_pos (amendWellFormed_oneSetting hw), amendSettingsOwner_inRange hr, applySettings_power h]
  rfl

section Event

variable (hexec : exec i s = .next (s.onChip ((settlePower (s.chip.opened i) false ((setSettings new s.chip).opened i)).ordered
  i .ok)))
include hexec

theorem powerSetting_within (hq : s.chip.quiescent) (hc : (setSettings new s.chip).overCommitted = false)
    (hshed : s.chip.power.shed = []) (hqueue : s.chip.power.queue = []) :
    exec i s = .next (s.onChip ((setSettings new s.chip).answered i { status := .ok, result := [] })) := by
  have hsettle := settlePower_within (before := s.chip.opened i) (report := false) (c := (setSettings new s.chip).opened i)
    hshed hshed hc
  have hwait (b : Bool) := ordered_waits (c := setSettings new s.chip) (i := i) (x := .ok) (b := b) hq
    (.inr (by rw [show (setSettings new s.chip).power.queue = [] from hqueue]; exact nofun))
  rw [hexec, hsettle]
  refine congrArg (fun c => (Host.Outcome.next (s.onChip c) : Result)) ?_
  split
  · exact hwait true
  · exact hwait (setSettings new s.chip).power.serviceDue

theorem powerSetting_serves (hc : (setSettings new s.chip).overCommitted = false)
    (hshed : s.chip.power.shed = []) (ha : s.chip.available < (setSettings new s.chip).available)
    (hqueue : s.chip.power.queue = [e]) (hk : e.kind = .admission) (hn : (e.need : Int) ≤ (setSettings new s.chip).available) :
    ∃ t, exec i s = .next t ∧ t.chip.settings = new ∧ t.chip.power.queue = [] ∧
      (t.chip.grant e.slot).grant = s.chip.runDraw e.slot ∧ (t.chip.grant e.slot).stage = .settling ∧
      t.chip.port.response = some (answerMessage i { status := .ok, result := [] }) := by
  have hmore : (setSettings new s.chip).committed < s.chip.committed ∨ s.chip.budget < (setSettings new s.chip).budget := by
    unfold Chip.available at ha
    omega
  have hsettle := (settlePower_within (before := s.chip.opened i) (report := false) (c := (setSettings new s.chip).opened i)
    hshed hshed hc).trans (if_pos hmore)
  set d := writeAnswer i (setServiceDue true ((setSettings new s.chip).opened i), ({ status := .ok, result := [] } : Answer))
    with hd
  have hserve : queueService d = setServiceDue false (setQueue [] (serveAdmission e.slot (d.runDraw e.slot) .empty d)) :=
    queueService_serves (c := d) rfl hshed hqueue (serveHead_admission hk hn)
  have hgrant := grant_setGrant_self e.slot { d.grant e.slot with
    grant := d.runDraw e.slot, level := levelFor (d.slot e.slot).terms (d.runDraw e.slot), capSet := .empty,
    stage := .settling } d
  refine ⟨_, hexec, (settings_ordered ..).trans ?_, ?_, ?_, ?_, response_ordered ..⟩
  · exact (settings_keeps new).settlePower _ _ rfl
  all_goals
    dsimp only [State.onChip]
    rw [hsettle]
  · exact congrArg (fun c : Chip => c.power.queue) hserve
  · refine (congrArg (fun c : Chip => (c.grant e.slot).grant) hserve).trans ?_
    rw [serveAdmission_eq]
    exact congrArg GrantRecord.grant hgrant
  · refine (congrArg (fun c : Chip => (c.grant e.slot).stage) hserve).trans ?_
    rw [serveAdmission_eq]
    exact congrArg GrantRecord.stage hgrant

theorem powerSetting_eases (hc : (setSettings new s.chip).overCommitted = false) (hshed : ∀ e ∈ s.chip.power.shed, e.acting = false) :
    ∃ t, exec i s = .next t ∧ t.chip.settings = new ∧ t.chip.power.shed = [] ∧
      t.chip.port.response = some (answerMessage i { status := .ok, result := [] }) := by
  obtain ⟨b, hb⟩ := settlePower_eases (before := s.chip.opened i) (report := false) (c := (setSettings new s.chip).opened i) hc
  refine ⟨_, hexec, (settings_ordered ..).trans ((settings_keeps new).settlePower _ _ rfl), ?_, response_ordered ..⟩
  refine (shed_queueService _).trans ?_
  rw [hb]
  refine List.filter_eq_nil_iff.2 fun e he => ?_
  rw [hshed e (List.mem_of_mem_filter he)]
  exact Bool.false_ne_true

theorem powerSetting_keepsHead {e : ShedEntry} {rest : List ShedEntry} (hq : s.chip.quiescent)
    (hc : (setSettings new s.chip).overCommitted = false) (hshed : s.chip.power.shed = e :: rest) (ha : e.acting = true)
    (hrest : ∀ x ∈ rest, x.acting = false) (hk : (s.chip.slot e.slot).switchClosed = true) :
    exec i s = .next (s.onChip ((setShed [e] (setSettings new s.chip)).answered i { status := .ok, result := [] })) := by
  obtain ⟨b, hb⟩ := settlePower_eases (before := s.chip.opened i) (report := false) (c := (setSettings new s.chip).opened i) hc
  have hkeeps : ((setSettings new s.chip).opened i).keepsShedEntry e = true := decide_eq_true ⟨hk, .inl ha⟩
  have hlist : (((setSettings new s.chip).opened i).power.shed.filter
      ((setSettings new s.chip).opened i).keepsShedEntry).filter (fun e => e.acting) = [e] := by
    have hs : ((setSettings new s.chip).opened i).power.shed = e :: rest := hshed
    have hnone : (rest.filter ((setSettings new s.chip).opened i).keepsShedEntry).filter (fun e => e.acting) = [] :=
      List.filter_eq_nil_iff.2 fun x hx => by
        rw [hrest x (List.mem_of_mem_filter hx)]
        exact Bool.false_ne_true
    rw [hs, List.filter_cons_of_pos hkeeps, List.filter_cons_of_pos ha, hnone]
  rw [hlist] at hb
  rw [hexec, hb]
  exact congrArg (fun c => (Host.Outcome.next (s.onChip c) : Result))
    (ordered_waits (c := setShed [e] (setSettings new s.chip)) hq (.inl (List.cons_ne_nil _ _)))

variable (hmove : (setSettings new s.chip).committed = s.chip.committed ∨ (setSettings new s.chip).budget = s.chip.budget)
include hmove

theorem powerSetting_sheds (hq : s.chip.quiescent) (ho : s.chip.overCommitted = false)
    (hc : (setSettings new s.chip).overCommitted = true) (hshed : s.chip.power.shed = []) :
    ∃ t, exec i s = .next t ∧ t.chip.settings = new ∧ t.chip.slots = s.chip.slots ∧
      t.chip.port.response = some (answerMessage i { status := .ok, result := [] }) ∧
      ((setSettings new s.chip).projectionWalk none = [] → t.chip.power = s.chip.power ∧
        (s.chip.totalGrants = 0 → t.chip.alerted .chassis .budgetExhausted)) ∧
      ∀ e rest, (setSettings new s.chip).projectionWalk none = e :: rest →
        t.chip.power.shed = { e with acting := true } :: rest ∧
        (e.action = .off → Instr.shedOffAction e.slot ∈ t.chip.messages) ∧
        (e.action = .cap → (t.chip.grant e.slot).capSet.budget = true ∧
          ((s.chip.grant e.slot).capRequest = none →
            Instr.capRequest e.slot (s.chip.floorDraw e.slot) ∈ t.chip.messages)) := by
  have hlt := overCommitted_iff.1 hc
  have hle : s.chip.committed ≤ s.chip.budget := Nat.not_lt.1 (of_decide_eq_false ho)
  have hsettle := settlePower_starts (before := s.chip.opened i) (report := false) (c := (setSettings new s.chip).opened i)
    hshed hc (fun h => by
      have h : (setSettings new s.chip).committed < s.chip.committed ∨ s.chip.budget < (setSettings new s.chip).budget := h
      omega) (by
      show s.chip.committed < (setSettings new s.chip).committed ∨ (setSettings new s.chip).budget < s.chip.budget
      omega)
  rw [hsettle] at hexec
  have hframe := ((setSettings new s.chip).opened i).sameButPower_keeps.startShedding (.refl _)
  refine ⟨_, hexec, (settings_ordered ..).trans ((settings_keeps new).startShedding rfl),
    (slots_ordered ..).trans hframe.slots, response_ordered .., fun hw => ?_, fun e rest hw => ?_⟩
  · have hstart := startShedding_exhausted ((projectionWalk_opened i (setSettings new s.chip) none).trans hw)
    have hpower : (startShedding ((setSettings new s.chip).opened i)).power = s.chip.power := by
      rw [hstart]
      exact ite_keeps (P := fun t => t.power = s.chip.power) rfl rfl
    have hservice : (startShedding ((setSettings new s.chip).opened i)).ordered i .ok =
        writeAnswer i (startShedding ((setSettings new s.chip).opened i), { status := .ok, result := [] }) :=
      queueService_of_settled ((congrArg Power.serviceDue hpower).trans hq.1) fun e he => hq.2 e (hpower ▸ he)
    dsimp only [State.onChip]
    refine ⟨(congrArg Chip.power hservice).trans hpower, fun h0 => Chip.alerted.ordered ?_ _ _⟩
    rw [hstart.trans (if_pos h0)]
    exact alerted_raise _ _ _
  · obtain ⟨hlist, hcap, hoff⟩ := startShedding_acts ((projectionWalk_opened i (setSettings new s.chip) none).trans hw)
    obtain ⟨hshed', hmessages, hgrant⟩ := queueService_shedding (c := writeAnswer i
      (startShedding ((setSettings new s.chip).opened i), ({ status := .ok, result := [] } : Answer))) hlist
      (List.cons_ne_nil _ _) e.slot
    dsimp only [State.onChip]
    rw [hmessages, hgrant]
    refine ⟨hshed', hoff, fun ha => ?_⟩
    obtain ⟨hbudget, hasked⟩ := hcap ha
    exact ⟨hbudget, fun hr => (hasked hr).2⟩

end Event

theorem budget_setSettings (h : new.policy = c.settings.policy) : (setSettings new c).budget = c.budget := by
  have hset : (setSettings new c).settings = new := rfl
  unfold Chip.budget
  rw [hset, h]
  rfl

theorem committed_setSettings (h : new.baseDraw = c.settings.baseDraw) : (setSettings new c).committed = c.committed := by
  have hset : (setSettings new c).settings = new := rfl
  unfold Chip.committed
  rw [hset, h]
  rfl

theorem policyOf_eq (n : Nat) : policyOf n = if n = 0 then .none else if n = 1 then .nPlus1 else .nPlusN := by
  match n with
  | 0 | 1 | n + 2 => rfl

theorem writeSettings_policy (v : List Byte) (t : Settings) : writeSettings (oneSetting 2 v) t =
    { t with policy := if number v = 0 then .none else if number v = 1 then .nPlus1 else .nPlusN } := by
  rw [writeSettings_one, ← policyOf_eq]
  rfl

theorem writeSettings_baseDraw (v : List Byte) (t : Settings) :
    writeSettings (oneSetting 3 v) t = { t with baseDraw := number v } := writeSettings_one 3 v t

/-- R85, R86, R186: an AMEND of the policy or the base draw, by what it makes of the comparison of R90. -/
theorem powerSetting_leaves {high : Nat} {f : Nat → Settings → Settings} (h : n = 2 ∨ n = 3)
    (hrange : settingInRange { field := n, value := some v } = stepped 0 high 1 (number v))
    (hwrite : writeSettings (oneSetting n v) s.chip.settings = f (number v) s.chip.settings)
    (hmove : (setSettings (f (number v) s.chip.settings) s.chip).committed = s.chip.committed ∨
      (setSettings (f (number v) s.chip.settings) s.chip).budget = s.chip.budget)
    (hq : s.chip.quiescent) (hw : itemWellFormed .settings { field := n, value := some v } = true)
    (ht : s.chip.takes (.amendSettings (oneSetting n v))) :
    (let i := Instr.amendSettings (oneSetting n v)
     let new := f (number v) s.chip.settings
     let c := setSettings new s.chip
     (high < number v → exec i s = .next (s.onChip (s.chip.answered i { status := .range, result := [] }))) ∧
     (number v ≤ high →
       (s.chip.overCommitted = false → c.overCommitted = false → s.chip.power.shed = [] → s.chip.power.queue = [] →
         exec i s = .next (s.onChip (c.answered i { status := .ok, result := [] }))) ∧
       (s.chip.overCommitted = false → c.overCommitted = false → s.chip.power.shed = [] →
         s.chip.available < c.available →
         ∀ e, s.chip.power.queue = [e] → e.kind = .admission → (e.need : Int) ≤ c.available →
         ∃ t, exec i s = .next t ∧ t.chip.settings = new ∧ t.chip.power.queue = [] ∧
           (t.chip.grant e.slot).grant = s.chip.runDraw e.slot ∧ (t.chip.grant e.slot).stage = .settling ∧
           t.chip.port.response = some (answerMessage i { status := .ok, result := [] })) ∧
       (s.chip.overCommitted = false → c.overCommitted = true → s.chip.power.shed = [] →
         ∃ t, exec i s = .next t ∧ t.chip.settings = new ∧ t.chip.slots = s.chip.slots ∧
           t.chip.port.response = some (answerMessage i { status := .ok, result := [] }) ∧
           (c.projectionWalk none = [] → t.chip.power = s.chip.power ∧
             (s.chip.totalGrants = 0 → t.chip.alerted .chassis .budgetExhausted)) ∧
           ∀ e rest, c.projectionWalk none = e :: rest → t.chip.power.shed = { e with acting := true } :: rest ∧
             (e.action = .off → Instr.shedOffAction e.slot ∈ t.chip.messages) ∧
             (e.action = .cap → (t.chip.grant e.slot).capSet.budget = true ∧
               ((s.chip.grant e.slot).capRequest = none →
                 Instr.capRequest e.slot (s.chip.floorDraw e.slot) ∈ t.chip.messages))) ∧
       (s.chip.overCommitted = true → c.overCommitted = false → (∀ e ∈ s.chip.power.shed, e.acting = false) →
         ∃ t, exec i s = .next t ∧ t.chip.settings = new ∧ t.chip.power.shed = [] ∧
           t.chip.port.response = some (answerMessage i { status := .ok, result := [] })) ∧
       (s.chip.overCommitted = true → c.overCommitted = false →
         ∀ e rest, s.chip.power.shed = e :: rest → e.acting = true → (∀ x ∈ rest, x.acting = false) →
           (s.chip.slot e.slot).switchClosed = true →
           exec i s = .next (s.onChip ((setShed [e] c).answered i { status := .ok, result := [] }))))) := by
  intro i new c
  refine ⟨fun hhigh => exec_amendSettings_range hq ht hw (hrange.trans (Bool.eq_false_iff.2 fun hx => ?_)), fun hhigh => ?_⟩
  · have hle := (stepped_iff.1 hx).2.1
    omega
  have hexec := exec_amendSettings_power h hw (hrange.trans (stepped_iff.2 ⟨Nat.zero_le _, hhigh, Nat.mod_one _⟩)) ht hwrite
  exact ⟨fun _ hc hshed hqueue => powerSetting_within hexec hq hc hshed hqueue,
    fun _ hc hshed ha e hqueue hk hn => powerSetting_serves hexec hc hshed ha hqueue hk hn,
    fun ho hc hshed => powerSetting_sheds hexec hmove hq ho hc hshed,
    fun _ hc hshed => powerSetting_eases hexec hc hshed,
    fun _ hc e rest hshed ha hrest hk => powerSetting_keepsHead hexec hq hc hshed ha hrest hk⟩

end Sys2Proof.Machine

/-!
PROOF. A zone whose demand is recomputed and that is then evaluated (R118, R141, R142, R147, R148), alone and among the others,
and the AMEND of the critical margin (R186).
-/

namespace Sys2Proof.Machine

variable {c t u : Chip} {s : State} {z w : Fin 4} {f j : Fin 8}

/-! ## What decides an evaluation -/

/-- Two parts with the same frame, in which the same fans work. -/
structure Chip.SameClimate (c t : Chip) : Prop where
  frame : c.SameFrame t
  works : ∀ f, (t.fan f).works = (c.fan f).works

namespace Chip.SameClimate

theorem refl (c : Chip) : c.SameClimate c := ⟨.refl c, fun _ => rfl⟩

theorem trans (h : c.SameClimate t) (h' : t.SameClimate u) : c.SameClimate u where
  frame := ⟨h'.frame.slots.trans h.frame.slots, h'.frame.engines.trans h.frame.engines, h'.frame.hub.trans h.frame.hub,
    h'.frame.inventory.trans h.frame.inventory, h'.frame.modules.trans h.frame.modules,
    h'.frame.settings.trans h.frame.settings, h'.frame.response.trans h.frame.response⟩
  works f := (h'.works f).trans (h.works f)

variable (h : c.SameClimate t)
include h

theorem slotZone (k : Fin 16) : t.slotZone k = c.slotZone k := by
  unfold Chip.slotZone
  rw [h.frame.settings]

theorem fanCondition (z : Fin 4) : t.fanCondition z = c.fanCondition z := by
  unfold Chip.fanCondition
  rw [h.works, h.works]

theorem demandOf (z : Fin 4) : t.demandOf z = c.demandOf z := by
  have hslot (k : Fin 16) : t.slot k = c.slot k := congrArg (fun b : Bank 16 Slot => b.read k) h.frame.slots
  have hcounted (k : Fin 16) : t.counted z k = c.counted z k := by
    unfold Chip.counted
    rw [h.slotZone, hslot]
  have hmargin (k : Fin 16) : t.countedMargin k = c.countedMargin k := by
    unfold Chip.countedMargin
    rw [hslot, h.frame.settings]
  unfold Chip.demandOf
  simp only [hcounted, hmargin]

end Chip.SameClimate

/-- Another write of a fan's record that changes no fan's ability to work. -/
theorem works_modFan {g : Fan → Fan} (hg : (g (c.fan f)).works = (c.fan f).works) (j : Fin 8) :
    ((modFan f g c).fan j).works = (c.fan j).works := by
  rw [fan_modFan]
  split
  · next h => rw [hg, h]
  · rfl

theorem Fan.works_of_state {r r' : Fan} (h : r'.state = r.state) : r'.works = r.works := by
  unfold works
  rw [h]

theorem works_targetChange (f j : Fin 8) (x : Nat) (c : Chip) : ((targetChange f x c).fan j).works = (c.fan j).works := by
  have h1 (j : Fin 8) : ((modFan f (fun r => { r with target := x }) c).fan j).works = (c.fan j).works :=
    works_modFan (Fan.works_of_state rfl) j
  have hfan : (modFan f (fun r => { r with target := x }) c).fan f = { c.fan f with target := x } := fan_modFan_self ..
  have hsame {g : Fan → Fan} (hg : ∀ r, (g r).state = r.state) :
      ((modFan f g (modFan f (fun r => { r with target := x }) c)).fan j).works = (c.fan j).works :=
    (works_modFan (Fan.works_of_state (hg _)) j).trans (h1 j)
  unfold targetChange
  dsimp only
  split
  · exact ite_keeps (P := fun t => (t.fan j).works = (c.fan j).works) (hsame fun _ => rfl) (h1 j)
  · exact hsame fun _ => rfl
  · next hs =>
    refine ite_keeps (P := fun t => (t.fan j).works = (c.fan j).works) ((works_modFan ?_ j).trans (h1 j)) (h1 j)
    rw [hfan]
    unfold unlock Fan.works
    dsimp only
    rw [hs]
    rfl
  all_goals exact h1 j

theorem works_deliverTarget (f j : Fin 8) (c : Chip) : ((deliverTarget f c).fan j).works = (c.fan j).works :=
  ite_keeps (P := fun t => (t.fan j).works = (c.fan j).works) rfl
    (ite_keeps (P := fun t => (t.fan j).works = (c.fan j).works) rfl (works_targetChange ..))

/-! ## The demand (R118) -/

/-- R118: the record of a zone whose demand is recomputed, up to its target. -/
theorem zone_recomputeDemand (z : Fin 4) (c : Chip) :
    (∃ x, (recomputeDemand z c).zone z = { c.zone z with demand := c.demandOf z, target := x }) ∧
      ∀ w, w ≠ z → (recomputeDemand z c).zone w = c.zone w := by
  unfold recomputeDemand
  dsimp only
  split
  · next h => exact ⟨⟨(c.zone z).target, by rw [h]⟩, fun _ _ => rfl⟩
  · have hr := recomputeTarget_retargeted z (modZone z (fun r => { r with demand := c.demandOf z }) c)
    refine ⟨⟨targetFor (c.zone z).active (c.demandOf z), ?_⟩, fun w hw => ?_⟩
    · rw [hr.zone, zone_modZone, if_pos rfl, zone_modZone, if_pos rfl]
    · rw [hr.zone, zone_modZone, if_neg hw, zone_modZone, if_neg hw]

theorem climate_recomputeDemand (z : Fin 4) (c : Chip) : c.SameClimate (recomputeDemand z c) where
  frame := c.sameFrame_keeps.recomputeDemand z (.refl c)
  works f := by
    have htarget (t : Chip) : ((recomputeTarget z t).fan f).works = (t.fan f).works :=
      ite_keeps (P := fun u => (u.fan f).works = (t.fan f).works) rfl
        ((works_deliverTarget ..).trans (works_deliverTarget (firstFan z) f
          (modZone z (fun r => { r with target := targetFor (t.zone z).active (t.zone z).demand }) t)))
    exact ite_keeps (P := fun u => (u.fan f).works = (c.fan f).works) rfl
      (htarget (modZone z (fun r => { r with demand := c.demandOf z }) c))

/-! ## The evaluation (R141, R142, R147, R148) -/

theorem Fan.works_boosting (r : Fan) : r.boosting.works = r.works := by
  unfold boosting works
  cases hs : r.state
  case calibrating | tracking | locked | pinned => rfl
  all_goals
    dsimp only
    rw [hs]

theorem Fan.works_unboosting (r : Fan) : r.unboosting.works = r.works := by
  by_cases hs : r.state = .boost
  · have hworks : r.works = true := by
      unfold works
      rw [hs]
      rfl
    cases hp : r.pinnedBand with
    | some b =>
      rw [unboosting_of_pin hs hp, hworks]
      rfl
    | none =>
      rw [unboosting_of_none hs hp, hworks]
      rfl
  · rw [unboosting_of_ne hs]

theorem works_evaluateZone (z : Fin 4) (f : Fin 8) (c : Chip) : ((evaluateZone z c).fan f).works = (c.fan f).works := by
  cases he : (c.zone z).emergency
  · by_cases h : c.marginCondition z = true ∨ c.fanCondition z = true
    · rw [evaluateZone_begins he h, fan_beginEmergency]
      split
      · exact Fan.works_boosting _
      · rfl
    · rw [evaluateZone_quiet he (Bool.eq_false_iff.2 fun hm => h (.inl hm)) (Bool.eq_false_iff.2 fun hf => h (.inr hf))]
  · cases h : c.endsEmergency z
    · rw [(evaluateZone_stays he h).2]
    · rw [evaluateZone_ends he h, fan_endEmergency]
      split
      · exact Fan.works_unboosting _
      · rfl

theorem climate_refreshZone (z : Fin 4) (c : Chip) : c.SameClimate (refreshZone z c) :=
  (climate_recomputeDemand z c).trans
    ⟨(recomputeDemand z c).sameFrame_keeps.evaluateZone z (.refl _), fun f => works_evaluateZone z f _⟩

/-- An evaluation writes the record of no other zone. -/
theorem zone_evaluateZone_ne (hw : w ≠ z) (c : Chip) : (evaluateZone z c).zone w = c.zone w := by
  unfold evaluateZone
  split
  · split
    · rw [zone_endEmergency, if_neg hw]
    · have hcause : (modZone z (fun r => { r with cause := some (c.emergencyCause z) }) c).zone w = c.zone w := by
        rw [zone_modZone, if_neg hw]
      exact ite_keeps (P := fun t => t.zone w = c.zone w) ((sendDrains_leaves z w 0 _).2.trans hcause) hcause
  · split
    · rw [zone_beginEmergency, if_neg hw]
    · rfl

theorem zone_refreshZone_ne (hw : w ≠ z) (c : Chip) : (refreshZone z c).zone w = c.zone w :=
  (zone_evaluateZone_ne hw _).trans ((zone_recomputeDemand z c).2 w hw)

/-- R141, R148: the emergency after an evaluation, by the demand that stands. -/
theorem emergencyAfter_iff : c.emergencyAfter z (c.zone z).demand c.settings.criticalMargin = true ↔
    if (c.zone z).emergency then c.endsEmergency z = false else c.marginCondition z = true ∨ c.fanCondition z = true := by
  unfold Chip.emergencyAfter
  rw [Bool.or_eq_true]
  split
  · rw [← Bool.not_eq_true, endsEmergency_iff]
    cases hf : c.fanCondition z
    · cases (c.zone z).demand with
      | none => exact ⟨fun h => h.elim nofun nofun, fun h => absurd ⟨rfl, nofun⟩ h⟩
      | some d =>
        refine ⟨fun h ⟨_, hd⟩ => ?_, fun h => .inr (decide_eq_true ?_)⟩
        · have hlt := of_decide_eq_true (h.resolve_left nofun)
          have := hd d rfl
          omega
        · by_contra hle
          exact h ⟨rfl, fun e he => Option.some.inj he ▸ by omega⟩
    · exact ⟨fun _ h => (nomatch h.1), fun _ => .inl rfl⟩
  · rw [marginCondition_iff, or_comm]
    refine or_congr_left ?_
    cases (c.zone z).demand with
    | none => exact ⟨nofun, fun ⟨_, h, _⟩ => (nomatch h)⟩
    | some d => exact ⟨fun h => ⟨d, rfl, Nat.lt_succ_iff.1 (of_decide_eq_true h)⟩, fun ⟨e, he, hle⟩ =>
        decide_eq_true (Option.some.inj he ▸ Nat.lt_succ_of_le hle)⟩

/-- What an event of R118 makes of a zone. -/
structure Chip.Refreshed (c : Chip) (z : Fin 4) (t : Chip) : Prop where
  demand : (t.zone z).demand = c.demandOf z
  emergency : (t.zone z).emergency = c.emergencyAfter z (c.demandOf z) c.settings.criticalMargin
  cause : (t.zone z).emergency = true → (t.zone z).cause = some (if c.fanCondition z then .fans else .margin)
  begun : (t.zone z).emergency = true → (c.zone z).emergency = false →
    (t.zone z).grace = some c.settings.emergencyGrace ∧ (t.zone z).graceTimer = true ∧ t.alerted (.zone z) .zoneEmergency
  ended : (c.zone z).emergency = true → (t.zone z).emergency = false →
    (t.zone z).cause = none ∧ (t.zone z).grace = none ∧ (t.zone z).graceTimer = false

/-- R141, R142, R147, R148: an evaluation whose demand stands. -/
theorem refreshed_evaluateZone (hd : (c.zone z).demand = c.demandOf z) : c.Refreshed z (evaluateZone z c) := by
  have hafter := emergencyAfter_iff (c := c) (z := z)
  rw [hd] at hafter
  cases he : (c.zone z).emergency
  · rw [he, if_neg Bool.false_ne_true] at hafter
    by_cases h : c.marginCondition z = true ∨ c.fanCondition z = true
    · have hzone : (evaluateZone z c).zone z = (c.zone z).begun (c.emergencyCause z) c.settings.emergencyGrace := by
        rw [evaluateZone_begins he h, zone_beginEmergency, if_pos rfl]
      refine ⟨?_, ?_, ?_, ?_, ?_⟩ <;> rw [hzone]
      · exact hd
      · exact (hafter.2 h).symm
      · exact fun _ => rfl
      · refine fun _ _ => ⟨rfl, rfl, ?_⟩
        rw [evaluateZone_begins he h]
        exact alerted_beginEmergency z c
      · exact fun _ => nofun
    · have hquiet := evaluateZone_quiet he (Bool.eq_false_iff.2 fun hm => h (.inl hm))
        (Bool.eq_false_iff.2 fun hf => h (.inr hf))
      rw [hquiet]
      refine ⟨hd, ?_, fun hx => (nomatch he.symm.trans hx), fun hx => (nomatch he.symm.trans hx),
        fun hx => (nomatch he.symm.trans hx)⟩
      rw [he]
      exact (Bool.eq_false_iff.2 fun hx => h (hafter.1 hx)).symm
  · rw [he, if_pos rfl] at hafter
    cases h : c.endsEmergency z
    · obtain ⟨hzone, -⟩ := evaluateZone_stays he h
      refine ⟨?_, ?_, ?_, fun _ hx => (nomatch he.symm.trans hx), ?_⟩ <;> rw [hzone]
      · exact hd
      · exact he.trans (hafter.2 h).symm
      · exact fun _ => rfl
      · exact fun _ hx => (nomatch he.symm.trans hx)
    · have hzone : (evaluateZone z c).zone z = (c.zone z).ended := by
        rw [evaluateZone_ends he h, zone_endEmergency, if_pos rfl]
      refine ⟨?_, ?_, ?_, fun _ hx => (nomatch he.symm.trans hx), ?_⟩ <;> rw [hzone]
      · exact hd
      · exact (Bool.eq_false_iff.2 fun hx => (nomatch h.symm.trans (hafter.1 hx))).symm
      · exact nofun
      · exact fun _ _ => ⟨rfl, rfl, rfl⟩

/-- A refresh that starts from a part with the same climate and the same records of the zone. -/
theorem Chip.Refreshed.of_climate (h : c.SameClimate t) (hd : (t.zone z).emergency = (c.zone z).emergency)
    (hr : t.Refreshed z u) : c.Refreshed z u := by
  obtain ⟨hdemand, hemergency, hcause, hbegun, hended⟩ := hr
  rw [h.demandOf] at hdemand
  rw [h.demandOf, h.frame.settings] at hemergency
  rw [h.fanCondition] at hcause
  rw [hd, h.frame.settings] at hbegun
  rw [hd] at hended
  refine ⟨hdemand, hemergency.trans ?_, hcause, hbegun, hended⟩
  unfold Chip.emergencyAfter
  rw [h.fanCondition, hd]

/-- R118, R141: an event of R118 that reaches a zone. -/
theorem refreshed_refreshZone (z : Fin 4) (c : Chip) : c.Refreshed z (refreshZone z c) := by
  have h := climate_recomputeDemand z c
  obtain ⟨⟨x, hx⟩, -⟩ := zone_recomputeDemand z c
  refine .of_climate h (by rw [hx]) (refreshed_evaluateZone ?_)
  rw [hx, h.demandOf]

theorem Chip.Refreshed.keeps (h : c.Refreshed z t) (hz : u.zone z = t.zone z)
    (ha : t.alerted (.zone z) .zoneEmergency → u.alerted (.zone z) .zoneEmergency) : c.Refreshed z u := by
  obtain ⟨hdemand, hemergency, hcause, hbegun, hended⟩ := h
  rw [← hz] at hdemand hemergency hcause hbegun hended
  refine ⟨hdemand, hemergency, hcause, fun he h0 => ?_, hended⟩
  obtain ⟨hgrace, htimer, halert⟩ := hbegun he h0
  exact ⟨hgrace, htimer, ha halert⟩

/-! ## Several zones in one event (R186) -/

/-- R186, log 54: zones refreshed one after another, none of them twice. -/
theorem refreshed_zones : ∀ (l : List (Fin 4)) (c : Chip), l.Nodup → c.SameClimate (forEach l refreshZone c) ∧
    (∀ z ∈ l, c.Refreshed z (forEach l refreshZone c)) ∧
      ∀ w, w ∉ l → (forEach l refreshZone c).zone w = c.zone w
  | [], c, _ => ⟨.refl c, nofun, fun _ _ => rfl⟩
  | x :: l, c, hl => by
    obtain ⟨hx, hl⟩ := List.nodup_cons.1 hl
    have hfirst := climate_refreshZone x c
    obtain ⟨hclimate, hrest, hothers⟩ := refreshed_zones l (refreshZone x c) hl
    refine ⟨hfirst.trans hclimate, fun z hz => ?_, fun w hw => ?_⟩
    · by_cases hzx : z = x
      · subst hzx
        refine (refreshed_refreshZone z c).keeps (hothers z hx) fun h => ?_
        exact forEach_keeps (P := fun t => t.alerted (.zone z) .zoneEmergency) l refreshZone
          (fun w _ ht => (Chip.alerted_keeps (.zone z) .zoneEmergency).toFanKeeps.refreshZone w ht) _ h
      · exact .of_climate hfirst (by rw [zone_refreshZone_ne hzx]) (hrest z ((List.mem_cons.1 hz).resolve_left hzx))
    · obtain ⟨hwx, hwl⟩ := not_or.1 (mt List.mem_cons.2 hw)
      exact (hothers w hwl).trans (zone_refreshZone_ne hwx c)

end Sys2Proof.Machine

/-!
PROOF. THERMAL and the grant queue (R95, R101, R105, R143): a slot with THERMAL waits for no uplift, so that the service of the
queue leaves it THERMAL.
-/

namespace Sys2Proof.Machine

variable {c t : Chip} {j k : Fin 16} {z : Fin 4} {g : GrantRecord}

/-! ## The entries of a slot -/

/-- Every entry of the slot on the queue is for an uplift. -/
def Chip.upliftOnly (c : Chip) (k : Fin 16) : Prop := ∀ x ∈ c.power.queue, x.slot = k → x.kind = .uplift

/-- Every entry of the slot is for an uplift, and it has none while it has THERMAL. -/
structure Chip.cool (c : Chip) (k : Fin 16) : Prop where
  uplift : c.upliftOnly k
  thermal : (c.grant k).capSet.thermal = true → c.queueEntry k = none

theorem Chip.cool.of_none (h : c.queueEntry k = none) : c.cool k :=
  ⟨fun x hx hk => absurd hk (queueEntry_eq_none_iff.1 h x hx), fun _ => h⟩

theorem grant_alignUplift (j k : Fin 16) (c : Chip) : (alignUplift j c).grant k = c.grant k :=
  alignUplift_keeps (P := fun t => t.grant k = c.grant k) (fun _ _ h => h) (fun _ _ h => h) j rfl

/-- R95: the alignment of a slot that waits for uplifts alone, and does not qualify for one. -/
theorem Chip.upliftOnly.queueEntry_alignUplift (h : c.upliftOnly k) (hq : c.qualifiesUplift k = false) :
    (alignUplift k c).queueEntry k = none := by
  cases he : c.queueEntry k with
  | none => rw [alignUplift_of_unqualified he hq, he]
  | some e =>
    have hkind : e.kind = .uplift := h e (queueEntry_mem he) (queueEntry_slot he)
    have hleft : Machine.alignUplift k c = leaveQueue k c := by
      unfold Machine.alignUplift
      dsimp only
      rw [hq, he]
      exact if_pos hkind
    refine queueEntry_eq_none_iff.2 fun x hx => ?_
    rw [hleft] at hx
    unfold leaveQueue at hx
    rw [he] at hx
    exact of_decide_eq_true (List.mem_filter.1 hx).2

/-- R95: the alignment of a slot whose entries are for uplifts leaves it none while it has THERMAL. -/
theorem Chip.upliftOnly.alignUplift (h : c.upliftOnly k) : (alignUplift k c).cool k := by
  have hgrant := grant_alignUplift k k c
  cases hq : c.qualifiesUplift k
  · exact .of_none (h.queueEntry_alignUplift hq)
  · have hset : (c.grant k).capSet = .onlyBudget := (qualifiesUplift_iff.1 hq).2.2
    refine ⟨?_, fun ht => ?_⟩
    · unfold Machine.alignUplift
      dsimp only
      rw [hq, if_pos rfl]
      split
      · intro x hx hk
        obtain rfl | hx := mem_insertEntry_iff.1 hx
        · rfl
        · exact h x hx hk
      · intro x hx hk
        obtain ⟨y, hy, rfl⟩ := List.mem_map.1 hx
        split at hk <;> split
        · next hy' => exact h y hy hy'
        · next hn => exact absurd hk hn
        · next hn _ => exact absurd hk hn
        · exact h y hy hk
    · rw [hgrant, hset] at ht
      exact nomatch ht

/-- R95: the alignment of another slot. -/
theorem Chip.cool.alignUplift_ne (h : c.cool k) (hj : j ≠ k) : (alignUplift j c).cool k where
  uplift x hx hk := h.uplift x ((mem_queue_alignUplift (by rw [hk]; exact hj.symm)).1 hx) hk
  thermal ht := by
    rw [grant_alignUplift] at ht
    refine queueEntry_eq_none_iff.2 fun x hx hk => ?_
    exact queueEntry_eq_none_iff.1 (h.thermal ht) x ((mem_queue_alignUplift (by rw [hk]; exact hj.symm)).1 hx) hk

/-- A grant record that is written, and its slot then brought into line. -/
theorem Chip.cool.aligned (h : c.cool k) (j : Fin 16) (g : GrantRecord) : (alignUplift j (setGrant j g c)).cool k := by
  by_cases hj : j = k
  · subst hj
    exact Chip.upliftOnly.alignUplift (c := setGrant j g c) h.uplift
  · refine Chip.cool.alignUplift_ne (c := setGrant j g c) ⟨h.uplift, fun ht => ?_⟩ hj
    rw [grant_setGrant, if_neg fun hk => hj hk.symm] at ht
    exact h.thermal ht

theorem Chip.cool.aligned_post (h : c.cool k) (j : Fin 16) (g : GrantRecord) (m : Instr) :
    (alignUplift j (post m (setGrant j g c))).cool k := Chip.cool.aligned (c := post m c) ⟨h.uplift, h.thermal⟩ j g

theorem Chip.cool.capForShed (h : c.cool k) (j : Fin 16) : (capForShed j c).cool k := by
  unfold Machine.capForShed
  dsimp only
  split
  · exact h.aligned_post j _ _
  · exact h.aligned j _

theorem Chip.cool.addReason (h : c.cool k) (r : CapReason) (j : Fin 16) : (addReason r j c).cool k := by
  unfold Machine.addReason
  dsimp only
  refine ite_keeps (P := fun t => t.cool k) h (ite_keeps (P := fun t => t.cool k) ?_ (h.aligned j _))
  split
  · exact h.aligned_post j _ _
  · exact h.aligned j _

theorem Chip.cool.requestThermal (h : c.cool k) (j : Fin 16) : (requestThermal j c).cool k :=
  ite_keeps (P := fun t => t.cool k) (h.addReason .thermal j) h

theorem Chip.cool.removeReason (h : c.cool k) (r : CapReason) (j : Fin 16) : (removeReason r j c).cool k := by
  by_cases hr : (c.grant j).capSet.has r = true
  · rw [removeReason_of_has hr]
    exact h.aligned j _
  · rw [removeReason_of_not hr]
    exact h

theorem cool_settling (k : Fin 16) : SettlingKeeps fun c => c.cool k where
  capForShed _ _ h := h.capForShed _
  setShed _ _ h := ⟨h.uplift, h.thermal⟩
  setServiceDue _ _ h := ⟨h.uplift, h.thermal⟩
  raise _ _ _ h := ⟨h.uplift, h.thermal⟩
  post _ _ h := ⟨h.uplift, h.thermal⟩

theorem cool_fanCalls (k : Fin 16) : FanCallsKeep fun c => c.cool k where
  fans _ _ h := ⟨h.uplift, h.thermal⟩
  raise _ _ _ h := ⟨h.uplift, h.thermal⟩
  post _ _ h := ⟨h.uplift, h.thermal⟩
  giveReservation _ _ _ _ h := SettlingKeeps.powerEvent (P := fun c => c.cool k) (cool_settling k) false ⟨h.uplift, h.thermal⟩
  requestThermal _ _ h := h.requestThermal _
  removeReason _ _ _ h := h.removeReason _ _

/-! ## The service of the queue (R97, R98, R100) -/

/-- A slot that has THERMAL keeps it. -/
theorem Chip.cool.queueService_thermal (h : c.cool k) (ht : c.thermalIs k true) : (queueService c).thermalIs k true :=
  queueService_around (k := k) (P := fun t => t.thermalIs k true) (fun _ _ _ hj h => thermalIs_setGrant h fun hk => absurd hk hj)
    (fun _ _ h => h) (fun _ _ h => h) (fun _ _ h => h) (queueEntry_eq_none_iff.1 (h.thermal ht)) ht

/-- R98, R100: a slot without THERMAL is given none. -/
theorem queueService_cools (h : c.thermalIs k false) : (queueService c).thermalIs k false := by
  refine queueService_of_heads (P := fun t => t.thermalIs k false) (fun e _ d d' hs hd => ?_) (fun _ _ h => h)
    (fun _ _ h => h) h
  have hpost (m : Instr) (d : Chip) (h : d.thermalIs k false) : (post m d).thermalIs k false := h
  obtain ⟨grant, caps, hcaps, rfl⟩ | rfl := serveHead_cases hs
  · rw [serveAdmission_eq]
    refine hpost _ _ (thermalIs_setGrant hd fun _ => ?_)
    rcases hcaps with rfl | rfl <;> rfl
  · rw [serveUplift_eq]
    refine hpost _ _ (thermalIs_setGrant hd fun hj => ?_)
    subst hj
    exact hd

end Sys2Proof.Machine

/-!
PROOF. AMEND of the critical margin and of the zone map (R143, R186).
-/

namespace Sys2Proof.Machine

variable {c d t : Chip} {s : State} {j k : Fin 16} {x y z : Fin 4} {n : Nat} {v : List Byte} {i : Instr} {new : Settings}

/-! ## The events of the two settings -/

/-- The port has no part in what the zones' demands and emergencies follow. -/
theorem climate_opened (i : Instr) (c : Chip) : c.SameClimate (c.opened i) := ⟨⟨rfl, rfl, rfl, rfl, rfl, rfl, rfl⟩, fun _ => rfl⟩

theorem Chip.Refreshed.ordered (h : c.Refreshed z t) (i : Instr) (st : Status) : c.Refreshed z (t.ordered i st) :=
  h.keeps (zone_ordered ..) fun ha => ha.ordered i st

/-- R185, R186: an AMEND of one setting in its range, as the fan controller is left. -/
theorem exec_amendSettings_fans (hw : itemWellFormed .settings { field := n, value := some v } = true)
    (hr : settingInRange { field := n, value := some v } = true) (ht : s.chip.takes (.amendSettings (oneSetting n v)))
    (ha : applySettings (oneSetting n v) (s.chip.opened (.amendSettings (oneSetting n v))) = d) :
    exec (.amendSettings (oneSetting n v)) s = .next (s.onChip (d.ordered (.amendSettings (oneSetting n v)) .ok)) := by
  refine (taken_of_takes _ ht).trans ?_
  rw [onItems, if_pos (amendWellFormed_oneSetting hw), amendSettingsOwner_inRange hr, ha]

theorem followMove_of_same {old : Chip} (h : old.slotZone k = c.slotZone k) : followMove old k c = c := if_pos h

/-! ### The critical margin -/

theorem writeSettings_criticalMargin (v : Byte) (t : Settings) :
    writeSettings (oneSetting 12 [v]) t = { t with criticalMargin := v.toNat } := by
  rw [writeSettings_one, number_singleton]
  rfl

/-- R186: with the critical margin named every zone is refreshed, and no slot has moved. -/
theorem applySettings_criticalMargin (v : Byte) (c : Chip) : applySettings (oneSetting 12 [v]) c =
    forEach (keys 4) refreshZone (setSettings { c.settings with criticalMargin := v.toNat } c) := by
  have hall : ((keys 4).filter fun z => decide (namesField (oneSetting 12 [v]) 12 = true ∨
      zoneTouched c (setSettings { c.settings with criticalMargin := v.toNat } c) z = true)) = keys 4 :=
    List.filter_eq_self.2 fun z _ => decide_eq_true (.inl ((namesField_oneSetting ..).trans (decide_eq_true rfl)))
  obtain ⟨hclimate, -⟩ := refreshed_zones (keys 4) (setSettings { c.settings with criticalMargin := v.toNat } c)
    (List.nodup_finRange 4)
  have hnames : (namesField (oneSetting 12 [v]) 2 || namesField (oneSetting 12 [v]) 3) = false := rfl
  unfold applySettings fanSettings
  dsimp only
  rw [hnames, if_neg Bool.false_ne_true, writeSettings_criticalMargin, hall]
  exact forEach_eq_self _ fun k _ => followMove_of_same (hclimate.slotZone k).symm

/-- R186: every zone follows the new critical margin. -/
theorem criticalMargin_follows (v : Byte) (hv : v.toNat ≤ 30)
    (ht : s.chip.takes (.amendSettings [{ field := 12, value := some [v] }])) :
    ∃ t, exec (.amendSettings [{ field := 12, value := some [v] }]) s = .next t ∧
      t.chip.settings = { s.chip.settings with criticalMargin := v.toNat } ∧ t.chip.slots = s.chip.slots ∧
      t.chip.port.response =
        some (answerMessage (.amendSettings [{ field := 12, value := some [v] }]) { status := .ok, result := [] }) ∧
      ∀ z, (setSettings { s.chip.settings with criticalMargin := v.toNat } s.chip).Refreshed z t.chip := by
  have hrange : settingInRange { field := 12, value := some [v] } = true :=
    stepped_iff.2 ⟨Nat.zero_le _, by rw [number_singleton]; exact hv, Nat.mod_one _⟩
  have happly : applySettings (oneSetting 12 [v]) (s.chip.opened (.amendSettings (oneSetting 12 [v]))) =
      forEach (keys 4) refreshZone ((setSettings { s.chip.settings with criticalMargin := v.toNat } s.chip).opened
        (.amendSettings (oneSetting 12 [v]))) := applySettings_criticalMargin v _
  have hexec := exec_amendSettings_fans rfl hrange ht happly
  have hopened := climate_opened (.amendSettings (oneSetting 12 [v]))
    (setSettings { s.chip.settings with criticalMargin := v.toNat } s.chip)
  obtain ⟨hclimate, hzones, -⟩ := refreshed_zones (keys 4)
    ((setSettings { s.chip.settings with criticalMargin := v.toNat } s.chip).opened (.amendSettings (oneSetting 12 [v])))
    (List.nodup_finRange 4)
  have hall := hopened.trans hclimate
  refine ⟨_, hexec, (settings_ordered ..).trans hall.frame.settings, (slots_ordered ..).trans hall.frame.slots,
    response_ordered .., fun z => ?_⟩
  exact .of_climate hopened rfl ((hzones z (List.mem_finRange z)).ordered _ _)

/-! ### The zone map -/

theorem writePairs_one (m : Bank 16 (Fin 4)) (k : Fin 16) (z : Fin 4) : writePairs m [(k.val, z.val)] = m.put k z := by
  refine Eq.trans ?_ (Bank.gen_read (m.put k z))
  unfold writePairs
  refine congrArg Bank.gen (funext fun j => ?_)
  rw [Bank.read_put]
  by_cases hj : j = k
  · simp [hj]
  · have hne : ¬ k.val = j.val := fun h => hj (Fin.ext h.symm)
    simp [hj, hne]

/-- The operand that moves one slot to a zone. -/
abbrev onePair (k z : Byte) : List Byte := [1, k, z]

theorem readPairs_onePair (k : Fin 16) (z : Fin 4) :
    readPairs (onePair (BitVec.ofNat 8 k.val) (BitVec.ofNat 8 z.val)).tail = [(k.val, z.val)] := by
  have hk : (BitVec.ofNat 8 k.val).toNat = k.val := by
    rw [BitVec.toNat_ofNat]
    omega
  have hz : (BitVec.ofNat 8 z.val).toNat = z.val := by
    rw [BitVec.toNat_ofNat]
    omega
  simp only [onePair, List.tail_cons, readPairs, hk, hz]

theorem writeSettings_zoneMap (k : Fin 16) (z : Fin 4) (t : Settings) :
    writeSettings (oneSetting 6 (onePair (BitVec.ofNat 8 k.val) (BitVec.ofNat 8 z.val))) t =
      { t with zoneMap := t.zoneMap.put k z } := by
  rw [writeSettings_one, readPairs_onePair, writePairs_one]
  rfl

theorem settingInRange_onePair (k z : Byte) :
    settingInRange { field := 6, value := some (onePair k z) } = decide (k.toNat < 16 ∧ z.toNat < 4) := Bool.and_true _

theorem applySettings_zoneMap (k : Fin 16) (z : Fin 4) (c : Chip) :
    applySettings (oneSetting 6 (onePair (BitVec.ofNat 8 k.val) (BitVec.ofNat 8 z.val))) c =
      fanSettings c false (setSettings { c.settings with zoneMap := c.settings.zoneMap.put k z } c) := by
  have hnames : (namesField (oneSetting 6 (onePair (BitVec.ofNat 8 k.val) (BitVec.ofNat 8 z.val))) 2 ||
      namesField (oneSetting 6 (onePair (BitVec.ofNat 8 k.val) (BitVec.ofNat 8 z.val))) 3) = false := rfl
  have hmargin : namesField (oneSetting 6 (onePair (BitVec.ofNat 8 k.val) (BitVec.ofNat 8 z.val))) 12 = false := rfl
  unfold applySettings
  dsimp only
  rw [hnames, if_neg Bool.false_ne_true, writeSettings_zoneMap, hmargin]

/-- The part with one slot's zone written. -/
abbrev Chip.zoned (c : Chip) (k : Fin 16) (z : Fin 4) : Chip :=
  setSettings { c.settings with zoneMap := c.settings.zoneMap.put k z } c

theorem slotZone_zoned (c : Chip) (k j : Fin 16) (z : Fin 4) :
    (c.zoned k z).slotZone j = if j = k then z else c.slotZone j := Bank.read_put ..

/-- R186: the zones that a slot moved to another leaves and joins. -/
theorem zoneTouched_zoned (h : c.slotZone k ≠ z) : zoneTouched c (c.zoned k z) x = true ↔ x = c.slotZone k ∨ x = z := by
  unfold zoneTouched
  rw [List.any_eq_true]
  constructor
  · rintro ⟨j, -, hj⟩
    obtain ⟨hne, hx⟩ := of_decide_eq_true hj
    rw [slotZone_zoned] at hne hx
    by_cases hjk : j = k
    · rw [if_pos hjk, hjk] at hx
      exact hx.imp Eq.symm Eq.symm
    · rw [if_neg hjk] at hne
      exact absurd rfl hne
  · intro hx
    refine ⟨k, List.mem_finRange k, decide_eq_true ?_⟩
    rw [slotZone_zoned, if_pos rfl]
    exact ⟨h, hx.imp Eq.symm Eq.symm⟩

/-- Of operations over a list that has one element once, where only the operation of that element does anything. -/
theorem forEach_only {α : Type} {P : Chip → Prop} {op : α → Chip → Chip} {a : α} (hkeep : ∀ t, P t → P (op a t))
    (hidle : ∀ b t, b ≠ a → P t → op b t = t) {l : List α} (hl : l.Nodup) (ha : a ∈ l) (ht : P t) :
    forEach l op t = op a t := by
  induction l with
  | nil => exact nomatch ha
  | cons b l ih =>
    obtain ⟨hb, hl⟩ := List.nodup_cons.1 hl
    rw [forEach_cons]
    by_cases hba : b = a
    · subst hba
      exact forEach_eq_self l fun x hx => hidle x _ (fun h => hb (h ▸ hx)) (hkeep t ht)
    · rw [hidle b t hba ht]
      exact ih hl ((List.mem_cons.1 ha).resolve_left (Ne.symm hba))

/-- R143: what becomes of THERMAL of a moved slot. -/
theorem followMove_keeps {P : Chip → Prop} (hr : ∀ c, P c → P (requestThermal k c))
    (hrem : ∀ c, P c → P (removeReason .thermal k c)) {old : Chip} (hc : P c) : P (followMove old k c) :=
  ite_keeps hc (ite_keeps (hr _ hc) (ite_keeps (hrem _ hc) hc))

/-- The part as the zones that a moved slot leaves and joins are refreshed. -/
abbrev Chip.rezoned (c : Chip) (k : Fin 16) (z : Fin 4) : Chip :=
  forEach ((keys 4).filter fun x => zoneTouched c (c.zoned k z) x) refreshZone (c.zoned k z)

theorem refreshed_rezoned (c : Chip) (k : Fin 16) (z : Fin 4) (h : c.slotZone k ≠ z) :
    (c.zoned k z).SameClimate (c.rezoned k z) ∧
      (∀ x, x = c.slotZone k ∨ x = z → (c.zoned k z).Refreshed x (c.rezoned k z)) ∧
      ∀ x, x ≠ c.slotZone k → x ≠ z → (c.rezoned k z).zone x = c.zone x := by
  obtain ⟨hclimate, hzones, hothers⟩ := refreshed_zones ((keys 4).filter fun x => zoneTouched c (c.zoned k z) x)
    (c.zoned k z) ((List.nodup_finRange 4).filter _)
  refine ⟨hclimate, fun x hx => hzones x ?_, fun x hy hz => (hothers x fun hx => ?_).trans rfl⟩
  · exact List.mem_filter.2 ⟨List.mem_finRange x, (zoneTouched_zoned h).2 hx⟩
  · exact ((zoneTouched_zoned h).1 (List.mem_filter.1 hx).2).elim hy hz

/-- R143, R186: a slot moved to another zone. -/
theorem fanSettings_zoned (h : c.slotZone k ≠ z) :
    fanSettings c false (c.zoned k z) = followMove c k (c.rezoned k z) := by
  have hfilter : ((keys 4).filter fun x => decide (false = true ∨ zoneTouched c (c.zoned k z) x = true)) =
      (keys 4).filter fun x => zoneTouched c (c.zoned k z) x :=
    List.filter_congr fun x _ => by simp
  obtain ⟨hclimate, -⟩ := refreshed_rezoned c k z h
  unfold fanSettings
  rw [hfilter]
  refine forEach_only (P := fun t => t.settings = (c.zoned k z).settings) (fun t ht => ?_) (fun j t hj ht => ?_)
    (List.nodup_finRange 16) (List.mem_finRange k) hclimate.frame.settings
  · exact followMove_keeps (P := fun t => t.settings = (c.zoned k z).settings)
      (fun _ h => (settings_keeps _).requestThermal k h) (fun _ h => (settings_keeps _).removeReason _ k h) ht
  · refine followMove_of_same ?_
    have hzone : t.slotZone j = (c.zoned k z).slotZone j := by
      unfold Chip.slotZone
      rw [ht]
    rw [hzone, slotZone_zoned, if_neg hj]

/-- R101: whether a slot can be capped, where its record and its grant are as they were. -/
theorem Chip.GrantKept.canCap (h : c.GrantKept k t) : t.canCap k = c.canCap k := by
  have hslot : t.slot k = c.slot k := congrArg (fun b : Bank 16 Slot => b.read k) h.slots
  unfold Chip.canCap Chip.floorDraw
  rw [hslot, h.grant]

/-- R143: the parts of a moved slot's THERMAL. -/
theorem thermal_followMove (h : c.slotZone k ≠ z) :
    (c.canCap k = true → c.queueEntry k = none → ((c.rezoned k z).zone z).emergency = true →
      (followMove c k (c.rezoned k z)).cool k ∧ (followMove c k (c.rezoned k z)).thermalIs k true) ∧
    ((c.zone (c.slotZone k)).emergency = true → ((c.rezoned k z).zone z).emergency = false →
      (followMove c k (c.rezoned k z)).thermalIs k false) := by
  obtain ⟨hclimate, -⟩ := refreshed_rezoned c k z h
  have hzone : (c.rezoned k z).slotZone k = z := by
    rw [hclimate.slotZone, slotZone_zoned, if_pos rfl]
  have hmoved : ¬ c.slotZone k = (c.rezoned k z).slotZone k := by rwa [hzone]
  refine ⟨fun hcap hnone he => ?_, fun hy he => ?_⟩
  · have hfollow : followMove c k (c.rezoned k z) = requestThermal k (c.rezoned k z) := by
      unfold followMove
      rw [if_neg hmoved, hzone, if_pos he]
    have hcool : (c.rezoned k z).cool k := forEach_keeps (P := fun t => t.cool k) _ refreshZone
      (fun x _ ht => (cool_fanCalls k).refreshZone x ht) _ (.of_none (c := c.zoned k z) hnone)
    have hkept : (c.zoned k z).GrantKept k (c.rezoned k z) := forEach_keeps (P := (c.zoned k z).GrantKept k) _ refreshZone
      (fun x _ ht => ((c.zoned k z).grantKept_fanCalls k).refreshZone x ht) _ (.refl _ k)
    rw [hfollow]
    exact ⟨hcool.requestThermal k, requestThermal_adds (hkept.canCap.trans hcap)⟩
  · have hfollow : followMove c k (c.rezoned k z) = removeReason .thermal k (c.rezoned k z) := by
      unfold followMove
      rw [if_neg hmoved, hzone, if_neg (he ▸ Bool.false_ne_true), if_pos hy]
    rw [hfollow]
    exact removeThermal_removes k _

section ZoneMap

variable (ht : s.chip.takes (.amendSettings
  [{ field := 6, value := some [1, BitVec.ofNat 8 k.val, BitVec.ofNat 8 z.val] }]))
include ht

/-- R186: an AMEND that moves one slot, by what the fan controller makes of it. -/
theorem exec_amendSettings_zoneMap (hd : fanSettings (s.chip.opened (.amendSettings
      [{ field := 6, value := some [1, BitVec.ofNat 8 k.val, BitVec.ofNat 8 z.val] }])) false ((s.chip.opened (.amendSettings
        [{ field := 6, value := some [1, BitVec.ofNat 8 k.val, BitVec.ofNat 8 z.val] }])).zoned k z) = d) :
    exec (.amendSettings [{ field := 6, value := some [1, BitVec.ofNat 8 k.val, BitVec.ofNat 8 z.val] }]) s =
      .next (s.onChip (d.ordered (.amendSettings
        [{ field := 6, value := some [1, BitVec.ofNat 8 k.val, BitVec.ofNat 8 z.val] }]) .ok)) := by
  refine exec_amendSettings_fans (v := onePair (BitVec.ofNat 8 k.val) (BitVec.ofNat 8 z.val)) rfl ?_ ht
    ((applySettings_zoneMap k z _).trans hd)
  rw [settingInRange_onePair, BitVec.toNat_ofNat, BitVec.toNat_ofNat]
  exact decide_eq_true ⟨by omega, by omega⟩

/-- R186: a slot named with the zone it is in. -/
theorem zoneMap_same (hq : s.chip.quiescent) (h : s.chip.slotZone k = z) :
    exec (.amendSettings [{ field := 6, value := some [1, BitVec.ofNat 8 k.val, BitVec.ofNat 8 z.val] }]) s =
      .next (s.onChip (s.chip.answered (.amendSettings
        [{ field := 6, value := some [1, BitVec.ofNat 8 k.val, BitVec.ofNat 8 z.val] }]) { status := .ok, result := [] })) := by
  have hput : s.chip.settings.zoneMap.put k z = s.chip.settings.zoneMap := by
    rw [← h]
    exact Bank.put_read ..
  have hsame (c : Chip) (hc : c.settings.zoneMap.put k z = c.settings.zoneMap) : c.zoned k z = c := by
    unfold Chip.zoned
    rw [hc]
    rfl
  rw [exec_amendSettings_zoneMap ht (fanSettings_of_zoneMap hput), hsame (s.chip.opened _) hput]
  exact congrArg (fun c => (Host.Outcome.next (s.onChip c) : Result)) (queueService_of_settled (c := writeAnswer
    (.amendSettings [{ field := 6, value := some [1, BitVec.ofNat 8 k.val, BitVec.ofNat 8 z.val] }])
    (s.chip.opened (.amendSettings [{ field := 6, value := some [1, BitVec.ofNat 8 k.val, BitVec.ofNat 8 z.val] }]), _))
    hq.1 hq.2)

/-- R143, R186: a slot moved to another zone. -/
theorem zoneMap_moves (h : s.chip.slotZone k ≠ z) :
    ∃ t, exec (.amendSettings [{ field := 6, value := some [1, BitVec.ofNat 8 k.val, BitVec.ofNat 8 z.val] }]) s = .next t ∧
      t.chip.settings = { s.chip.settings with zoneMap := s.chip.settings.zoneMap.put k z } ∧ t.chip.slots = s.chip.slots ∧
      t.chip.port.response = some (answerMessage (.amendSettings
        [{ field := 6, value := some [1, BitVec.ofNat 8 k.val, BitVec.ofNat 8 z.val] }]) { status := .ok, result := [] }) ∧
      (∀ x, x = s.chip.slotZone k ∨ x = z → (s.chip.zoned k z).Refreshed x t.chip) ∧
      (∀ x, x ≠ s.chip.slotZone k → x ≠ z → t.chip.zone x = s.chip.zone x) ∧
      (s.chip.canCap k = true → s.chip.queueEntry k = none → (t.chip.zone z).emergency = true →
        (t.chip.grant k).capSet.thermal = true) ∧
      ((s.chip.zone (s.chip.slotZone k)).emergency = true → (t.chip.zone z).emergency = false →
        (t.chip.grant k).capSet.thermal = false) := by
  set i := Instr.amendSettings [{ field := 6, value := some [1, BitVec.ofNat 8 k.val, BitVec.ofNat 8 z.val] }] with hi
  have hexec := exec_amendSettings_zoneMap ht (fanSettings_zoned (c := s.chip.opened i) h)
  obtain ⟨hclimate, hzones, hothers⟩ := refreshed_rezoned (s.chip.opened i) k z h
  obtain ⟨hasked, htaken⟩ := thermal_followMove (c := s.chip.opened i) h
  have hfans : (followMove (s.chip.opened i) k ((s.chip.opened i).rezoned k z)).fans =
      ((s.chip.opened i).rezoned k z).fans :=
    followMove_keeps (P := fun t => t.fans = ((s.chip.opened i).rezoned k z).fans)
      (fun _ h => (sameFans_keeps ((s.chip.opened i).rezoned k z)).requestThermal k h)
      (fun _ h => (sameFans_keeps ((s.chip.opened i).rezoned k z)).removeReason .thermal k h) rfl
  have hzone (x : Fin 4) : ((followMove (s.chip.opened i) k ((s.chip.opened i).rezoned k z)).ordered i .ok).zone x =
      ((s.chip.opened i).rezoned k z).zone x := (zone_ordered ..).trans (zone_congr hfans x)
  have hframe : (followMove (s.chip.opened i) k ((s.chip.opened i).rezoned k z)).slots = s.chip.slots ∧
      (followMove (s.chip.opened i) k ((s.chip.opened i).rezoned k z)).settings = (s.chip.zoned k z).settings :=
    followMove_keeps (P := fun t => t.slots = s.chip.slots ∧ t.settings = (s.chip.zoned k z).settings)
      (fun t h => ⟨(PowerKeeps.requestThermal t.sameButPower_keeps k (.refl t)).slots.trans h.1,
        (settings_keeps _).requestThermal k h.2⟩)
      (fun t h => ⟨(PowerKeeps.removeReason t.sameButPower_keeps _ k (.refl t)).slots.trans h.1,
        (settings_keeps _).removeReason _ k h.2⟩) ⟨hclimate.frame.slots, hclimate.frame.settings⟩
  obtain ⟨hslots, hsettings⟩ := hframe
  refine ⟨_, hexec, (settings_ordered ..).trans hsettings, (slots_ordered ..).trans hslots, response_ordered ..,
    fun x hx => ?_, fun x hy hz => (hzone x).trans (hothers x hy hz), fun hcap hnone he => ?_, fun hy he => ?_⟩
  · refine .of_climate (climate_opened i (s.chip.zoned k z)) rfl ((hzones x hx).keeps (hzone x) fun ha => ?_)
    refine Chip.alerted.ordered ?_ _ _
    have halert := (Chip.alerted_keeps (.zone x) .zoneEmergency).toFanKeeps.toPowerKeeps
    exact followMove_keeps (P := fun t => t.alerted (.zone x) .zoneEmergency) (fun _ h => halert.requestThermal k h)
      (fun _ h => halert.removeReason _ k h) ha
  · obtain ⟨hcool, hthermal⟩ := hasked hcap hnone ((congrArg Zone.emergency (hzone z)).symm.trans he)
    exact Chip.cool.queueService_thermal (c := writeAnswer i (_, _)) ⟨hcool.uplift, hcool.thermal⟩ hthermal
  · exact queueService_cools (c := writeAnswer i (_, _)) (htaken hy ((congrArg Zone.emergency (hzone z)).symm.trans he))

end ZoneMap

/-- Settles O41, setting by setting. -/
theorem amendsOfChannelAndSettings : Obligations.AmendsOfChannelAndSettings := by
  refine ⟨fun s h ch items hq hc hw => amendChannel_checks s h ch items hq hc hw, fun s v hq x hx => ?later,
    fun s v hq x hx => ?power, fun s v hq => ?margin, fun s k z hq hbad ht => ?_, fun s k z hq ht => ?moves⟩
  case later =>
    simp only [List.mem_cons, List.not_mem_nil, or_false] at hx
    rcases hx with rfl | rfl | rfl | rfl | rfl | rfl | rfl | rfl | rfl | rfl | rfl | rfl
    all_goals exact exec_amendSettings_later hq rfl (fun t => (writeSettings_one _ v t).trans rfl) (by decide)
  case power =>
    simp only [List.mem_cons, List.not_mem_nil, or_false] at hx
    rcases hx with rfl | rfl
    · exact powerSetting_leaves (f := fun n t => { t with
        policy := if n = 0 then .none else if n = 1 then .nPlus1 else .nPlusN }) (.inl rfl) rfl
        (writeSettings_policy v _) (.inl (committed_setSettings rfl)) hq
    · exact powerSetting_leaves (f := fun n t => { t with baseDraw := n }) (.inr rfl) rfl
        (writeSettings_baseDraw v _) (.inr (budget_setSettings rfl)) hq
  case margin =>
    intro i new c ht
    refine ⟨fun hv => exec_amendSettings_range (n := 12) hq ht rfl (Bool.eq_false_iff.2 fun hx => ?_), fun hv => ?_⟩
    · have hle := (stepped_iff.1 hx).2.1
      rw [number_singleton] at hle
      omega
    · obtain ⟨t, hexec, hsettings, hslots, hresponse, hzones⟩ := criticalMargin_follows v hv ht
      refine ⟨t, hexec, hsettings, hslots, hresponse, fun z => ?_⟩
      obtain ⟨hdemand, hemergency, hcause, hbegun, hended⟩ := hzones z
      exact ⟨hdemand, hemergency, fun he => ⟨hcause he, hbegun he⟩, hended⟩
  · refine exec_amendSettings_range (n := 6) (v := onePair k z) hq ht rfl ?_
    rw [settingInRange_onePair]
    exact decide_eq_false (by omega)
  case moves =>
    refine ⟨fun h => zoneMap_same ht hq h, fun h => ?_⟩
    obtain ⟨t, hexec, hsettings, hslots, hresponse, hzones, hothers, hasked, htaken⟩ := zoneMap_moves ht h
    exact ⟨t, hexec, hsettings, hslots, hresponse, fun x hx => ⟨(hzones x hx).demand, (hzones x hx).emergency⟩, hothers,
      hasked, htaken⟩

end Sys2Proof.Machine

/-!
PROOF. Warm restart (R184), stage by stage: operations that each write one record of a bank, the slots (R28), the engines (R30),
the supplies (R84) and the module link (R72).
-/

namespace Sys2Proof.Machine

variable {c t : Chip} {k : Fin 16} {b : Fin 6} {s : Slot}

/-! ## Operations that each write one record -/

/-- Operations over all the records of a bank, each of which writes its own record. -/
theorem forEach_ownRelated {n : Nat} {α : Type} {rd : Fin n → Chip → α} {op : Fin n → Chip → Chip} {P : Chip → Prop}
    {x : Fin n → α}
    {R : Fin n → α → Prop} (hown : ∀ i j, ∀ c : Chip, j ≠ i → rd j (op i c) = rd j c)
    (hop : ∀ i c, P c → rd i c = x i → P (op i c) ∧ R i (rd i (op i c))) (hc : P c) (hx : ∀ i, rd i c = x i) :
    P (forEach (keys n) op c) ∧ ∀ i, R i (rd i (forEach (keys n) op c)) := by
  have hlist (l : List (Fin n)) : ∀ c, l.Nodup → P c → (∀ i ∈ l, rd i c = x i) → P (forEach l op c) ∧
      (∀ i ∈ l, R i (rd i (forEach l op c))) ∧ ∀ i, i ∉ l → rd i (forEach l op c) = rd i c := by
    induction l with
    | nil => exact fun c _ hc _ => ⟨hc, nofun, fun _ _ => rfl⟩
    | cons a l ih =>
      intro c hl hc hx
      obtain ⟨ha, hl⟩ := List.nodup_cons.1 hl
      obtain ⟨hP, hy⟩ := hop a c hc (hx a List.mem_cons_self)
      obtain ⟨hend, hin, hout⟩ := ih (op a c) hl hP fun i hi =>
        (hown a i c fun h => ha (h ▸ hi)).trans (hx i (List.mem_cons_of_mem a hi))
      refine ⟨hend, fun i hi => ?_, fun i hi => ?_⟩
      · by_cases hia : i = a
        · subst hia
          have hlast : rd i (forEach (i :: l) op c) = rd i (op i c) := hout i ha
          exact hlast ▸ hy
        · exact hin i ((List.mem_cons.1 hi).resolve_left hia)
      · obtain ⟨hia, hil⟩ := not_or.1 (mt List.mem_cons.2 hi)
        exact (hout i hil).trans (hown a i c hia)
  obtain ⟨hend, hin, -⟩ := hlist (keys n) c (List.nodup_finRange n) hc fun i _ => hx i
  exact ⟨hend, fun i => hin i (List.mem_finRange i)⟩

/-- Such operations, where the record written is a function of the record read. -/
theorem forEach_own {n : Nat} {α : Type} {rd : Fin n → Chip → α} {op : Fin n → Chip → Chip} {P : Chip → Prop}
    {x y : Fin n → α}
    (hown : ∀ i j, ∀ c : Chip, j ≠ i → rd j (op i c) = rd j c)
    (hop : ∀ i c, P c → rd i c = x i → P (op i c) ∧ rd i (op i c) = y i) (hc : P c) (hx : ∀ i, rd i c = x i) :
    P (forEach (keys n) op c) ∧ ∀ i, rd i (forEach (keys n) op c) = y i :=
  forEach_ownRelated (R := fun i a => a = y i) hown hop hc hx

/-! ## Slots (R28) -/

theorem slot_restartSlots (k : Fin 16) (c : Chip) : (restartSlots c).slot k = (c.slot k).restart := Bank.read_gen ..

/-- Table 14: a slot whose power goes down in the mapping. -/
theorem Slot.restartDown_leaves (s : Slot) : s.restartDown.switchClosed = false ∧
    if s.powerGood then s.restartDown.state = .poweringDown ∧ s.restartDown.outcome = some .interrogating ∧
      s.restartDown.powerDownTimer = some 500
    else if s.latch.field then s.restartDown.state = .interrogating else s.restartDown.state = .seated := by
  unfold restartDown
  split
  · exact ⟨rfl, rfl, rfl, rfl⟩
  · split
    · exact ⟨rfl, rfl⟩
    · exact ⟨rfl, rfl⟩

/-- Table 14: a slot without power that is not HELD. -/
theorem Slot.restart_unpowered (hs : s.state = .empty ∨ s.state = .seated ∨ s.state = .interrogating ∨
    s.state = .negotiating ∨ s.state = .awaitingAdmit ∨ s.state = .awaitingGrant) :
    if s.early.field = false ∨ s.late.field = false then s.restart.state = .empty
    else if s.latch.field then s.restart.state = .interrogating else s.restart.state = .seated := by
  have hrestart : s.restart = if !(s.early.field && s.late.field) then (if s.state = .empty then s else s.enter .empty)
      else if s.latch.field then s.enter .interrogating else s.enter .seated := by
    unfold restart
    rcases hs with hs | hs | hs | hs | hs | hs <;> rw [hs]
  have hseen : (!(s.early.field && s.late.field)) = true ↔ s.early.field = false ∨ s.late.field = false := by
    rw [Bool.not_eq_true', Bool.and_eq_false_iff]
  rw [hrestart]
  split
  · next h =>
    rw [if_pos (hseen.2 h)]
    split
    · next he => exact he
    · rfl
  · next h =>
    rw [if_neg (mt hseen.1 h)]
    split
    · rfl
    · rfl

/-- Table 14: the states that the mapping leaves no slot in. -/
def SlotState.remapped (x : SlotState) : Prop := x ≠ .powering ∧ x ≠ .starting ∧ x ≠ .running ∧ x ≠ .draining

theorem Slot.restart_remapped (s : Slot) : s.restart.state.remapped := by
  have hdown : s.restartDown.state.remapped := by
    unfold restartDown
    split
    · exact ⟨nofun, nofun, nofun, nofun⟩
    · split
      · exact ⟨nofun, nofun, nofun, nofun⟩
      · exact ⟨nofun, nofun, nofun, nofun⟩
  have hseat : (if s.latch.field then s.enter .interrogating else s.enter .seated).state.remapped := by
    split
    · exact ⟨nofun, nofun, nofun, nofun⟩
    · exact ⟨nofun, nofun, nofun, nofun⟩
  unfold restart
  cases hs : s.state
  case powering | starting => exact hdown
  case running | draining | adopting | poweringDown | held => exact ⟨nofun, nofun, nofun, nofun⟩
  all_goals
    dsimp only
    split
    · split
      · rw [hs]
        exact ⟨nofun, nofun, nofun, nofun⟩
      · exact ⟨nofun, nofun, nofun, nofun⟩
    · exact hseat

/-! ## Engines (R30, R37) -/

/-- R37: an engine that interrogates from reset. -/
abbrev interrogatingEngine : Engine :=
  { Engine.reset with phase := .interrogation, inFlight := sentPage .interrogate false, draft := some .fresh }

theorem startInterrogation_of_reset (h : c.engine k = .reset) :
    startInterrogation k c = setEngine k interrogatingEngine c := by
  have hphase : startPhase k .interrogation c =
      setEngine k { Engine.reset with phase := .interrogation, draft := some .fresh } c := by
    unfold startPhase modEngine
    rw [h]
    rfl
  unfold startInterrogation
  rw [hphase]
  unfold arbitrate
  dsimp only
  rw [engine_setEngine_self]
  refine (if_neg ?_).trans ((if_pos ?_).trans (send_setEngine ..))
  · exact fun h => h.elim nofun nofun
  · nofun

/-- R28, R30: the engines as the restarted slots begin to interrogate. -/
theorem restartInterrogations_leaves (h : ∀ k, c.engine k = .reset) :
    restartInterrogations c = { c with engines := (restartInterrogations c).engines } ∧
      ∀ k, (restartInterrogations c).engine k = if (c.slot k).state = .interrogating ∨ (c.slot k).state = .adopting
        then interrogatingEngine else .reset := by
  refine forEach_own (rd := fun k t => t.engine k) (P := fun t => t = { c with engines := t.engines })
    (x := fun _ => .reset) (y := fun k => if (c.slot k).state = .interrogating ∨ (c.slot k).state = .adopting
        then interrogatingEngine else .reset) (fun i j t hj => ?_) (fun i t ht hi => ?_) rfl h
  · refine ite_keeps (P := fun u => u.engine j = t.engine j) ?_ rfl
    exact ((onlySlot_keeps i t).startInterrogation ⟨fun _ _ => ⟨rfl, rfl⟩, rfl, rfl, rfl, rfl⟩).1 j hj |>.2
  · have hslot : t.slot i = c.slot i := by rw [ht]; rfl
    rw [hslot, startInterrogation_of_reset hi]
    split
    · refine ⟨?_, engine_setEngine_self ..⟩
      rw [ht]
      rfl
    · exact ⟨ht, hi⟩

/-! ## Supplies (R84) -/

/-- R84: a supply after the restart. -/
abbrev Supply.restarted (p : Supply) : Supply := if p.state = .starting then { p with startDelay := true } else p

theorem supply_restartSupplies (b : Fin 6) (c : Chip) : (restartSupplies c).supply b = (c.supply b).restarted :=
  (forEach_own (rd := fun b t => t.supply b) (P := fun _ => True) (x := c.supply) (y := fun b => (c.supply b).restarted)
    (fun _ _ _ hj => (supply_modSupply ..).trans (if_neg hj))
    (fun _ _ _ hi => ⟨trivial, (supply_modSupply ..).trans ((if_pos rfl).trans (congrArg Supply.restarted hi))⟩)
    trivial fun _ => rfl).2 b

theorem restartSupplies_keeps {P : Chip → Prop} (h : ∀ b f c, P c → P (modSupply b f c)) (hc : P c) : P (restartSupplies c) :=
  forEach_keeps _ _ (fun _ _ hx => h _ _ _ hx) _ hc

/-! ## The module link (R72) -/

theorem forEach_askRead : ∀ (l : List Bay) (c : Chip),
    forEach l askRead c = setModules (l.foldl (fun m bay => m.ask bay) c.modules) c
  | [], _ => rfl
  | bay :: l, c => forEach_askRead l (askRead bay c)

/-- R72: the link as these bays are to be read, and nothing else. -/
abbrev ModuleLink.toRead (m : ModuleLink) (l : List Bay) : ModuleLink :=
  { m with quiet := false, reading := l.head?.map (fun bay => (bay, false)), queue := l.tail }

theorem ModuleLink.ask_toRead {m : ModuleLink} {l : List Bay} {bay : Bay} (h : bay ∉ l) :
    (m.toRead l).ask bay = m.toRead (l ++ if (m.bay bay).field then [bay] else []) := by
  have hbay : (m.toRead l).bay bay = m.bay bay := by cases bay <;> rfl
  unfold ask
  rw [hbay]
  cases hf : (m.bay bay).field
  · simp
  · cases l with
    | nil => rfl
    | cons x l =>
      obtain ⟨hx, hl⟩ := not_or.1 (mt List.mem_cons.2 h)
      have hno : ¬ (false || l.contains bay || decide (some x = some bay)) = true := by
        simp [hl, Ne.symm hx]
      exact if_neg hno

theorem ModuleLink.foldl_ask (m : ModuleLink) : ∀ (l done : List Bay), l.Nodup → (∀ bay ∈ l, bay ∉ done) →
    l.foldl (fun m bay => m.ask bay) (m.toRead done) = m.toRead (done ++ l.filter fun bay => (m.bay bay).field)
  | [], done, _, _ => by rw [List.filter_nil, List.append_nil]; rfl
  | bay :: l, done, hl, hd => by
    obtain ⟨hbay, hl⟩ := List.nodup_cons.1 hl
    rw [List.foldl_cons, ask_toRead (hd bay List.mem_cons_self), foldl_ask m l _ hl]
    · rw [List.append_assoc, List.filter_cons]
      split <;> rfl
    · intro x hx hmem
      rcases List.mem_append.1 hmem with hmem | hmem
      · exact hd x (List.mem_cons_of_mem bay hx) hmem
      · split at hmem
        · exact hbay (List.mem_singleton.1 hmem ▸ hx)
        · exact nomatch hmem

/-- R72: the present bays whose records are in IDENTIFYING. -/
abbrev Chip.baysToRead (c : Chip) : List Bay :=
  ((keys 6).filter fun b => decide ((c.supply b).state = .identifying) && (c.modules.supplies.read b).field).map Bay.supply ++
  ((keys 8).filter fun f => decide ((c.fan f).state = .identifying) && (c.modules.fans.read f).field).map Bay.fan

theorem nodup_identifyingBays (c : Chip) : c.identifyingBays.Nodup := by
  refine List.nodup_append.2 ⟨((List.nodup_finRange 6).filter _).map fun _ _ h => Bay.supply.inj h,
    ((List.nodup_finRange 8).filter _).map fun _ _ h => Bay.fan.inj h, fun x hx y hy hxy => ?_⟩
  obtain ⟨b, -, rfl⟩ := List.mem_map.1 hx
  obtain ⟨f, -, rfl⟩ := List.mem_map.1 hy
  exact nomatch hxy

theorem filter_identifyingBays (c : Chip) :
    (c.identifyingBays.filter fun bay => (c.modules.bay bay).field) = c.baysToRead := by
  unfold Chip.identifyingBays
  rw [List.filter_append, List.filter_map, List.filter_map, List.filter_filter, List.filter_filter]
  refine congrArg₂ (· ++ ·) (congrArg (List.map Bay.supply) (List.filter_congr fun b _ => ?_))
    (congrArg (List.map Bay.fan) (List.filter_congr fun f _ => ?_))
  · exact Bool.and_comm ..
  · exact Bool.and_comm ..

/-- R72: the module link after the restart. -/
theorem restartModules_eq (c : Chip) : restartModules c = setModules (c.modules.toRead c.baysToRead) c := by
  unfold restartModules
  refine (forEach_askRead ..).trans ?_
  have hfold := c.modules.foldl_ask c.identifyingBays [] (nodup_identifyingBays c) fun _ _ => List.not_mem_nil
  rw [List.nil_append, filter_identifyingBays] at hfold
  exact congrArg (fun m => setModules m c) hfold

end Sys2Proof.Machine

/-!
PROOF. Warm restart of the hub (R165, R178): the lines stop, every channel is held for its slot and flushed, and the egress lists are
emptied.
-/

namespace Sys2Proof.Machine

variable {c t : Chip} {h : Fin 32} {ch : Channel} {u : Fin 2} {k : Fin 16}

/-! ## The lines stop (R178) -/

/-- R178: a channel with no frame detached. -/
abbrev Channel.stopped (ch : Channel) : Channel := { ch with detachedDown := none, detachedUp := none }

/-- R178: the lines have stopped. -/
structure Chip.Stopped (c t : Chip) : Prop where
  slots : t.slots = c.slots
  uplink : ∀ u, t.uplink u = { c.uplink u with sending := none }
  lane : ∀ k, t.lane k = { c.lane k with sending := none, pointer := none }
  channel : ∀ h, t.channel h = (c.channel h).map Channel.stopped

theorem stopped_stopLines (c : Chip) : c.Stopped (stopLines c) := by
  obtain ⟨⟨hs1, hl1, hc1⟩, hu1⟩ := forEach_own (op := fun u => modUplink u fun r => { r with sending := none })
    (rd := fun u t => t.uplink u) (P := fun t => t.slots = c.slots ∧ (∀ k, t.lane k = c.lane k) ∧ ∀ h, t.channel h = c.channel h)
    (x := c.uplink) (y := fun u => { c.uplink u with sending := none })
    (fun _ _ _ hj => (uplink_setUplink ..).trans (if_neg hj))
    (fun _ _ ht hi => ⟨ht, (uplink_setUplink_self ..).trans (by rw [hi])⟩) ⟨rfl, fun _ => rfl, fun _ => rfl⟩ fun _ => rfl
  obtain ⟨⟨hs2, hu2, hc2⟩, hl2⟩ := forEach_own (op := fun k => modLane k fun r => { r with sending := none, pointer := none })
    (rd := fun k t => t.lane k) (P := fun t => t.slots = c.slots ∧ (∀ u, t.uplink u = { c.uplink u with sending := none }) ∧
      ∀ h, t.channel h = c.channel h) (x := c.lane) (y := fun k => { c.lane k with sending := none, pointer := none })
    (fun _ _ _ hj => (lane_setLane ..).trans (if_neg hj))
    (fun _ _ ht hi => ⟨ht, (lane_setLane_self ..).trans (by rw [hi])⟩) ⟨hs1, hu1, hc1⟩ hl1
  obtain ⟨⟨hs3, hu3, hl3⟩, hc3⟩ := forEach_own (op := fun h => modChannel h Channel.stopped)
    (rd := fun h t => t.channel h) (P := fun t => t.slots = c.slots ∧ (∀ u, t.uplink u = { c.uplink u with sending := none }) ∧
      ∀ k, t.lane k = { c.lane k with sending := none, pointer := none }) (x := c.channel)
    (y := fun h => (c.channel h).map Channel.stopped) (fun _ _ _ hj => channel_modChannel_ne hj)
    (fun _ _ ht hi => ⟨ht, (channel_setChannel_self ..).trans (by rw [hi])⟩) ⟨hs2, hu2, hl2⟩ hc2
  exact ⟨hs3, hu3, hl3, hc3⟩

/-! ## The channels (R165) -/

/-- R165: a channel after the restart, by the state its slot is mapped to. -/
abbrev Channel.restarted (ch : Channel) (x : SlotState) : Channel :=
  { ch with
    state := .hold, holdCause := some .slot, granted := ch.granted && decide (x = .adopting), active := ch.preferred,
    down := [], up := [], counters := countFlushed (ch.down.length + ch.up.length) ch.counters }

/-- No line sends. -/
structure Chip.LinesIdle (c : Chip) : Prop where
  lane : ∀ k, (c.lane k).sending = none
  uplink : ∀ u, (c.uplink u).sending = none

theorem restartChannel_of_none (hc : c.channel h = none) : restartChannel h c = c := by
  have hhold : holdForSlot h c = c := by
    unfold holdForSlot flush
    rw [modChannel_of_none hc, hc]
  unfold restartChannel
  rw [hhold]
  exact modChannel_of_none hc

/-- R165: with the lines idle, a channel's restart writes the channel and counts the flush at its uplink. -/
theorem restartChannel_of_channel (hc : c.channel h = some ch) (hi : c.LinesIdle) :
    restartChannel h c = setUplink ch.active ((c.uplink ch.active).flushed h ch.up.length)
      (setChannel h (some (ch.restarted (c.slot ch.slot).state)) c) := by
  have hhold : modChannel h (Channel.hold .slot) c = setChannel h (some (ch.hold .slot)) c := modChannel_of_channel hc
  obtain ⟨u, hflush⟩ := flush_of_channel (c := setChannel h (some (ch.hold .slot)) c) (channel_setChannel_self ..)
  have hlane : { c.lane ch.slot with sending := detachLine h (c.lane ch.slot).sending } = c.lane ch.slot := by
    rw [hi.lane]
    exact congrArg (fun x => { c.lane ch.slot with sending := x }) (hi.lane ch.slot).symm
  have hwrite : flushRecord h (ch.hold .slot) (setChannel h (some (ch.hold .slot)) c) =
      setUplink ch.active ((c.uplink ch.active).flushed h ch.up.length) (setChannel h (some
        ((setChannel h (some (ch.hold .slot)) c).flushedChannel h (ch.hold .slot) ch.active)) c) := by
    rw [flushRecord_eq, setChannel_setChannel]
    exact congrArg (setUplink ch.active ((c.uplink ch.active).flushed h ch.up.length))
      ((congrArg (fun l => setLane ch.slot l _) hlane).trans (setLane_lane ..))
  have hdown : (c.lane ch.slot).sending ≠ some (.stored h) := by rw [hi.lane]; exact nofun
  have hup : (c.uplink ch.active).sending ≠ some (.stored h) := by rw [hi.uplink]; exact nofun
  have hch : (setChannel h (some (ch.hold .slot)) c).flushedChannel h (ch.hold .slot) u =
      { (ch.hold .slot).flushed false false with active := u } :=
    congrArg₂ (fun x y => { (ch.hold .slot).flushed x y with active := u }) (decide_eq_false hdown) (decide_eq_false hup)
  have hall : holdForSlot h c = setUplink ch.active ((c.uplink ch.active).flushed h ch.up.length)
      (setChannel h (some { (ch.hold .slot).flushed false false with active := u }) c) := by
    unfold holdForSlot
    rw [hhold, hflush, hwrite, hch]
    exact congrArg (setUplink ch.active ((c.uplink ch.active).flushed h ch.up.length)) (setChannel_setChannel ..)
  unfold restartChannel
  rw [hall]
  have hnow : (setUplink ch.active ((c.uplink ch.active).flushed h ch.up.length)
      (setChannel h (some { (ch.hold .slot).flushed false false with active := u }) c)).channel h =
        some { (ch.hold .slot).flushed false false with active := u } := channel_setChannel_self ..
  refine (modChannel_of_channel hnow).trans ?_
  exact congrArg (setUplink ch.active ((c.uplink ch.active).flushed h ch.up.length)) (setChannel_setChannel ..)

/-- The frames of a channel that wait for an uplink. -/
abbrev Chip.framesFor (c : Chip) (u : Fin 2) (h : Fin 32) : Nat :=
  ((c.channel h).map fun ch => if ch.active = u then ch.up.length else 0).getD 0

/-- An uplink without its egress list, with frames counted as flushed. -/
abbrev Uplink.drained (r : Uplink) (n : Nat) : Uplink :=
  { r with egress := [], counters := { r.counters with flushed := r.counters.flushed + BitVec.ofNat 32 n } }

theorem framesFor_of_none (hc : c.channel h = none) (u : Fin 2) : c.framesFor u h = 0 := by
  unfold Chip.framesFor
  rw [hc]
  rfl

theorem framesFor_of_channel (hc : c.channel h = some ch) (u : Fin 2) :
    c.framesFor u h = if ch.active = u then ch.up.length else 0 := by
  unfold Chip.framesFor
  rw [hc]
  rfl

theorem Uplink.drained_zero (r : Uplink) : r.drained 0 = { r with egress := [] } :=
  congrArg (fun x => { r with egress := [], counters := { r.counters with flushed := x } }) (BitVec.add_zero _)

/-- R165: what the restart of a channel leaves. -/
theorem restartChannel_leaves (hi : c.LinesIdle) : (restartChannel h c).LinesIdle ∧ (restartChannel h c).slots = c.slots ∧
    (∀ k, (restartChannel h c).lane k = c.lane k) ∧
    (restartChannel h c).channel h = (c.channel h).map (fun ch => ch.restarted (c.slot ch.slot).state) ∧
    ∀ u, { (restartChannel h c).uplink u with egress := [] } = (c.uplink u).drained (c.framesFor u h) := by
  cases hc : c.channel h with
  | none =>
    rw [restartChannel_of_none hc]
    refine ⟨hi, rfl, fun _ => rfl, hc, fun u => ?_⟩
    rw [framesFor_of_none hc, Uplink.drained_zero]
  | some ch =>
    rw [restartChannel_of_channel hc hi]
    have huplink (u : Fin 2) : (setUplink ch.active ((c.uplink ch.active).flushed h ch.up.length)
        (setChannel h (some (ch.restarted (c.slot ch.slot).state)) c)).uplink u =
        if u = ch.active then (c.uplink ch.active).flushed h ch.up.length else c.uplink u := uplink_setUplink ..
    refine ⟨⟨hi.lane, fun u => ?_⟩, rfl, fun _ => rfl, channel_setChannel_self .., fun u => ?_⟩
    · rw [huplink]
      split
      · show detachLine h (c.uplink ch.active).sending = none
        rw [hi.uplink]
        rfl
      · exact hi.uplink u
    · rw [huplink]
      by_cases hu : u = ch.active
      · subst hu
        rw [if_pos rfl, framesFor_of_channel hc, if_pos rfl]
        have hs : detachLine h (c.uplink ch.active).sending = (c.uplink ch.active).sending := by
          rw [hi.uplink]
          rfl
        exact congrArg (fun x => { (c.uplink ch.active).drained ch.up.length with sending := x }) hs
      · rw [if_neg hu, framesFor_of_channel hc, if_neg (Ne.symm hu), Uplink.drained_zero]

/-! ## The hub (R165, R178) -/

theorem restartChannel_own : OwnChannel restartChannel := fun _ _ _ hj =>
  (channel_modChannel_ne hj).trans (holdForSlot_own _ _ _ hj)

/-- Counts of flushed frames add up. -/
theorem Uplink.drained_drained (r : Uplink) (m n : Nat) : (r.drained m).drained n = r.drained (m + n) := by
  have hadd : r.counters.flushed + BitVec.ofNat 32 m + BitVec.ofNat 32 n = r.counters.flushed + BitVec.ofNat 32 (m + n) := by
    rw [BitVec.add_assoc, BitVec.ofNat_add]
  exact congrArg (fun x => { r with egress := [], counters := { r.counters with flushed := x } }) hadd

/-- R165: the uplinks as a list of channels is restarted. -/
theorem uplink_restartChannels (u : Fin 2) : ∀ (l : List (Fin 32)) (c : Chip), l.Nodup → c.LinesIdle →
    ((forEach l restartChannel c).uplink u).drained 0 = (c.uplink u).drained (l.map (c.framesFor u)).sum
  | [], _, _, _ => rfl
  | h :: l, c, hl, hi => by
    obtain ⟨hh, hl⟩ := List.nodup_cons.1 hl
    obtain ⟨hi', -, -, -, hup⟩ := restartChannel_leaves (h := h) hi
    have hrest : l.map ((restartChannel h c).framesFor u) = l.map (c.framesFor u) := List.map_congr_left fun j hj => by
      unfold Chip.framesFor
      rw [restartChannel_own h j c fun e => hh (e ▸ hj)]
    have hfirst : ((restartChannel h c).uplink u).drained 0 = (c.uplink u).drained (c.framesFor u h) :=
      (Uplink.drained_zero _).trans (hup u)
    calc ((forEach (h :: l) restartChannel c).uplink u).drained 0
        = ((restartChannel h c).uplink u).drained (l.map (c.framesFor u)).sum :=
          (uplink_restartChannels u l _ hl hi').trans (by rw [hrest])
      _ = (((restartChannel h c).uplink u).drained 0).drained (l.map (c.framesFor u)).sum := by
          rw [Uplink.drained_drained, Nat.zero_add]
      _ = (c.uplink u).drained ((h :: l).map (c.framesFor u)).sum := by
          rw [hfirst, Uplink.drained_drained, List.map_cons, List.sum_cons]

/-- R165, R178: the hub after the restart. -/
structure Chip.HubRestarted (c t : Chip) : Prop where
  channel : ∀ h, t.channel h = (c.channel h).map fun ch => ch.stopped.restarted (c.slot ch.slot).state
  uplink : ∀ u, t.uplink u = { (c.uplink u).drained ((keys 32).map (c.framesFor u)).sum with receiving := false, sending := none }
  lane : ∀ k, t.lane k = { c.lane k with sending := none, pointer := none }

theorem hubRestarted_restartHub (c : Chip) : c.HubRestarted (restartHub c) := by
  have hstop := stopped_stopLines c
  have hidle : (stopLines c).LinesIdle := ⟨fun k => by rw [hstop.lane], fun u => by rw [hstop.uplink]⟩
  obtain ⟨⟨hi2, hs2, hl2⟩, hc2⟩ := forEach_own (op := restartChannel) (rd := fun h t => t.channel h)
    (P := fun t => t.LinesIdle ∧ t.slots = c.slots ∧ ∀ k, t.lane k = (stopLines c).lane k) (x := (stopLines c).channel)
    (y := fun h => ((stopLines c).channel h).map fun ch => ch.restarted (c.slot ch.slot).state) restartChannel_own
    (fun h t ht hx => by
      obtain ⟨hi, hs, hl⟩ := ht
      obtain ⟨hi', hs', hl', hc', -⟩ := restartChannel_leaves (h := h) hi
      refine ⟨⟨hi', hs'.trans hs, fun k => (hl' k).trans (hl k)⟩, hc'.trans ?_⟩
      rw [hx]
      unfold Chip.slot
      rw [hs]) ⟨hidle, hstop.slots, fun _ => rfl⟩ fun _ => rfl
  have hu2 (u : Fin 2) := uplink_restartChannels u (keys 32) (stopLines c) (List.nodup_finRange 32) hidle
  obtain ⟨⟨hc3, hl3⟩, hu3⟩ := forEach_own (op := fun u => modUplink u fun r => { r with egress := [], receiving := false })
    (rd := fun u t => t.uplink u) (P := fun t => (∀ h, t.channel h = (forEach (keys 32) restartChannel (stopLines c)).channel h) ∧
      ∀ k, t.lane k = (stopLines c).lane k) (x := (forEach (keys 32) restartChannel (stopLines c)).uplink)
    (y := fun u => { (forEach (keys 32) restartChannel (stopLines c)).uplink u with egress := [], receiving := false })
    (fun _ _ _ hj => (uplink_setUplink ..).trans (if_neg hj))
    (fun _ _ ht hi => ⟨ht, (uplink_setUplink_self ..).trans (by rw [hi])⟩) ⟨fun _ => rfl, hl2⟩ fun _ => rfl
  refine ⟨fun h => ?_, fun u => ?_, fun k => (hl3 k).trans (hstop.lane k)⟩
  · rw [restartHub]
    refine (hc3 h).trans ((hc2 h).trans ?_)
    rw [hstop.channel, Option.map_map]
    rfl
  · have hframes : (stopLines c).framesFor u = c.framesFor u := funext fun h => by
      unfold Chip.framesFor
      rw [hstop.channel, Option.map_map]
      rfl
    have hdrained := hu2 u
    rw [Uplink.drained_zero, hframes, hstop.uplink] at hdrained
    rw [restartHub]
    refine (hu3 u).trans ?_
    generalize ((keys 32).map (c.framesFor u)).sum = n at hdrained ⊢
    generalize (forEach (keys 32) restartChannel (stopLines c)).uplink u = r at hdrained ⊢
    exact congrArg (fun r : Uplink => { r with receiving := false }) hdrained

end Sys2Proof.Machine

/-!
PROOF. Warm restart of the power unit (R115): with every slot mapped by Table 14 the walk of R108 takes ADOPTING slots alone, as OFF,
and no later raise of a reservation writes a grant.
-/

namespace Sys2Proof.Machine

variable {c t : Chip} {k : Fin 16}

/-! ## The figures of the walk (R85, R86, R108) -/

/-- What the walk of R108 reads. -/
structure Chip.SameFigures (c t : Chip) : Prop where
  slots : t.slots = c.slots
  grants : t.power.grants = c.power.grants
  supplies : t.power.supplies = c.power.supplies
  reservations : t.power.reservations = c.power.reservations
  settings : t.settings = c.settings

namespace Chip.SameFigures

variable (h : c.SameFigures t)
include h

theorem slot (k : Fin 16) : t.slot k = c.slot k := congrArg (fun b => b.read k) h.slots
theorem grant (k : Fin 16) : t.grant k = c.grant k := congrArg (fun b => b.read k) h.grants
theorem supply (b : Fin 6) : t.supply b = c.supply b := congrArg (fun x => x.read b) h.supplies
theorem reservation (f : Fin 8) : t.reservation f = c.reservation f := congrArg (fun b => b.read f) h.reservations
theorem budget : t.budget = c.budget := budget_congr (fun b => by rw [h.supply]; exact ⟨rfl, rfl⟩) h.settings

theorem totalGrants : t.totalGrants = c.totalGrants :=
  congrArg List.sum (List.map_congr_left fun k _ => by rw [h.grant])

theorem committed : t.committed = c.committed := by
  have hfans : t.fanReservations = c.fanReservations := congrArg List.sum (List.map_congr_left fun f _ => by rw [h.reservation])
  unfold Chip.committed
  rw [h.settings, hfans, h.totalGrants]

theorem overCommitted : t.overCommitted = c.overCommitted := by
  unfold Chip.overCommitted
  rw [h.budget, h.committed]

theorem floorDraw (k : Fin 16) : t.floorDraw k = c.floorDraw k := by
  unfold Chip.floorDraw
  rw [h.slot]

theorem capCandidate (k : Fin 16) : t.capCandidate k = c.capCandidate k := by
  unfold Chip.capCandidate
  rw [h.slot, h.grant, h.floorDraw]

theorem offCandidate (k : Fin 16) : t.offCandidate k = c.offCandidate k := by
  unfold Chip.offCandidate
  rw [h.slot]

theorem shedOrder : t.shedOrder = c.shedOrder := by
  have hpriority : t.effectivePriority = c.effectivePriority := funext fun k => by
    unfold Chip.effectivePriority
    rw [h.slot]
  unfold Chip.shedOrder
  rw [hpriority]

theorem projectedDraw : t.projectedDraw none = c.projectedDraw none := by
  have hfreed : ((keys 16).filter fun k => t.freeing k) = (keys 16).filter fun k => c.freeing k :=
    List.filter_congr fun k _ => by
      unfold Chip.freeing
      rw [h.slot]
  have hgrants : ((keys 16).filter fun k => c.freeing k).map (fun k => (t.grant k).grant) =
      ((keys 16).filter fun k => c.freeing k).map fun k => (c.grant k).grant :=
    List.map_congr_left fun k _ => by rw [h.grant]
  unfold Chip.projectedDraw
  dsimp only
  rw [h.committed, hfreed, hgrants]

theorem capWalk : ∀ (order : List (Fin 16)) (p : Nat), capWalk t order p = capWalk c order p
  | [], _ => rfl
  | j :: order, p => by
    unfold Machine.capWalk
    rw [capWalk order, capWalk order, h.budget, h.capCandidate, h.grant, h.floorDraw]

theorem offWalk : ∀ (order : List (Fin 16)) (p : Nat) (l : List ShedEntry), offWalk t order p l = offWalk c order p l
  | [], _, _ => rfl
  | j :: order, p, l => by
    unfold Machine.offWalk
    rw [offWalk order, offWalk order, offWalk order, h.budget, h.offCandidate, h.grant, h.floorDraw]

/-- R108: the walk reads these figures alone. -/
theorem projectionWalk : t.projectionWalk none = c.projectionWalk none := by
  unfold Chip.projectionWalk
  dsimp only
  rw [h.shedOrder, h.projectedDraw, h.capWalk, h.offWalk]

end Chip.SameFigures

/-! ## The part that has no slot in a powered state but ADOPTING -/

/-- The slots are mapped, the grants stand, the queue is empty, and shedding takes ADOPTING slots alone. -/
structure Chip.Parked (c t : Chip) : Prop where
  slots : t.slots = c.slots
  grants : t.power.grants = c.power.grants
  queue : t.power.queue = []
  shed : ∀ e ∈ t.power.shed, e.action = .off ∧ (c.slot e.slot).state = .adopting

namespace Chip.Parked

variable (hm : ∀ k, (c.slot k).state.remapped) (h : c.Parked t)
include h

theorem setShed {l : List ShedEntry} (hl : ∀ e ∈ l, e.action = .off ∧ (c.slot e.slot).state = .adopting) :
    c.Parked (setShed l t) := ⟨h.slots, h.grants, h.queue, hl⟩

theorem setServiceDue (b : Bool) : c.Parked (setServiceDue b t) := ⟨h.slots, h.grants, h.queue, h.shed⟩
theorem raise (o : AlertObject) (x : Cause) : c.Parked (raise o x t) := ⟨h.slots, h.grants, h.queue, h.shed⟩
theorem post (m : Instr) : c.Parked (post m t) := ⟨h.slots, h.grants, h.queue, h.shed⟩
theorem setReservation (f : Fin 8) (r : Reservation) : c.Parked (setReservation f r t) := ⟨h.slots, h.grants, h.queue, h.shed⟩
theorem modFan (f : Fin 8) (g : Fan → Fan) : c.Parked (modFan f g t) := ⟨h.slots, h.grants, h.queue, h.shed⟩

theorem actHead : c.Parked (actHead t) := by
  cases hs : t.power.shed with
  | nil =>
    unfold Machine.actHead
    rw [hs]
    exact h
  | cons e rest =>
    have hshed := h.shed
    rw [hs] at hshed
    have hset : Machine.setShed (e :: rest) t = t := setShed_of_eq hs
    rw [← hset, actHead_off (hshed e List.mem_cons_self).1]
    refine (h.setShed fun x hx => ?_).post _
    obtain rfl | hx := List.mem_cons.1 hx
    · exact hshed e List.mem_cons_self
    · exact hshed x (List.mem_cons_of_mem e hx)

include hm

theorem projectionWalk (kept : Option ShedEntry) :
    ∀ e ∈ t.projectionWalk kept, e.action = .off ∧ (c.slot e.slot).state = .adopting := fun e he => by
  have hslot : t.slot e.slot = c.slot e.slot := congrArg (fun b => b.read e.slot) h.slots
  obtain ⟨-, hcap, hoff⟩ := projectionWalk_walked kept e he
  obtain ⟨hpowering, hstarting, hrunning, -⟩ := hm e.slot
  rw [capCandidate_iff, hslot] at hcap
  rw [offCandidate_iff, hslot] at hoff
  cases ha : e.action
  case cap => exact absurd (hcap ha).1 hrunning
  case off => exact ⟨rfl, (((hoff ha).2.resolve_left hpowering).resolve_left hstarting).resolve_left hrunning⟩

theorem startShedding : c.Parked (startShedding t) := by
  unfold Machine.startShedding
  split
  · exact ite_keeps (h.raise _ _) h
  · exact (h.setShed (h.projectionWalk hm none)).actHead

theorem settlePower (before : Chip) (report : Bool) : c.Parked (settlePower before report t) := by
  unfold Machine.settlePower
  extract_lets c1 emptied more less c2 kept c3
  have h1 : c.Parked c1 := h.setShed fun e he => h.shed e (List.mem_of_mem_filter he)
  have h2 : c.Parked c2 := ite_keeps (h1.setServiceDue true) h1
  have h3 : c.Parked c3 := h2.setShed fun e he => h2.shed e (List.mem_of_mem_filter he)
  refine ite_keeps ?_ (ite_keeps (h3.setServiceDue true) h3)
  split
  · next e rest hl =>
    refine ite_keeps (ite_keeps (h2.setShed fun x hx => ?_) h2) h2.actHead
    obtain rfl | hx := List.mem_cons.1 hx
    · exact h2.shed x (by rw [hl]; exact List.mem_cons_self)
    · exact h2.projectionWalk hm _ x hx
  · exact ite_keeps (h2.startShedding hm) h2

theorem giveReservation (f : Fin 8) (band rated : Nat) : c.Parked (giveReservation f band rated t) := by
  unfold Machine.giveReservation powerEvent
  exact (h.setReservation f _).settlePower hm t false

theorem reserve (f : Fin 8) (step : Nat) : c.Parked (reserve f step t) := (h.modFan f _).giveReservation hm f _ _

end Chip.Parked

/-! ## The power unit after the restart (R115) -/

theorem restartGrants_leaves (c : Chip) : (restartGrants c).power.queue = [] ∧ (restartGrants c).power.shed = [] ∧
    ∀ k, (restartGrants c).grant k = restartGrant (c.slot k).switchClosed (c.grant k) :=
  ⟨rfl, rfl, fun _ => Bank.read_gen ..⟩

theorem parked_restartPower (hm : ∀ k, (c.slot k).state.remapped) : (restartGrants c).Parked (restartPower c) := by
  have hgrants : (restartGrants c).Parked (restartGrants c) := ⟨rfl, rfl, rfl, nofun⟩
  have hm' : ∀ k, ((restartGrants c).slot k).state.remapped := hm
  unfold restartPower
  generalize restartGrants c = u at hgrants hm' ⊢
  exact ite_keeps (hgrants.startShedding hm') hgrants

/-- R97: a part with no entry in the queue has nothing to serve. -/
theorem queueService_of_noEntry (h : c.power.queue = []) : queueService c = setServiceDue false c := by
  rw [queueService_waiting (.inr (by rw [h]; nofun)), h, List.map_nil, ← h]
  rfl

/-- The figures that no step of settling an event of the power unit writes. -/
structure Chip.SameInflow (c t : Chip) : Prop where
  supplies : t.power.supplies = c.power.supplies
  reservations : t.power.reservations = c.power.reservations
  settings : t.settings = c.settings

theorem Chip.sameInflow_settling (c : Chip) : SettlingKeeps c.SameInflow where
  capForShed _ _ h := capForShed_keeps (P := c.SameInflow) (fun _ _ ⟨h1, h2, h3⟩ => ⟨h1, h2, h3⟩)
    (fun _ _ ⟨h1, h2, h3⟩ => ⟨h1, h2, h3⟩) (fun _ _ ⟨h1, h2, h3⟩ => ⟨h1, h2, h3⟩) fun _ => ⟨h.1, h.2, h.3⟩
  setShed _ _ := fun ⟨h1, h2, h3⟩ => ⟨h1, h2, h3⟩
  setServiceDue _ _ := fun ⟨h1, h2, h3⟩ => ⟨h1, h2, h3⟩
  raise _ _ _ := fun ⟨h1, h2, h3⟩ => ⟨h1, h2, h3⟩
  post _ _ := fun ⟨h1, h2, h3⟩ => ⟨h1, h2, h3⟩

theorem sameFigures_restartPower (hm : ∀ k, (c.slot k).state.remapped) : (restartGrants c).SameFigures (restartPower c) := by
  obtain ⟨hslots, hgrants, -, -⟩ := parked_restartPower hm
  have hinflow : (restartGrants c).SameInflow (restartPower c) := by
    have hrefl : (restartGrants c).SameInflow (restartGrants c) := ⟨rfl, rfl, rfl⟩
    unfold restartPower
    generalize restartGrants c = u at hrefl ⊢
    exact ite_keeps (u.sameInflow_settling.startShedding hrefl) hrefl
  obtain ⟨hsupplies, hreservations, hsettings⟩ := hinflow
  exact ⟨hslots, hgrants, hsupplies, hreservations, hsettings⟩

/-- R112, R115: what the restart of the power unit decides. -/
theorem restartPower_sheds (hm : ∀ k, (c.slot k).state.remapped) :
    ((restartPower c).overCommitted = false → (restartPower c).power.shed = []) ∧
    ((restartPower c).overCommitted = true →
      ((restartPower c).projectionWalk none = [] → (restartPower c).power.shed = [] ∧
        ((restartPower c).totalGrants = 0 → (restartPower c).alerted .chassis .budgetExhausted)) ∧
      ∀ e rest, (restartPower c).projectionWalk none = e :: rest → (restartPower c).power.shed = { e with acting := true } :: rest ∧
        Instr.shedOffAction e.slot ∈ (restartPower c).messages) := by
  have hsame := sameFigures_restartPower hm
  have hgrants : (restartGrants c).Parked (restartGrants c) := ⟨rfl, rfl, rfl, nofun⟩
  have hm' : ∀ k, ((restartGrants c).slot k).state.remapped := hm
  have hnone : (restartGrants c).power.shed = [] := rfl
  rw [hsame.overCommitted, hsame.projectionWalk, hsame.totalGrants]
  unfold restartPower
  generalize restartGrants c = u at hgrants hm' hnone ⊢
  dsimp only
  refine ⟨fun ho => ?_, fun ho => ⟨fun hw => ?_, fun e rest hw => ?_⟩⟩
  · rw [if_neg (by rw [ho]; exact Bool.false_ne_true)]
    exact hnone
  · rw [if_pos ho, startShedding_exhausted hw]
    refine ⟨ite_keeps (P := fun t => t.power.shed = []) hnone hnone, fun h0 => ?_⟩
    rw [if_pos h0]
    exact alerted_raise _ _ _
  · rw [if_pos ho]
    obtain ⟨hshed, -, hoff⟩ := startShedding_acts hw
    exact ⟨hshed, hoff (hgrants.projectionWalk hm' none e (by rw [hw]; exact List.mem_cons_self)).1⟩

end Sys2Proof.Machine

/-!
PROOF. Warm restart of the zones and fans (Table 49, R138, R140), and the power unit as the reservations are raised.
-/

namespace Sys2Proof.Machine

variable {c t : Chip} {f : Fin 8} {r : Fan} {v : Reservation} {z : Fin 4}

/-! ## A new target (R121) -/

/-- R121: the target of a fan of a zone. -/
abbrev Chip.newTarget (c : Chip) (f : Fin 8) (r : Fan) : Nat := min (c.zone (fanZone f)).target r.maxSpeed

theorem Chip.FanWritten.fanTarget (h : c.FanWritten f r v t) : t.fanTarget f = c.newTarget f r := by
  unfold Chip.fanTarget
  rw [h.zone, h.fan]

theorem beyondChange_iff {n m : Nat} : beyondChange n m = true ↔ 6 * m < ((n - m) + (m - n)) * 100 := decide_eq_true_iff

theorem beyondChange_self (n : Nat) : beyondChange n n = false := by
  unfold beyondChange gap
  exact decide_eq_false (by omega)

/-- R121: a fan that has no driven band of its own takes its target and nothing else. -/
theorem Chip.FanWritten.deliverTarget_quiet (h : c.FanWritten f r v t) (hs : r.state = .failed ∨ r.state = .pinned) :
    c.FanWritten f { r with target := c.newTarget f r } v (deliverTarget f t) := by
  have hseen : ¬ ((t.fan f).state = .absent ∨ (t.fan f).state = .identifying) := by
    rw [h.fan]
    rcases hs with hs | hs <;> rw [hs] <;> exact fun h => h.elim nofun nofun
  unfold Machine.deliverTarget
  rw [if_neg hseen, h.fanTarget, h.fan]
  split
  · next he =>
    rw [he]
    exact h
  · have hchange : targetChange f (c.newTarget f r) t = Machine.modFan f (fun r' => { r' with target := c.newTarget f r }) t := by
      unfold targetChange
      dsimp only
      rw [h.fan]
      rcases hs with hs | hs <;> rw [hs]
    rw [hchange]
    exact h.modFan fun r' => { r' with target := c.newTarget f r }

/-- R121, R128: a fan that searches starts again when its target moves by more than 6 % of the search target. -/
theorem Chip.FanWritten.deliverTarget_searching (h : c.FanWritten f r v t) (hs : r.state = .calibrating)
    (hst : r.searchTarget = r.target) : c.FanWritten f
      (if beyondChange (c.newTarget f r) r.target then ({ r with target := c.newTarget f r } : Fan).searching
        else { r with target := c.newTarget f r }) v (deliverTarget f t) := by
  have hseen : ¬ ((t.fan f).state = .absent ∨ (t.fan f).state = .identifying) := by
    rw [h.fan, hs]
    exact fun h => h.elim nofun nofun
  unfold Machine.deliverTarget
  rw [if_neg hseen, h.fanTarget, h.fan]
  by_cases he : c.newTarget f r = r.target
  · rw [if_pos he, he, beyondChange_self]
    exact h
  · have hchange : targetChange f (c.newTarget f r) t = if beyondChange (c.newTarget f r) r.target then
        startSearch f (Machine.modFan f (fun r' => { r' with target := c.newTarget f r }) t)
        else Machine.modFan f (fun r' => { r' with target := c.newTarget f r }) t := by
      unfold targetChange
      dsimp only
      rw [h.fan, hs, hst]
    have hmoved := h.modFan fun r' => { r' with target := c.newTarget f r }
    rw [if_neg he, hchange]
    split
    · exact hmoved.modFan Fan.searching
    · exact hmoved

/-! ## Table 49 -/

/-- Table 49: a fan and its reservation after warm restart, by the fan's state and its zone's target. -/
def Fan.RestartsTo (r : Fan) (v : Reservation) (t : Nat) (r' : Fan) (v' : Reservation) : Prop :=
  let searching (r : Fan) (old : Nat) : Fan := { r with
    state := .calibrating, searchTarget := old, search := some { index := 0, partialResult := 0, trial := 32 }, band := 32,
    window := .settle }
  let new := min t r.maxSpeed
  let changed := 6 * r.target < ((new - r.target) + (r.target - new)) * 100
  let calibrated : Prop :=
    r' = { searching r (if changed then new else r.target) with
      target := new, reservedBand := 63, pinnedBand := none, lockCount := 0, weakCount := 0, stallCount := 0,
      releaseTimer := false } ∧
    v' = { band := 63, ratedDraw := some r.ratedDraw }
  match r.state with
  | .absent | .identifying => r' = r ∧ v' = v
  | .failed => r' = { r with target := new } ∧ v' = v
  | .calibrating => r' = { searching r new with target := new } ∧ v' = v
  | .tracking | .locked | .boost => calibrated
  | .pinned => r' = { r with target := new, stallCount := 0, window := .count, windowBand := r.band } ∧ v' = v

theorem restartFan_driven (hs : (c.fan f).state = .tracking ∨ (c.fan f).state = .locked ∨ (c.fan f).state = .boost) :
    restartFan f c = deliverTarget f (enterCalibrating f c) := by
  unfold restartFan
  rcases hs with hs | hs | hs <;> rw [hs]

/-- Table 49: a fan that drove its bay calibrates again. -/
theorem restartFan_calibrates (hs : (c.fan f).state = .tracking ∨ (c.fan f).state = .locked ∨ (c.fan f).state = .boost) :
    c.FanWritten f { (c.fan f).calibrating with
      searchTarget :=
        if 6 * (c.fan f).target < ((c.newTarget f (c.fan f) - (c.fan f).target) +
          ((c.fan f).target - c.newTarget f (c.fan f))) * 100 then c.newTarget f (c.fan f) else (c.fan f).target
      target := c.newTarget f (c.fan f) } { band := 63, ratedDraw := some (c.fan f).ratedDraw } (restartFan f c) := by
  rw [restartFan_driven hs]
  have h := (Chip.FanWritten.refl c f).enterCalibrating.deliverTarget_searching rfl rfl
  have hnew : c.newTarget f (c.fan f).calibrating = c.newTarget f (c.fan f) := rfl
  have htarget : (c.fan f).calibrating.target = (c.fan f).target := rfl
  rw [hnew, htarget] at h
  split at h
  · next hb =>
    rw [if_pos (beyondChange_iff.1 hb)]
    exact h
  · next hb =>
    rw [if_neg (mt beyondChange_iff.2 hb)]
    exact h

theorem restartFan_written (f : Fin 8) (c : Chip) : ∃ r v, c.FanWritten f r v (restartFan f c) ∧
    (c.fan f).RestartsTo (c.reservation f) (c.zone (fanZone f)).target r v := by
  have hrefl := Chip.FanWritten.refl c f
  have htarget : c.fanTarget f = c.newTarget f (c.fan f) := rfl
  unfold Fan.RestartsTo
  cases hs : (c.fan f).state
  case absent | identifying =>
    refine ⟨_, _, ?_, rfl, rfl⟩
    have h : restartFan f c = c := by
      unfold restartFan deliverTarget
      rw [hs]
      exact if_pos (by decide)
    rw [h]
    exact hrefl
  case failed =>
    refine ⟨_, _, ?_, rfl, rfl⟩
    have h : restartFan f c = deliverTarget f c := by
      unfold restartFan
      rw [hs]
    rw [h, ← hs]
    exact hrefl.deliverTarget_quiet (.inl hs)
  case calibrating =>
    refine ⟨_, _, ?_, rfl, rfl⟩
    have h : restartFan f c = startSearch f (modFan f (fun r => { r with target := c.fanTarget f }) c) := by
      unfold restartFan
      rw [hs]
    rw [h, htarget, ← hs]
    exact (hrefl.modFan fun r => { r with target := c.newTarget f (c.fan f) }).modFan Fan.searching
  case tracking => exact ⟨_, _, restartFan_calibrates (.inl hs), rfl, rfl⟩
  case locked => exact ⟨_, _, restartFan_calibrates (.inr (.inl hs)), rfl, rfl⟩
  case boost => exact ⟨_, _, restartFan_calibrates (.inr (.inr hs)), rfl, rfl⟩
  case pinned =>
    refine ⟨_, _, ?_, rfl, rfl⟩
    have h : restartFan f c = deliverTarget f (modFan f (fun r => { r with
        stallCount := 0, window := .count, windowBand := r.band }) c) := by
      unfold restartFan
      rw [hs]
    rw [h, ← hs]
    exact (hrefl.modFan fun r => { r with
      stallCount := 0, window := .count, windowBand := r.band }).deliverTarget_quiet (.inr hs)

/-! ## What the restart of the fans leaves alone -/

section

variable {P : Chip → Prop} (hfan : ∀ f g c, P c → P (modFan f g c))
include hfan

/-- R121: a new target writes the record of its fan alone. -/
theorem deliverTarget_writes (f : Fin 8) (hc : P c) : P (deliverTarget f c) := by
  refine ite_keeps hc (ite_keeps hc ?_)
  have h1 : P (modFan f (fun r => { r with target := c.fanTarget f }) c) := hfan _ _ _ hc
  unfold targetChange
  dsimp only
  split
  · exact ite_keeps (hfan _ _ _ h1) h1
  · exact hfan _ _ _ h1
  · exact ite_keeps (hfan _ _ _ h1) h1
  all_goals exact h1

/-- Table 49: a fan that does not calibrate anew has its record written alone. -/
theorem restartFan_writes (hs : (c.fan f).state ≠ .tracking ∧ (c.fan f).state ≠ .locked ∧ (c.fan f).state ≠ .boost)
    (hc : P c) : P (restartFan f c) := by
  obtain ⟨htracking, hlocked, hboost⟩ := hs
  unfold restartFan
  split
  case h_4 => exact hfan _ _ _ (hfan _ _ _ hc)
  case h_5 hs => exact absurd hs htracking
  case h_6 hs => exact absurd hs hlocked
  case h_7 hs => exact absurd hs hboost
  case h_8 => exact deliverTarget_writes hfan f (hfan _ _ _ hc)
  all_goals exact deliverTarget_writes hfan f hc

theorem restartFan_keeps (hgive : ∀ f band rated c, P c → P (giveReservation f band rated c)) (f : Fin 8) (hc : P c) :
    P (restartFan f c) := by
  by_cases hs : (c.fan f).state = .tracking ∨ (c.fan f).state = .locked ∨ (c.fan f).state = .boost
  · have hreserve : P (reserve f 63 c) := by
      unfold reserve
      exact hgive _ _ _ _ (hfan _ _ _ hc)
    have hcalibrating : P (enterCalibrating f c) := by
      unfold enterCalibrating startSearch
      exact hfan _ _ _ (hfan _ _ _ hreserve)
    rw [restartFan_driven hs]
    exact deliverTarget_writes hfan f hcalibrating
  · obtain ⟨htracking, hrest⟩ := not_or.1 hs
    exact restartFan_writes hfan ⟨htracking, not_or.1 hrest⟩ hc

theorem restartFans_keeps (hzone : ∀ z g c, P c → P (modZone z g c))
    (hgive : ∀ f band rated c, P c → P (giveReservation f band rated c)) (hc : P c) : P (restartFans c) :=
  forEach_keeps _ _ (fun f _ h => restartFan_keeps hfan hgive f h) _ (forEach_keeps _ _ (fun _ _ h => hzone _ _ _ h) _ hc)

end

/-! ## The fan controller after the restart (R138, R140) -/

/-- R140: the zones of a restart. -/
abbrev restartZones : Chip → Chip := forEach (keys 4) fun z => modZone z restartZone

theorem restartZones_leaves (c : Chip) : (restartZones c = { c with fans := (restartZones c).fans } ∧
    ∀ f, (restartZones c).fan f = c.fan f) ∧ ∀ z, (restartZones c).zone z = restartZone (c.zone z) :=
  forEach_own (rd := fun z t => t.zone z) (P := fun t => t = { c with fans := t.fans } ∧ ∀ f, t.fan f = c.fan f) (x := c.zone)
    (y := fun z => restartZone (c.zone z)) (fun i j t hj => (zone_modZone ..).trans (if_neg hj))
    (fun i t ht hi => by
      obtain ⟨ht, hfan⟩ := ht
      refine ⟨⟨?_, hfan⟩, (zone_modZone ..).trans ((if_pos rfl).trans (congrArg restartZone hi))⟩
      conv_lhs => rw [ht]
      rfl)
    ⟨rfl, fun _ => rfl⟩ fun _ => rfl

/-- Table 49, R138, R140: the zones, the fans and their reservations. -/
structure Chip.FansRestarted (c t : Chip) : Prop where
  zone : ∀ z, t.zone z = restartZone (c.zone z)
  fan : ∀ f, (c.fan f).RestartsTo (c.reservation f) ((c.zone (fanZone f)).active.read 0).speed (t.fan f) (t.reservation f)

theorem fansRestarted_restartFans (c : Chip) : c.FansRestarted (restartFans c) := by
  obtain ⟨⟨hz, hfan⟩, hzone⟩ := restartZones_leaves c
  have hreservation (f : Fin 8) : (restartZones c).reservation f = c.reservation f := by rw [hz]; rfl
  have hfans := forEach_ownRelated (op := restartFan) (rd := fun f t => (t.fan f, t.reservation f))
    (P := fun t => ∀ z, t.zone z = restartZone (c.zone z)) (x := fun f => (c.fan f, c.reservation f))
    (R := fun f x => (c.fan f).RestartsTo (c.reservation f) ((c.zone (fanZone f)).active.read 0).speed x.1 x.2)
    (fun i j t hj => by
      obtain ⟨r, v, h, -⟩ := restartFan_written i t
      exact Prod.ext (h.others j hj).1 (h.others j hj).2)
    (fun i t ht hi => by
      obtain ⟨r, v, h, hto⟩ := restartFan_written i t
      obtain ⟨hri, hvi⟩ := Prod.ext_iff.1 hi
      dsimp only at hri hvi
      rw [hri, hvi, ht] at hto
      exact ⟨fun z => (h.zone z).trans (ht z), by rw [h.fan, h.reservation]; exact hto⟩)
    hzone fun f => Prod.ext (hfan f) (hreservation f)
  obtain ⟨hzones, hfans⟩ := hfans
  have heq : restartFans c = forEach (keys 8) restartFan (restartZones c) := rfl
  rw [heq]
  exact ⟨hzones, hfans⟩

/-- R138: with no fan to calibrate anew the restart of the fans reaches no other unit. -/
theorem restartFans_only (hs : ∀ f, (c.fan f).state ≠ .tracking ∧ (c.fan f).state ≠ .locked ∧ (c.fan f).state ≠ .boost) :
    restartFans c = { c with fans := (restartFans c).fans } := by
  obtain ⟨⟨hz, hfan⟩, -⟩ := restartZones_leaves c
  exact (forEach_ownRelated (op := restartFan) (rd := fun f t => t.fan f) (P := fun t => t = { c with fans := t.fans }) (x := c.fan)
    (R := fun _ _ => True)
    (fun i j t hj => by
      obtain ⟨r, v, h, -⟩ := restartFan_written i t
      exact (h.others j hj).1)
    (fun i t ht hi => ⟨restartFan_writes (P := fun t => t = { c with fans := t.fans })
      (fun f g u hu => by
        conv_lhs => rw [hu]
        rfl) (hi ▸ hs i) ht, trivial⟩)
    hz hfan).1

end Sys2Proof.Machine

/-!
PROOF. Warm restart (R28, R184), from the stages.
-/

namespace Sys2Proof.Machine

variable {c d t : Chip} {k : Fin 16} {s : State} {n : Nat} {m : List Byte}

/-! ## The slots (Table 14) -/

theorem Slot.restart_of_powering {s : Slot} (hs : s.state = .powering ∨ s.state = .starting) : s.restart = s.restartDown := by
  unfold restart
  rcases hs with hs | hs <;> rw [hs]

/-- Table 14, state by state. -/
theorem Slot.restart_leaves (s : Slot) : match s.state with
    | .running => s.restart.state = .adopting ∧ s.restart.switchClosed = true ∧ s.restart.resetReleased = true ∧
        s.restart.adoptCause = none
    | .draining => s.restart.state = .adopting ∧ s.restart.adoptCause = s.drainCause ∧ s.restart.drainCause = none
    | .adopting => s.restart.state = .adopting ∧ s.restart.adoptCause = s.adoptCause
    | .powering | .starting =>
      s.restart.switchClosed = false ∧
        (if s.powerGood then s.restart.state = .poweringDown ∧ s.restart.outcome = some .interrogating ∧
            s.restart.powerDownTimer = some 500
          else if s.latch.field then s.restart.state = .interrogating else s.restart.state = .seated)
    | .poweringDown => s.restart.state = .poweringDown ∧ s.restart.outcome = s.outcome ∧ s.restart.drainCause = s.drainCause ∧
        s.restart.powerDownTimer = some 500
    | .held => s.restart.state = .held ∧ s.restart.holdReason = s.holdReason
    | .empty | .seated | .interrogating | .negotiating | .awaitingAdmit | .awaitingGrant =>
      if s.early.field = false ∨ s.late.field = false then s.restart.state = .empty
      else if s.latch.field then s.restart.state = .interrogating else s.restart.state = .seated := by
  cases hs : s.state <;> dsimp only
  case powering => exact restart_of_powering (.inl hs) ▸ s.restartDown_leaves
  case starting => exact restart_of_powering (.inr hs) ▸ s.restartDown_leaves
  case empty | seated | interrogating | negotiating | awaitingAdmit | awaitingGrant => exact restart_unpowered (by simp [hs])
  all_goals
    unfold restart
    rw [hs]
  case running | poweringDown => exact ⟨rfl, rfl, rfl, rfl⟩
  case draining => exact ⟨rfl, rfl, rfl⟩
  case adopting | held => exact ⟨rfl, rfl⟩

/-! ## What stands through the restart (R184) -/

/-- R184: the port, the settings, the inventory and the alert index, as the restart leaves them. -/
structure Chip.Restarting (c t : Chip) : Prop where
  settings : t.settings = c.settings
  request : t.port.request = none
  response : t.port.response = none
  overrun : t.port.overrun = false
  restartWaiting : t.port.restartWaiting = false
  inventory : t.inventory = c.inventory
  head : ∃ e rest, t.port.alerts = e :: rest ∧ e.object = .chassis
  alerted : t.alerted .chassis .restarted

theorem raiseIn_head {o o' : AlertObject} {x : CauseSet} {l : List AlertEntry} (h : ∃ e rest, l = e :: rest ∧ e.object = o') :
    ∃ e rest, raiseIn o x l = e :: rest ∧ e.object = o' := by
  obtain ⟨e, rest, rfl, he⟩ := h
  unfold raiseIn
  split
  · next ho => exact ⟨_, _, rfl, ho.symm.trans he⟩
  · exact ⟨_, _, rfl, he⟩

namespace Chip.Restarting

theorem of_port {u : Chip} (h : c.Restarting t) (hp : u.port = t.port) (hi : u.inventory = t.inventory) : c.Restarting u where
  settings := (congrArg Port.settings hp).trans h.settings
  request := (congrArg Port.request hp).trans h.request
  response := (congrArg Port.response hp).trans h.response
  overrun := (congrArg Port.overrun hp).trans h.overrun
  restartWaiting := (congrArg Port.restartWaiting hp).trans h.restartWaiting
  inventory := hi.trans h.inventory
  head := by rw [hp]; exact h.head
  alerted := by
    unfold Chip.alerted
    rw [hp]
    exact h.alerted

theorem raise (h : c.Restarting t) (o : AlertObject) (x : Cause) : c.Restarting (raise o x t) where
  settings := h.settings
  request := h.request
  response := h.response
  overrun := h.overrun
  restartWaiting := h.restartWaiting
  inventory := h.inventory
  head := raiseIn_head h.head
  alerted := h.alerted.raise o x

end Chip.Restarting

theorem Chip.restarting_fans (c : Chip) : FanKeeps c.Restarting where
  power _ _ h := h.of_port rfl rfl
  raise _ _ _ h := h.raise _ _
  messages _ _ h := h.of_port rfl rfl
  fans _ _ h := h.of_port rfl rfl

theorem Chip.restarting_hub (c : Chip) : HubKeeps c.Restarting where
  hub _ _ h := h.of_port rfl rfl
  raise _ _ _ h := h.raise _ _

theorem restarting_restartPort (c : Chip) : c.Restarting (restartPort c) :=
  ⟨rfl, rfl, rfl, rfl, rfl, rfl, ⟨_, _, rfl, rfl⟩, alerted_raise _ _ _⟩

/-! ## The stages before the power unit -/

/-- The part as the power unit finds it at a restart (R28, R30, R72, R84, R165, R184). -/
structure Chip.Staged (c t : Chip) : Prop where
  restarting : c.Restarting t
  slot : ∀ k, t.slot k = (c.slot k).restart
  engine : ∀ k, t.engine k = .reset
  grants : t.power.grants = c.power.grants
  reservations : t.power.reservations = c.power.reservations
  supply : ∀ b, t.supply b = (c.supply b).restarted
  fans : t.fans = c.fans
  channel : ∀ h, t.channel h = (c.channel h).map fun ch => ch.stopped.restarted (c.slot ch.slot).restart.state
  uplink : ∀ u, t.uplink u = { (c.uplink u).drained ((keys 32).map (c.framesFor u)).sum with receiving := false, sending := none }
  lane : ∀ k, t.lane k = { c.lane k with sending := none, pointer := none }
  modules : t.modules = c.modules.toRead c.baysToRead

/-- R184: the stages before the power unit's. -/
abbrev restartStages (c : Chip) : Chip :=
  c |> restartPort |> restartEngines |> restartSlots |> restartHub |> restartSupplies |> restartModules

theorem Supply.restarted_state (p : Supply) : p.restarted.state = p.state := by
  unfold Supply.restarted
  split <;> rfl

/-- The part with the port emptied, the engines reset and the slots mapped. -/
structure Chip.Mapped (c d : Chip) : Prop where
  restarting : c.Restarting d
  slot : ∀ k, d.slot k = (c.slot k).restart
  engine : ∀ k, d.engine k = .reset
  power : d.power = c.power
  fans : d.fans = c.fans
  modules : d.modules = c.modules
  hub : d.hub = c.hub

/-- R184: the port's stage writes the port and the messages alone. -/
structure Chip.SameButPort (c d : Chip) : Prop where
  slots : d.slots = c.slots
  power : d.power = c.power
  fans : d.fans = c.fans
  modules : d.modules = c.modules
  hub : d.hub = c.hub

theorem sameButPort_restartPort (c : Chip) : c.SameButPort (restartPort c) := ⟨rfl, rfl, rfl, rfl, rfl⟩

theorem engine_restartEngines (k : Fin 16) (c : Chip) : (restartEngines c).engine k = .reset := Bank.read_fill ..

/-- What the mapping of the slots and the reset of the engines leave alone. -/
theorem restartSlots_restartEngines (d : Chip) : ∃ slots engines, restartSlots (restartEngines d) =
    { d with slots := slots, engines := engines } ∧ (∀ k, slots.read k = (d.slot k).restart) ∧ ∀ k, engines.read k = .reset :=
  ⟨_, _, rfl, fun k => slot_restartSlots k (restartEngines d), fun k => engine_restartEngines k d⟩

theorem Chip.Restarting.mapped (hr : c.Restarting d) (h : c.SameButPort d) : c.Mapped (restartSlots (restartEngines d)) := by
  obtain ⟨slots, engines, heq, hslot, hengine⟩ := restartSlots_restartEngines d
  have hd (k : Fin 16) : d.slot k = c.slot k := congrArg (fun b => Bank.read b k) h.slots
  rw [heq]
  exact ⟨hr.of_port rfl rfl, fun k => (hslot k).trans (congrArg Slot.restart (hd k)), hengine, h.power, h.fans, h.modules, h.hub⟩

theorem mapped_restartSlots (c : Chip) : c.Mapped (restartSlots (restartEngines (restartPort c))) :=
  (restarting_restartPort c).mapped (sameButPort_restartPort c)

theorem baysToRead_congr (hs : ∀ b, (t.supply b).state = (c.supply b).state) (hf : t.fans = c.fans) (hm : t.modules = c.modules) :
    t.baysToRead = c.baysToRead := by
  have hsupplies : ((keys 6).filter fun b => decide ((t.supply b).state = .identifying) && (t.modules.supplies.read b).field) =
      (keys 6).filter fun b => decide ((c.supply b).state = .identifying) && (c.modules.supplies.read b).field :=
    List.filter_congr fun b _ => by rw [hs, hm]
  unfold Chip.baysToRead
  rw [hsupplies]
  unfold Chip.fan
  rw [hf, hm]

/-- R165: the hub's restart over the mapped slots. -/
theorem Chip.Mapped.hubRestarted (h : c.Mapped d) (hr : d.HubRestarted t) :
    (∀ h, t.channel h = (c.channel h).map fun ch => ch.stopped.restarted (c.slot ch.slot).restart.state) ∧
    (∀ u, t.uplink u = { (c.uplink u).drained ((keys 32).map (c.framesFor u)).sum with receiving := false, sending := none }) ∧
    ∀ k, t.lane k = { c.lane k with sending := none, pointer := none } := by
  obtain ⟨hchannel, huplink, hlane⟩ := hr
  have hc (h' : Fin 32) : d.channel h' = c.channel h' := by
    unfold Chip.channel
    rw [h.hub]
  have hu (u : Fin 2) : d.uplink u = c.uplink u := by
    unfold Chip.uplink
    rw [h.hub]
  have hl (k : Fin 16) : d.lane k = c.lane k := by
    unfold Chip.lane
    rw [h.hub]
  have hf (u : Fin 2) : d.framesFor u = c.framesFor u := funext fun h' => by
    unfold Chip.framesFor
    rw [hc]
  refine ⟨fun h' => ?_, fun u => ?_, fun k => ?_⟩
  · rw [hchannel, hc]
    exact congrArg (fun f => (c.channel h').map f) (funext fun ch => by rw [h.slot])
  · rw [huplink, hu, hf]
  · rw [hlane, hl]

/-- R84: the supplies' stage writes the supplies alone. -/
structure Chip.SameButSupplies (c t : Chip) : Prop where
  slots : t.slots = c.slots
  engines : t.engines = c.engines
  grants : t.power.grants = c.power.grants
  reservations : t.power.reservations = c.power.reservations
  fans : t.fans = c.fans
  hub : t.hub = c.hub
  modules : t.modules = c.modules
  inventory : t.inventory = c.inventory
  port : t.port = c.port

theorem sameButSupplies_restartSupplies (c : Chip) : c.SameButSupplies (restartSupplies c) :=
  restartSupplies_keeps (P := c.SameButSupplies) (fun _ _ _ h =>
    ⟨h.slots, h.engines, h.grants, h.reservations, h.fans, h.hub, h.modules, h.inventory, h.port⟩)
    ⟨rfl, rfl, rfl, rfl, rfl, rfl, rfl, rfl, rfl⟩

theorem Chip.Mapped.staged (h : c.Mapped d) : c.Staged (restartModules (restartSupplies (restartHub d))) := by
  obtain ⟨hchannel, huplink, hlane⟩ := h.hubRestarted (hubRestarted_restartHub d)
  have hsame := (Chip.sameButHub_keeps d).restartHub (.refl d)
  have he := c.restarting_hub.restartHub h.restarting
  generalize restartHub d = e at hchannel huplink hlane hsame he ⊢
  have hsupply (b : Fin 6) : (restartSupplies e).supply b = (c.supply b).restarted := by
    rw [supply_restartSupplies]
    unfold Chip.supply
    rw [hsame.power, h.power]
  have hg := sameButSupplies_restartSupplies e
  generalize restartSupplies e = g at hsupply hg ⊢
  have hfans : g.fans = c.fans := hg.fans.trans (hsame.fans.trans h.fans)
  have hmodules : g.modules = c.modules := hg.modules.trans (hsame.modules.trans h.modules)
  have hbays : g.baysToRead = c.baysToRead := baysToRead_congr (fun b => by rw [hsupply, Supply.restarted_state]) hfans hmodules
  rw [restartModules_eq, hbays, hmodules]
  exact {
    restarting := (he.of_port hg.port hg.inventory).of_port rfl rfl
    slot := fun k => (congrArg (fun b => Bank.read b k) (hg.slots.trans hsame.slots)).trans (h.slot k)
    engine := fun k => (congrArg (fun b => Bank.read b k) (hg.engines.trans hsame.engines)).trans (h.engine k)
    grants := hg.grants.trans (congrArg Power.grants (hsame.power.trans h.power))
    reservations := hg.reservations.trans (congrArg Power.reservations (hsame.power.trans h.power))
    supply := hsupply
    fans := hfans
    channel := fun h => (congrArg (fun b : Hub => b.channels.read h) hg.hub).trans (hchannel h)
    uplink := fun u => (congrArg (fun b : Hub => b.uplinks.read u) hg.hub).trans (huplink u)
    lane := fun k => (congrArg (fun b : Hub => b.lanes.read k) hg.hub).trans (hlane k)
    modules := rfl }

theorem staged_restartStages (c : Chip) : c.Staged (restartStages c) := (mapped_restartSlots c).staged

end Sys2Proof.Machine

/-!
PROOF. Warm restart: the stages from the power unit on, and the obligation.
-/

namespace Sys2Proof.Machine

variable {c d p t : Chip} {k : Fin 16} {s : State} {n : Nat} {m : List Byte}

/-- R112, R115: the shed list of a part whose reservations the restart did not raise. -/
def Chip.Sheds (t : Chip) : Prop :=
  (t.overCommitted = false → t.power.shed = []) ∧
    (t.overCommitted = true →
      (t.projectionWalk none = [] → t.power.shed = [] ∧ (t.totalGrants = 0 → t.alerted .chassis .budgetExhausted)) ∧
      ∀ e rest, t.projectionWalk none = e :: rest → t.power.shed = { e with acting := true } :: rest ∧
        Instr.shedOffAction e.slot ∈ t.messages)

/-- R28, R184: the part after a warm restart. -/
structure Chip.WarmRestarted (c t : Chip) : Prop where
  restarting : c.Restarting t
  slot : ∀ k, t.slot k = (c.slot k).restart
  engine : ∀ k, t.engine k = if (t.slot k).state = .interrogating ∨ (t.slot k).state = .adopting then interrogatingEngine
    else .reset
  grant : ∀ k, t.grant k = restartGrant (t.slot k).switchClosed (c.grant k)
  queue : t.power.queue = []
  shed : ∀ e ∈ t.power.shed, e.action = .off ∧ (t.slot e.slot).state = .adopting
  sheds : (∀ f, (c.fan f).state ≠ .tracking ∧ (c.fan f).state ≠ .locked ∧ (c.fan f).state ≠ .boost) → t.Sheds
  supply : ∀ b, t.supply b = (c.supply b).restarted
  zone : ∀ z, t.zone z = restartZone (c.zone z)
  fan : ∀ f, (c.fan f).RestartsTo (c.reservation f) ((c.zone (fanZone f)).active.read 0).speed (t.fan f) (t.reservation f)
  channel : ∀ h, t.channel h = (c.channel h).map fun ch => ch.stopped.restarted (t.slot ch.slot).state
  uplink : ∀ u, t.uplink u = { (c.uplink u).drained ((keys 32).map (c.framesFor u)).sum with receiving := false, sending := none }
  lane : ∀ k, t.lane k = { c.lane k with sending := none, pointer := none }
  modules : t.modules = c.modules.toRead c.baysToRead

/-- The part as the fans' stage finds and leaves it. -/
structure Chip.Cooled (c p t : Chip) : Prop where
  restarting : c.Restarting t
  frame : p.SameFrame t
  parked : p.Parked t
  supplies : t.power.supplies = p.power.supplies
  fans : p.FansRestarted t
  only : (∀ f, (p.fan f).state ≠ .tracking ∧ (p.fan f).state ≠ .locked ∧ (p.fan f).state ≠ .boost) →
    t = { p with fans := t.fans }

theorem supplies_giveReservation (f : Fin 8) (band rated : Nat) (c : Chip) :
    (giveReservation f band rated c).power.supplies = c.power.supplies := by
  unfold giveReservation
  exact (powerEvent_sources ..).supplies

theorem cooled_restartFans (hm : ∀ k, (p.slot k).state.remapped) (hr : c.Restarting p) (hp : p.Parked p) :
    c.Cooled p (restartFans p) where
  restarting := c.restarting_fans.restartFans hr
  frame := p.sameFrame_keeps.restartFans (.refl p)
  parked := restartFans_keeps (P := p.Parked) (fun _ _ _ h => h.modFan _ _)
    (fun _ _ _ h => ⟨h.slots, h.grants, h.queue, h.shed⟩) (fun _ _ _ _ h => h.giveReservation hm _ _ _) hp
  supplies := restartFans_keeps (P := fun t => t.power.supplies = p.power.supplies) (fun _ _ _ h => h) (fun _ _ _ h => h)
    (fun _ _ _ _ h => (supplies_giveReservation ..).trans h) rfl
  fans := fansRestarted_restartFans p
  only := restartFans_only

/-! ## The power unit's stage -/

/-- The part as the power unit's stage leaves it. -/
structure Chip.Powered (c d p : Chip) : Prop where
  restarting : c.Restarting p
  same : d.SameButPower p
  remapped : ∀ k, (p.slot k).state.remapped
  grant : ∀ k, p.grant k = restartGrant (p.slot k).switchClosed (c.grant k)
  parked : p.Parked p
  sheds : p.Sheds
  supplies : p.power.supplies = d.power.supplies
  reservations : p.power.reservations = d.power.reservations

theorem Chip.Staged.powered (h : c.Staged d) : c.Powered d (restartPower d) := by
  have hm (k : Fin 16) : (d.slot k).state.remapped := by
    rw [h.slot]
    exact Slot.restart_remapped _
  obtain ⟨-, -, hgrants⟩ := restartGrants_leaves d
  have hgrant (k : Fin 16) : (restartGrants d).grant k = restartGrant (d.slot k).switchClosed (c.grant k) := by
    rw [hgrants]
    exact congrArg (fun b => restartGrant (d.slot k).switchClosed (Bank.read b k)) h.grants
  have hslot (k : Fin 16) : (restartGrants d).slot k = d.slot k := rfl
  have hsupplies : (restartGrants d).power.supplies = d.power.supplies := rfl
  have hreservations : (restartGrants d).power.reservations = d.power.reservations := rfl
  have hfigures := sameFigures_restartPower hm
  have hparked := parked_restartPower hm
  have hsheds := restartPower_sheds hm
  have hrest := c.restarting_fans.toPowerKeeps.restartPower h.restarting
  have hsame := (Chip.sameButPower_keeps d).restartPower (.refl d)
  generalize restartGrants d = g at hgrant hslot hsupplies hreservations hfigures hparked
  generalize restartPower d = p at hfigures hparked hsheds hrest hsame ⊢
  have hp (k : Fin 16) : p.slot k = d.slot k := (hfigures.slot k).trans (hslot k)
  exact {
    restarting := hrest
    same := hsame
    remapped := fun k => (hp k).symm ▸ hm k
    grant := fun k => (hfigures.grant k).trans ((hgrant k).trans (by rw [hp]))
    parked := ⟨rfl, rfl, hparked.queue, fun e he => by rw [hfigures.slot]; exact hparked.shed e he⟩
    sheds := hsheds
    supplies := hfigures.supplies.trans hsupplies
    reservations := hfigures.reservations.trans hreservations }

/-! ## The whole restart -/

theorem engine_setServiceDue (b : Bool) (k : Fin 16) (c : Chip) : (setServiceDue b c).engine k = c.engine k := rfl

/-- R28, R30, R97: the interrogations, and the end of the event. -/
theorem Chip.Cooled.ends (h : c.Cooled p t) (he : ∀ k, t.engine k = .reset) : ∃ engines,
    queueService (restartInterrogations t) = setServiceDue false { t with engines := engines } ∧
      ∀ k, engines.read k = if (t.slot k).state = .interrogating ∨ (t.slot k).state = .adopting then interrogatingEngine
        else .reset := by
  obtain ⟨heq, hengine⟩ := restartInterrogations_leaves he
  refine ⟨(restartInterrogations t).engines, ?_, hengine⟩
  rw [← heq]
  exact queueService_of_noEntry (by rw [heq]; exact h.parked.queue)

/-- R112: what shedding left stands when no other unit than the fans' and the engines' is written. -/
theorem Chip.Sheds.of_only {q : Chip} {engines : Bank 16 Engine} (h : p.Sheds) (hq : q = { p with fans := q.fans }) :
    (setServiceDue false { q with engines := engines }).Sheds := by
  obtain ⟨hwithin, hover⟩ := h
  generalize q.fans = fans at hq
  subst hq
  have hfigures : p.SameFigures (setServiceDue false { p with fans := fans, engines := engines }) := ⟨rfl, rfl, rfl, rfl, rfl⟩
  unfold Chip.Sheds
  rw [hfigures.overCommitted, hfigures.projectionWalk, hfigures.totalGrants]
  exact ⟨hwithin, hover⟩

/-- The end of the restart, from the stages. -/
theorem Chip.Staged.warmRestarted {q : Chip} {engines : Bank 16 Engine} (h : c.Staged d) (hp : c.Powered d p) (hq : c.Cooled p q)
    (he : ∀ k, engines.read k = if (q.slot k).state = .interrogating ∨ (q.slot k).state = .adopting then interrogatingEngine
      else .reset) : c.WarmRestarted (setServiceDue false { q with engines := engines }) := by
  have hslots : q.slots = d.slots := hq.frame.slots.trans hp.same.slots
  have hslot (k : Fin 16) : q.slot k = (c.slot k).restart := (congrArg (fun b => Bank.read b k) hslots).trans (h.slot k)
  have hpslot (k : Fin 16) : q.slot k = p.slot k := congrArg (fun b => Bank.read b k) hq.frame.slots
  have hgrant (k : Fin 16) : q.grant k = restartGrant (q.slot k).switchClosed (c.grant k) := by
    rw [hpslot]
    exact (congrArg (fun b => Bank.read b k) hq.parked.grants).trans (hp.grant k)
  have hhub : q.hub = d.hub := hq.frame.hub.trans hp.same.hub
  have hfans : p.fans = c.fans := hp.same.fans.trans h.fans
  have hfan (f : Fin 8) : p.fan f = c.fan f := congrArg (fun b : FanUnit => b.fans.read f) hfans
  have hzone (z : Fin 4) : p.zone z = c.zone z := zone_congr hfans z
  have hreservation (f : Fin 8) : p.reservation f = c.reservation f :=
    congrArg (fun b => Bank.read b f) (hp.reservations.trans h.reservations)
  exact {
    restarting := hq.restarting.of_port rfl rfl
    slot := hslot
    engine := he
    grant := hgrant
    queue := hq.parked.queue
    shed := fun e hm => by
      obtain ⟨ha, hs⟩ := hq.parked.shed e hm
      exact ⟨ha, (congrArg Slot.state (hpslot e.slot)).trans hs⟩
    sheds := fun hs => hp.sheds.of_only (hq.only fun f => by rw [hfan]; exact hs f)
    supply := fun b => (congrArg (fun x => Bank.read x b) (hq.supplies.trans hp.supplies)).trans (h.supply b)
    zone := fun z => (hq.fans.zone z).trans (congrArg restartZone (hzone z))
    fan := fun f => by
      have hto := hq.fans.fan f
      rw [hfan, hzone, hreservation] at hto
      exact hto
    channel := fun x => by
      have hx := (congrArg (fun b : Hub => b.channels.read x) hhub).trans (h.channel x)
      refine hx.trans (congrArg (fun g => (c.channel x).map g) (funext fun ch => ?_))
      exact congrArg (fun y : Slot => ch.stopped.restarted y.state) (hslot ch.slot).symm
    uplink := fun u => (congrArg (fun b : Hub => b.uplinks.read u) hhub).trans (h.uplink u)
    lane := fun k => (congrArg (fun b : Hub => b.lanes.read k) hhub).trans (h.lane k)
    modules := (hq.frame.modules.trans hp.same.modules).trans h.modules }

theorem warmRestarted (c : Chip) : c.WarmRestarted (queueService (warmRestart c)) := by
  have hwarm : warmRestart c = restartInterrogations (restartFans (restartPower (restartStages c))) := rfl
  have hstage := staged_restartStages c
  rw [hwarm]
  generalize restartStages c = d at hstage ⊢
  have hpower := hstage.powered
  generalize restartPower d = p at hpower ⊢
  have hcool := cooled_restartFans hpower.remapped hpower.restarting hpower.parked
  generalize restartFans p = q at hcool ⊢
  have hengine (k : Fin 16) : q.engine k = .reset :=
    (congrArg (fun b => Bank.read b k) (hcool.frame.engines.trans hpower.same.engines)).trans (hstage.engine k)
  obtain ⟨engines, heq, hengines⟩ := hcool.ends hengine
  rw [heq]
  exact hstage.warmRestarted hpower hcool hengines

end Sys2Proof.Machine

/-!
PROOF. The GET_RESPONSE that restarts the part (R184).
-/

namespace Sys2Proof.Machine

variable {c t : Chip} {s : State} {n : Nat} {m : List Byte}

theorem Chip.WarmRestarted.of_setPort {p : Port} (h : (setPort p c).WarmRestarted t) (hp : p.settings = c.settings) :
    c.WarmRestarted t where
  restarting := ⟨h.restarting.settings.trans hp, h.restarting.request, h.restarting.response, h.restarting.overrun,
    h.restarting.restartWaiting, h.restarting.inventory, h.restarting.head, h.restarting.alerted⟩
  slot := h.slot
  engine := h.engine
  grant := h.grant
  queue := h.queue
  shed := h.shed
  sheds := h.sheds
  supply := h.supply
  zone := h.zone
  fan := h.fan
  channel := h.channel
  uplink := h.uplink
  lane := h.lane
  modules := h.modules

/-- R181, R184: the whole response is read while a restart waits. -/
theorem getMessage_restarts (hr : c.port.response = some m) (hn : m.length ≤ n) (hw : c.port.restartWaiting = true) :
    ∃ p : Port, p.settings = c.settings ∧ getMessage n c = warmRestart (setPort p c) := by
  have hread : (returning ((m ++ List.replicate n 0).take n) c).port.response.isSome = true ∧ m.length ≤ n :=
    ⟨congrArg Option.isSome hr, hn⟩
  have hwait : (modPort (fun p => { p with response := none })
      (returning ((m ++ List.replicate n 0).take n) c)).port.restartWaiting = true := hw
  refine ⟨(modPort (fun p => { p with response := none }) (returning ((m ++ List.replicate n 0).take n) c)).port, rfl, ?_⟩
  unfold getMessage
  dsimp only
  rw [hr, Option.getD_some, if_pos hread, if_pos hwait]
  rfl

theorem exec_getResponse_restarts (hr : s.chip.port.response = some m) (hn : m.length ≤ n)
    (hw : s.chip.port.restartWaiting = true) :
    ∃ t, exec (.getResponse n) s = .next t ∧ s.chip.WarmRestarted t.chip := by
  obtain ⟨p, hp, heq⟩ := getMessage_restarts hr hn hw
  have hend := (warmRestarted (setPort p s.chip)).of_setPort hp
  rw [← heq] at hend
  exact ⟨s.onChip (queueService (getMessage n s.chip)), rfl, hend⟩

/-- Settles O37, block by block. -/
theorem warmRestartMapsSlots : Obligations.WarmRestartMapsSlots := by
  intro s n m hr hn hw
  obtain ⟨t, hexec, h⟩ := exec_getResponse_restarts hr hn hw
  generalize s.chip = c at h
  obtain ⟨u, hu⟩ : ∃ u, t.chip = u := ⟨_, rfl⟩
  refine ⟨t, hexec, ?_⟩
  rw [hu] at h ⊢
  clear hexec hu
  obtain ⟨hsettings, hrequest, hresponse, hoverrun, hwaiting, hinventory, hhead, halerted⟩ := h.restarting
  refine ⟨hsettings, hrequest, hresponse, hoverrun, hwaiting, hinventory, hhead, halerted, fun k => ?slot, h.engine, fun k => ?grant,
    h.queue, h.shed, h.sheds, h.supply, h.zone, h.fan, fun x => ?channel, h.uplink, h.lane, h.modules⟩
  case slot => exact h.slot k ▸ (c.slot k).restart_leaves
  case grant => exact h.grant k
  case channel =>
    have hx := h.channel x
    refine ⟨fun hn => ?_, fun ch hch => ?_⟩
    · rw [hx, hn, Option.map_none]
    · rw [hx, hch, Option.map_some]
      rfl

end Sys2Proof.Machine

/-!
PROOF. Interrogations that end (R9, R29, R37, R59 to R61): the page that completes the identity, the offer, and the slot's next
state.
-/

namespace Sys2Proof.Machine

variable {c c' d : Chip} {k : Fin 16} {s : State} {x : Exchange} {p : Page} {page : List Byte} {who : Identity} {r : InvRef}

/-! ## The page (R37, R38) -/

theorem slotPage_of_sum (hx : (c.engine k).inFlight = some x) (hs : byteSum page = 0) :
    slotPage k page c = arbitrate k (takePage k x (readPage page) c) := by
  rw [slotPage_of_inFlight page hx, if_pos (checkPasses_iff.2 hs)]

theorem interrogationPage_first {head : IdentityHead} (hd : (c.engine k).draft = some .fresh) (hi : p.identityFirst = some head)
    (ht : p.toggle = x.toggle) :
    interrogationPage k x p c = takeFirstIdentity k p head (answerPhase k (raiseDegraded k p.fault c)) := by
  unfold interrogationPage
  rw [hd, hi]
  dsimp only
  rw [if_neg (not_not.2 ht)]

theorem interrogationPage_second {vendor model : BitVec 16} {revision : Byte} {length : Nat} {first last : List Byte}
    (hd : (c.engine k).draft = some (.identity vendor model revision length first)) (hi : p.identitySecond length = some last)
    (ht : p.toggle = x.toggle) (hm : p.more = false) (hp : last.all printable = true) :
    interrogationPage k x p c = endInterrogation k vendor model revision (first ++ last)
      (answerPhase k (raiseDegraded k p.fault c)) := by
  unfold interrogationPage
  rw [hd]
  dsimp only
  rw [hi]
  dsimp only
  rw [if_neg (not_not.2 ht), hm, hp]
  exact if_neg Bool.false_ne_true

theorem takeFirstIdentity_whole {head : IdentityHead} (hm : p.more = false) (h1 : 1 ≤ head.serialLength)
    (h12 : head.serialLength ≤ 12) (hp : head.chars.all printable = true) :
    takeFirstIdentity k p head c = endInterrogation k head.vendor head.model head.revision head.chars c := by
  have ha : head.accepted p.more = true := by
    unfold IdentityHead.accepted
    rw [hm, hp, decide_eq_true (show 1 ≤ head.serialLength ∧ head.serialLength ≤ 24 by omega),
      decide_eq_false (show ¬ 12 < head.serialLength by omega)]
    rfl
  unfold takeFirstIdentity
  rw [ha, hm]
  rfl

theorem takeFirstIdentity_gathers {head : IdentityHead} (hm : p.more = true) (h13 : 13 ≤ head.serialLength)
    (h24 : head.serialLength ≤ 24) (hp : head.chars.all printable = true) :
    takeFirstIdentity k p head c =
      gather k (.identity head.vendor head.model head.revision head.serialLength head.chars) c := by
  have ha : head.accepted p.more = true := by
    unfold IdentityHead.accepted
    rw [hm, hp, decide_eq_true (show 1 ≤ head.serialLength ∧ head.serialLength ≤ 24 by omega),
      decide_eq_true (show 12 < head.serialLength by omega)]
    rfl
  unfold takeFirstIdentity
  rw [ha, hm]
  rfl

/-! ## The end of an interrogation -/

/-- The part as the slot controller finds it at the end of an interrogation. -/
structure Chip.Interrogated (c : Chip) (k : Fin 16) (d : Chip) : Prop where
  slots : d.slots = c.slots
  only : c.onlySlotRecord k d
  inFlight : (d.engine k).inFlight = none
  quiet : (d.engine k).quiet = (c.engine k).quiet

theorem engine_answerPhase (k : Fin 16) (c : Chip) : (answerPhase k c).engine k =
    { c.engine k with inFlight := none, responses := (c.engine k).responses + 1 } := by
  unfold answerPhase endExchange modEngine
  rw [engine_setEngine_self, engine_setEngine_self]
  dsimp only
  rw [Bool.or_false]

theorem interrogated_endPhase (k : Fin 16) (f : FaultCode) (c : Chip) :
    c.Interrogated k (endPhase k (answerPhase k (raiseDegraded k f c))) := by
  have hraise : (raiseDegraded k f c).engine k = c.engine k := ite_keeps (P := fun t => t.engine k = c.engine k) rfl rfl
  have hengine : (endPhase k (answerPhase k (raiseDegraded k f c))).engine k =
      { c.engine k with inFlight := none, responses := (c.engine k).responses + 1, phase := .idle, draft := none } := by
    rw [engine_endPhase, engine_answerPhase, hraise]
  have hkeeps := onlySlotRecord_keeps k c
  exact {
    slots := ite_keeps (P := fun t => t.slots = c.slots) rfl rfl
    only := hkeeps.endPhase (hkeeps.answerPhase (hkeeps.raiseDegraded f (Chip.onlySlotRecord_refl k c)))
    inFlight := by rw [hengine]
    quiet := by rw [hengine] }

namespace Chip.Interrogated

variable (h : c.Interrogated k d)
include h

theorem slot (j : Fin 16) : d.slot j = c.slot j := congrArg (fun b => Bank.read b j) h.slots
theorem invHandle : d.invHandle = c.invHandle := funext fun j => invHandle_of_inventory h.only.2 j

theorem findHandle (p : InvHandle → Bool) : d.findHandle p = c.findHandle p := by
  unfold Chip.findHandle
  rw [h.invHandle]

theorem invRef (i : Fin 48) : d.invRef i = { handle := i, generation := (c.invHandle i).generation } := by
  unfold Chip.invRef
  rw [h.invHandle]

end Chip.Interrogated

/-! ## The slot after the offer (R9) -/

/-- R9, R10: a slot that the inventory gave a record. -/
abbrev Chip.negotiates (c : Chip) (k : Fin 16) (r : InvRef) : Chip :=
  toNegotiating k (modSlot k (fun s => { s with handle := some r }) c)

theorem takeOffer_record {a : OfferAnswer} (ha : a = .bound r ∨ a = .revived r ∨ a = .created r) :
    takeOffer k a c = c.negotiates k r := by
  rcases ha with rfl | rfl | rfl <;> rfl

theorem phase_arbitrate (hp : (c.engine k).phase ≠ .idle) : ((arbitrate k c).engine k).phase = (c.engine k).phase := by
  unfold arbitrate
  dsimp only
  split
  · rfl
  · rw [send, modEngine, engine_setEngine_self]

/-- R10, R39: the slot and its engine when it has begun to negotiate and the event ends. -/
theorem negotiates_leaves (hs : (c.slot k).state ≠ .running) (r : InvRef) :
    (let t := queueService (arbitrate k (c.negotiates k r))
     (t.slot k).state = .negotiating ∧ (t.slot k).terms = none ∧ (t.slot k).handle = some r ∧
      (t.engine k).phase = .negotiation ∧
      ((c.engine k).inFlight = none → (c.engine k).quiet = false → (t.engine k).inFlight = sentPage .negotiate false) ∧
      c.onlySlotRecord k t) := by
  have hkeeps := onlySlotRecord_keeps k c
  have honly : c.onlySlotRecord k (queueService (arbitrate k (c.negotiates k r))) :=
    hkeeps.queueService (hkeeps.arbitrate (hkeeps.toNegotiating (hkeeps.slot _ _ (Chip.onlySlotRecord_refl k c))))
  have hslot : (c.negotiates k r).slot k = ({ c.slot k with handle := some r } : Slot).enter .negotiating := by
    rw [slot_toNegotiating, modSlot, slot_setSlot_self]
  have hstart := engine_startPhase_arbitrate (k := k) (phase := .negotiation) (by decide)
    (enterState k .negotiating id (modSlot k (fun s => { s with handle := some r }) c))
  have hentered : (enterState k .negotiating id (modSlot k (fun s => { s with handle := some r }) c)).engine k = c.engine k := by
    have hrun : ((modSlot k (fun s => { s with handle := some r }) c).slot k).state ≠ .running := by
      rw [modSlot, slot_setSlot_self]
      exact hs
    rw [engine_enterState, engine_entered_of_keeps _ (by decide), if_neg hrun]
    rfl
  rw [hentered] at hstart
  have hnow : ((c.negotiates k r).engine k).phase = .negotiation ∧ ((c.engine k).inFlight = none → (c.engine k).quiet = false →
      ((c.negotiates k r).engine k).inFlight = sentPage .negotiate false) := hstart
  obtain ⟨hphase, hflight⟩ := hnow
  have hend : ((arbitrate k (c.negotiates k r)).engine k).phase = .negotiation ∧
      ((c.engine k).inFlight = none → (c.engine k).quiet = false →
        ((arbitrate k (c.negotiates k r)).engine k).inFlight = sentPage .negotiate false) := by
    refine ⟨(phase_arbitrate (by rw [hphase]; decide)).trans hphase, fun hn hq => ?_⟩
    have hsent := hflight hn hq
    rw [arbitrate_of_inFlight (by rw [hsent]; rfl)]
    exact hsent
  have hend_slot : (arbitrate k (c.negotiates k r)).slot k = ({ c.slot k with handle := some r } : Slot).enter .negotiating :=
    (slot_arbitrate ..).trans hslot
  generalize arbitrate k (c.negotiates k r) = u at hend hend_slot honly ⊢
  have hsame := queueService_sameSlots u
  dsimp only
  rw [hsame.slot, hsame.engine, hend_slot]
  exact ⟨rfl, rfl, rfl, hend.1, hend.2, honly⟩

/-- R20: the slot when the offer has held it and the event ends. -/
theorem held_leaves (reason : HoldReason) (c : Chip) :
    (let t := queueService (arbitrate k (toHeld k reason c))
     (t.slot k).state = .held ∧ (t.slot k).holdReason = some reason ∧ (t.slot k).handle = (c.slot k).handle ∧
      t.alerted (.slot k) .held ∧ c.onlySlotRecord k t ∧
      ∀ o x, c.alerted o x → t.alerted o x) := by
  have hkeeps := onlySlotRecord_keeps k c
  have honly : c.onlySlotRecord k (queueService (arbitrate k (toHeld k reason c))) :=
    hkeeps.queueService (hkeeps.arbitrate (hkeeps.toHeld _ (Chip.onlySlotRecord_refl k c)))
  have halert (o : AlertObject) (x : Cause) (h : (toHeld k reason c).alerted o x) :
      (queueService (arbitrate k (toHeld k reason c))).alerted o x :=
    ((Chip.alerted_keeps o x).toEngineKeeps.arbitrate k h).queueService
  have hheld : (toHeld k reason c).alerted (.slot k) .held := alerted_raise _ _ _
  have hslot : (arbitrate k (toHeld k reason c)).slot k = { (c.slot k).enter .held with holdReason := some reason } :=
    (slot_arbitrate ..).trans (slot_toHeld ..)
  have hsame := (queueService_sameSlots (arbitrate k (toHeld k reason c))).slot k
  dsimp only
  rw [hsame, hslot]
  exact ⟨rfl, rfl, rfl, halert _ _ hheld, honly, fun o x h => halert o x ((Chip.alerted_keeps o x).toSlotKeeps.toHeld _ _ h)⟩

end Sys2Proof.Machine

/-!
PROOF. What an identity makes of its slot and of the inventory (R9, R29, R59 to R61).
-/

namespace Sys2Proof.Machine

variable {c d t : Chip} {k : Fin 16} {s : State} {x : Exchange} {page : List Byte} {who : Identity} {i : Fin 48} {ref : InvRef}
  {a : OfferAnswer} {r : InvRecord}

theorem Chip.onlySlot_trans (h : c.onlySlot k d) (h' : d.onlySlot k t) : c.onlySlot k t := by
  obtain ⟨hother, hsettings, hmodules, hrequest, hresponse⟩ := h
  obtain ⟨hother', hsettings', hmodules', hrequest', hresponse'⟩ := h'
  exact ⟨fun j hj => ⟨(hother' j hj).1.trans (hother j hj).1, (hother' j hj).2.trans (hother j hj).2⟩,
    hsettings'.trans hsettings, hmodules'.trans hmodules, hrequest'.trans hrequest, hresponse'.trans hresponse⟩

/-- The part at the end of the event in which an identity is taken. -/
abbrev Chip.afterIdentity (d : Chip) (k : Fin 16) (who : Identity) : Chip := queueService (arbitrate k (takeIdentity k who d))

theorem takeIdentity_offers (hs : (d.slot k).state = .interrogating) :
    takeIdentity k who d = takeOffer k (offer (.slot k) who d).2 (offer (.slot k) who d).1 := by
  unfold takeIdentity
  rw [hs]

theorem takeIdentity_adopts (hs : (d.slot k).state = .adopting) :
    takeIdentity k who d = if d.matchesBound k who then endAdoption k d else toDraining k .adoptMismatch d := by
  unfold takeIdentity
  rw [hs]

/-- An identity changes nothing but its slot, its engine and the inventory. -/
theorem onlySlot_offer (h : c.onlySlot k d) : c.onlySlot k (offer (.slot k) who d).1 := by
  unfold offer
  split
  · split
    · split
      · split
        · exact h
        · exact h
      · exact onlySlot_writeRecord _ _ (onlySlot_vacate _ h)
    · exact h
  · split
    · exact h
    · unfold createRecord
      split
      · exact onlySlot_writeRecord _ _ (onlySlot_vacate _ h)
      · exact onlySlot_vacate (.slot k) h

theorem onlySlot_takeIdentity (h : c.onlySlot k d) : c.onlySlot k (takeIdentity k who d) := by
  have hkeeps := onlySlot_keeps k c
  unfold takeIdentity
  split
  · have ho := onlySlot_offer (who := who) h
    dsimp only
    generalize offer (.slot k) who d = o at ho ⊢
    obtain ⟨u, a⟩ := o
    cases a
    case duplicate | full => exact hkeeps.toHeld _ ho
    all_goals exact hkeeps.toNegotiating (hkeeps.slot _ _ ho)
  · exact ite_keeps (hkeeps.endAdoption h) (hkeeps.toDraining _ h)
  · exact h

theorem onlySlot_afterIdentity (h : c.onlySlot k d) : c.onlySlot k (d.afterIdentity k who) :=
  (onlySlot_keeps k c).queueService ((onlySlot_keeps k c).arbitrate (onlySlot_takeIdentity h))

namespace Chip.Interrogated

variable (h : c.Interrogated k d)
include h

/-! ## Offers of a slot in INTERROGATING -/

section

variable (hs : (c.slot k).state = .interrogating)
include hs

theorem offers : takeIdentity k who d = takeOffer k (offer (.slot k) who d).2 (offer (.slot k) who d).1 :=
  takeIdentity_offers ((congrArg Slot.state (h.slot k)).trans hs)

/-- R9, R10: an offer that a record answers, written or not. -/
theorem negotiates (ho : offer (.slot k) who d = (t, a)) (ha : a = .bound ref ∨ a = .revived ref ∨ a = .created ref)
    (hslots : t.slots = d.slots) (hengines : t.engines = d.engines) :
    (let u := d.afterIdentity k who
     (u.slot k).state = .negotiating ∧ (u.slot k).terms = none ∧ (u.slot k).handle = some ref ∧
      (u.engine k).phase = .negotiation ∧
      ((c.engine k).quiet = false → (u.engine k).inFlight = sentPage .negotiate false) ∧
      u.inventory = t.inventory) := by
  have htaken : takeIdentity k who d = t.negotiates k ref := by
    rw [h.offers hs, ho]
    exact takeOffer_record ha
  have hengine : t.engine k = d.engine k := congrArg (fun b => Bank.read b k) hengines
  have hslot : t.slot k = c.slot k := (congrArg (fun b => Bank.read b k) hslots).trans (h.slot k)
  obtain ⟨hstate, hterms, hhandle, hphase, hflight, honly⟩ := negotiates_leaves (c := t) (k := k) (by rw [hslot, hs]; decide) ref
  unfold Chip.afterIdentity
  rw [htaken]
  rw [hengine, h.inFlight, h.quiet] at hflight
  exact ⟨hstate, hterms, hhandle, hphase, hflight rfl, honly.2⟩

/-- R20: an offer that holds the slot. -/
theorem holds {reason : HoldReason} (ho : takeOffer k (offer (.slot k) who d).2 (offer (.slot k) who d).1 = toHeld k reason t)
    (hslots : t.slots = d.slots) :
    (let u := d.afterIdentity k who
     (u.slot k).state = .held ∧ (u.slot k).holdReason = some reason ∧ (u.slot k).handle = (c.slot k).handle ∧
      u.alerted (.slot k) .held ∧ u.inventory = t.inventory ∧ ∀ o y, t.alerted o y → u.alerted o y) := by
  have hslot : t.slot k = c.slot k := (congrArg (fun b => Bank.read b k) hslots).trans (h.slot k)
  obtain ⟨hstate, hreason, hhandle, hheld, honly, halerts⟩ := held_leaves (k := k) reason t
  unfold Chip.afterIdentity
  rw [h.offers hs, ho]
  exact ⟨hstate, hreason, hhandle.trans (by rw [hslot]), hheld, honly.2, halerts⟩

/-- R59, R60: a record that the offer writes. -/
theorem writes (ho : offer (.slot k) who d = (writeRecord i r d, a))
    (ha : a = .revived (d.invRef i) ∨ a = .created (d.invRef i)) :
    (let u := d.afterIdentity k who
     (u.slot k).state = .negotiating ∧ (u.slot k).terms = none ∧
      (u.slot k).handle = some { handle := i, generation := (c.invHandle i).generation } ∧
      (u.engine k).phase = .negotiation ∧
      ((c.engine k).quiet = false → (u.engine k).inFlight = sentPage .negotiate false) ∧
      u.inventory.epoch = c.inventory.epoch + 1 ∧
      u.invHandle i = { generation := (c.invHandle i).generation,
                        record := some { r with changeEpoch := c.inventory.epoch + 1 } } ∧
      ∀ j, j ≠ i → u.invHandle j = c.invHandle j) := by
  obtain ⟨hstate, hterms, hhandle, hphase, hflight, hinventory⟩ := h.negotiates hs ho (.inr ha) rfl rfl
  obtain ⟨hepoch, hself, hothers⟩ := writeRecord_leaves i r d
  have hsame : d.inventory = c.inventory := h.only.2
  have hread (j : Fin 48) : (d.afterIdentity k who).invHandle j = (writeRecord i r d).invHandle j := by
    unfold Chip.invHandle
    rw [hinventory]
  refine ⟨hstate, hterms, ?_, hphase, hflight, ?_, ?_, fun j hj => ?_⟩
  · rw [hhandle, h.invRef]
  · rw [hinventory, hepoch, hsame]
  · rw [hread, hself, h.invHandle, hsame]
  · rw [hread, hothers j hj, h.invHandle]

end

/-! ## Slots in ADOPTING (R29, Table 15) -/

theorem matchesBound_iff (hh : (c.slot k).handle = some ref) (hr : (c.invHandle ref.handle).record = some r) :
    d.matchesBound k who = true ↔ r.identity.vendor = who.vendor ∧ r.identity.model = who.model ∧
      r.identity.serial = who.serial ∧ r.identity.revision = who.revision := by
  unfold Chip.matchesBound
  rw [h.slot, hh, h.invHandle]
  dsimp only
  unfold InvHandle.holds
  rw [hr]
  exact decide_eq_true_iff

section

variable (hs : (c.slot k).state = .adopting)
include hs

theorem adopts : (d.afterIdentity k who).inventory = c.inventory ∧
    (d.matchesBound k who = true → (c.slot k).adoptCause = none →
      ((d.afterIdentity k who).slot k).state = .running ∧
        ((d.afterIdentity k who).slot k).pollTimer = some c.settings.pollInterval) ∧
    ∀ cause, (d.matchesBound k who = true ∧ (c.slot k).adoptCause = some cause) ∨
        (d.matchesBound k who = false ∧ cause = .adoptMismatch) →
      ((d.afterIdentity k who).slot k).state = .draining ∧ ((d.afterIdentity k who).slot k).drainCause = some cause ∧
        ((d.afterIdentity k who).slot k).drainTimer = some (c.drainTime cause) := by
  have hslot : ((d.afterIdentity k who).slot k) = (takeIdentity k who d).slot k :=
    ((queueService_sameSlots _).slot k).trans (slot_arbitrate ..)
  have htaken := takeIdentity_adopts (who := who) ((congrArg Slot.state (h.slot k)).trans hs)
  have hsettings : d.settings = c.settings := h.only.1.2.1
  have hkeeps := onlySlotRecord_keeps k c
  have honly : c.onlySlotRecord k (takeIdentity k who d) := by
    rw [htaken]
    exact ite_keeps (hkeeps.endAdoption h.only) (hkeeps.toDraining _ h.only)
  rw [hslot, htaken]
  refine ⟨(hkeeps.queueService (hkeeps.arbitrate honly)).2, fun hm hc => ?_, fun cause hcase => ?_⟩
  · rw [if_pos hm, endAdoption_of_none (by rw [h.slot]; exact hc), slot_toRunning, hsettings]
    exact ⟨rfl, rfl⟩
  · have hdrains : (if d.matchesBound k who then endAdoption k d else toDraining k .adoptMismatch d) = toDraining k cause d := by
      rcases hcase with ⟨hm, hc⟩ | ⟨hm, rfl⟩
      · rw [if_pos hm, endAdoption_of_some (by rw [h.slot]; exact hc)]
      · rw [if_neg (by rw [hm]; decide)]
    rw [hdrains, slot_toDraining]
    refine ⟨rfl, rfl, congrArg some ?_⟩
    unfold Chip.drainTime
    rw [hsettings]

end

end Chip.Interrogated

end Sys2Proof.Machine

/-!
PROOF. The pages of an interrogation, by the state of the slot and of the inventory.
-/

namespace Sys2Proof.Machine

variable {c d t : Chip} {k : Fin 16} {s : State} {x : Exchange} {page : List Byte} {who : Identity} {i : Fin 48} {r : InvRecord}

/-- The identity of a blade, from its pages (R37). -/
abbrev bladeIdentity (vendor model : BitVec 16) (revision : Byte) (serial : List Byte) : Identity :=
  { vendor := vendor, model := model, revision := revision, serial := serial,
    capacity := none, fanDraw := none, fanSpeed := none, fanPulses := none }

/-- R37: a first page that holds the whole identity. -/
theorem exec_slotPage_whole {id : IdentityHead} (hx : (s.chip.engine k).inFlight = some x) (hr : x.request = .interrogate)
    (hd : (s.chip.engine k).draft = some .fresh) (hsum : byteSum page = 0) (hi : (readPage page).identityFirst = some id)
    (ht : (readPage page).toggle = x.toggle) (hm : (readPage page).more = false) (h1 : 1 ≤ id.serialLength)
    (h12 : id.serialLength ≤ 12) (hp : id.chars.all printable = true) :
    ∃ d, s.chip.Interrogated k d ∧ exec (.slotPageReceived k page) s =
      .next (s.onChip (d.afterIdentity k (bladeIdentity id.vendor id.model id.revision id.chars))) := by
  refine ⟨_, interrogated_endPhase k (readPage page).fault s.chip, ?_⟩
  have htake : takePage k x (readPage page) s.chip = interrogationPage k x (readPage page) s.chip := by
    unfold takePage
    rw [hr]
  rw [exec_slotPageReceived, slotPage_of_sum hx hsum, htake, interrogationPage_first hd hi ht, takeFirstIdentity_whole hm h1 h12 hp]
  rfl

/-- R37: a second page that completes the identity. -/
theorem exec_slotPage_second {vendor model : BitVec 16} {revision : Byte} {length : Nat} {first last : List Byte}
    (hx : (s.chip.engine k).inFlight = some x) (hr : x.request = .next) (hph : (s.chip.engine k).phase = .interrogation)
    (hd : (s.chip.engine k).draft = some (.identity vendor model revision length first)) (hsum : byteSum page = 0)
    (hi : (readPage page).identitySecond length = some last)
    (ht : (readPage page).toggle = x.toggle) (hm : (readPage page).more = false) (hp : last.all printable = true) :
    ∃ d, s.chip.Interrogated k d ∧ exec (.slotPageReceived k page) s =
      .next (s.onChip (d.afterIdentity k (bladeIdentity vendor model revision (first ++ last)))) := by
  refine ⟨_, interrogated_endPhase k (readPage page).fault s.chip, ?_⟩
  have htake : takePage k x (readPage page) s.chip = interrogationPage k x (readPage page) s.chip := by
    unfold takePage
    rw [hr]
    exact if_pos hph
  rw [exec_slotPageReceived, slotPage_of_sum hx hsum, htake, interrogationPage_second hd hi ht hm hp]
  rfl

theorem answerPhase_eq (k : Fin 16) (c : Chip) : answerPhase k c =
    setEngine k { c.engine k with inFlight := none, responses := (c.engine k).responses + 1 } c := by
  unfold answerPhase endExchange modEngine
  rw [engine_setEngine_self, setEngine_setEngine]
  dsimp only
  rw [Bool.or_false]

/-- R35: a phase with a free link sends its next page. -/
theorem arbitrate_phase {e : Engine} (hx : e.inFlight = none) (hq : e.quiet = false) (hp : e.phase ≠ .idle) :
    arbitrate k (setEngine k e c) = setEngine k { e with inFlight := sentPage (phasePage e) e.toggle } c := by
  unfold arbitrate
  dsimp only
  rw [engine_setEngine_self, if_neg (by simp [hx, hq]), if_pos hp, send_setEngine]

/-- R37, R40: the part after a page that another is to follow. -/
theorem arbitrate_gather (dr : Draft) (hq : (c.engine k).quiet = false) (hp : (c.engine k).phase ≠ .idle) :
    arbitrate k (gather k dr (answerPhase k c)) = setEngine k { c.engine k with
      inFlight := sentPage .next (!(c.engine k).toggle), responses := (c.engine k).responses + 1,
      toggle := !(c.engine k).toggle, draft := some dr } c := by
  have hgather : gather k dr (answerPhase k c) = setEngine k { c.engine k with
      inFlight := none, responses := (c.engine k).responses + 1, toggle := !(c.engine k).toggle, draft := some dr } c := by
    unfold gather modEngine
    rw [answerPhase_eq, engine_setEngine_self, setEngine_setEngine]
  rw [hgather]
  exact arbitrate_phase (c := c) (e := { c.engine k with
    inFlight := none, responses := (c.engine k).responses + 1, toggle := !(c.engine k).toggle, draft := some dr }) rfl hq hp

/-- R37: a first page of a longer serial, which NEXT completes. -/
theorem exec_slotPage_gathers {id : IdentityHead} (hq : s.chip.quiescent) (hx : (s.chip.engine k).inFlight = some x)
    (hr : x.request = .interrogate) (hd : (s.chip.engine k).draft = some .fresh)
    (hph : (s.chip.engine k).phase = .interrogation) (hquiet : (s.chip.engine k).quiet = false) (hsum : byteSum page = 0)
    (hi : (readPage page).identityFirst = some id) (ht : (readPage page).toggle = x.toggle) (hm : (readPage page).more = true)
    (hf : (readPage page).fault ≠ .degraded) (h13 : 13 ≤ id.serialLength) (h24 : id.serialLength ≤ 24)
    (hp : id.chars.all printable = true) :
    exec (.slotPageReceived k page) s = .next (s.onChip (setEngine k { s.chip.engine k with
      inFlight := sentPage .next (!(s.chip.engine k).toggle), responses := (s.chip.engine k).responses + 1,
      toggle := !(s.chip.engine k).toggle,
      draft := some (.identity id.vendor id.model id.revision id.serialLength id.chars) } s.chip)) := by
  have htake : takePage k x (readPage page) s.chip = interrogationPage k x (readPage page) s.chip := by
    unfold takePage
    rw [hr]
  have hdegraded : raiseDegraded k (readPage page).fault s.chip = s.chip := if_neg hf
  refine taken_settled (event := slotPage k page) ?_ hq
  rw [slotPage_of_sum hx hsum, htake, interrogationPage_first hd hi ht, takeFirstIdentity_gathers hm h13 h24 hp, hdegraded]
  exact arbitrate_gather _ hquiet (by rw [hph]; decide)

/-! ## The cases of the offer -/

namespace Chip.Interrogated

variable (h : c.Interrogated k d)
include h

theorem bySerial : d.bySerial .blade who.serial = c.bySerial .blade who.serial := h.findHandle _
theorem freeHandle : d.freeHandle = c.freeHandle := h.findHandle _
theorem boundAt (l : Location) : d.boundAt l = c.boundAt l := h.findHandle _

theorem record : (d.invHandle i).record = (c.invHandle i).record := by rw [h.invHandle]

/-- R59: a unit that the inventory does not know. -/
theorem offer_creates (hb : c.bySerial .blade who.serial = none) (hf : c.freeHandle = some i) (hu : c.boundAt (.slot k) = none) :
    offer (.slot k) who d = (writeRecord i (.create (.slot k) who) d, .created (d.invRef i)) :=
  Machine.offer_creates (h.bySerial.trans hb) (h.freeHandle.trans hf) ((h.boundAt _).trans hu)

/-- R60: a unit that departed. -/
theorem offer_revives (hb : c.bySerial .blade who.serial = some i) (hr : (c.invHandle i).record = some r)
    (hp : r.present = false) (hu : c.boundAt (.slot k) = none) :
    offer (.slot k) who d = (writeRecord i (r.revive (.slot k) who) d, .revived (d.invRef i)) :=
  Machine.offer_revives (h.bySerial.trans hb) (h.record.trans hr) hp ((h.boundAt _).trans hu)

/-- R59: a unit bound at the slot. -/
theorem offer_bound (hb : c.bySerial .blade who.serial = some i) (hr : (c.invHandle i).record = some r) (hp : r.present = true)
    (hl : r.location = .slot k) : offer (.slot k) who d = (d, .bound (d.invRef i)) :=
  Machine.offer_bound (h.bySerial.trans hb) (h.record.trans hr) hp hl

/-- R61: a unit bound elsewhere. -/
theorem takeOffer_duplicate (hb : c.bySerial .blade who.serial = some i) (hr : (c.invHandle i).record = some r)
    (hp : r.present = true) (hl : r.location ≠ .slot k) :
    takeOffer k (offer (.slot k) who d).2 (offer (.slot k) who d).1 = toHeld k .duplicateIdentity d := by
  rw [offer_duplicate (h.bySerial.trans hb) (h.record.trans hr) hp hl]
  rfl

/-- R59: no handle is free. -/
theorem takeOffer_full (hb : c.bySerial .blade who.serial = none) (hf : c.freeHandle = none) :
    takeOffer k (offer (.slot k) who d).2 (offer (.slot k) who d).1 =
      toHeld k .inventoryFull (raise .chassis .inventoryFull d) := by
  rw [offer_full (h.bySerial.trans hb) (h.freeHandle.trans hf)]
  rfl

end Chip.Interrogated

/-- Settles O20, page by page. -/
theorem identityCreatesRecordAndNegotiates : Obligations.IdentityCreatesRecordAndNegotiates := by
  refine ⟨fun s k x page id h hst hx hr hd hquiet hsum hi ht hm h1 h12 hp hb hf hu => ?creates,
    fun s k x page id hx hr hd hsum hi ht hm h1 h12 hp => ?offers,
    fun s k x page id hq hx hr hd hph hquiet hsum hi ht hm hf h13 h24 hp =>
      exec_slotPage_gathers hq hx hr hd hph hquiet hsum hi ht hm hf h13 h24 hp,
    fun s k x page vendor model revision length first last h hst hx hr hph hd hsum hk hl hn ht hm hp hb hf hu => ?second⟩
  case creates =>
    obtain ⟨d, hint, hexec⟩ := exec_slotPage_whole hx hr hd hsum hi ht hm h1 h12 hp
    obtain ⟨hstate, hterms, hhandle, hphase, hflight, hepoch, hrecord, hothers⟩ := hint.writes hst
      (hint.offer_creates (who := bladeIdentity id.vendor id.model id.revision id.chars) hb hf hu) (.inr rfl)
    exact ⟨_, hexec, hstate, hterms, hhandle, hepoch, hrecord, hothers, hphase, hflight hquiet, onlySlot_afterIdentity hint.only.1⟩
  case second =>
    obtain ⟨d, hint, hexec⟩ := exec_slotPage_second hx hr hph hd hsum (if_pos ⟨hk, by rw [hl]; exact hn⟩) ht hm
      (by rw [hl]; exact hp)
    rw [hl] at hexec
    obtain ⟨hstate, -, hhandle, -, -, -, hrecord, hothers⟩ := hint.writes hst
      (hint.offer_creates (who := bladeIdentity vendor model revision (first ++ last)) hb hf hu) (.inr rfl)
    exact ⟨_, hexec, hstate, hhandle, hrecord, hothers, onlySlot_afterIdentity hint.only.1⟩
  case offers =>
    obtain ⟨d, hint, hexec⟩ := exec_slotPage_whole hx hr hd hsum hi ht hm h1 h12 hp
    have hinventory : d.inventory = s.chip.inventory := hint.only.2
    refine ⟨_, hexec, onlySlot_afterIdentity hint.only.1, fun hst => ⟨fun h r hb hrec => ⟨fun hpres hloc => ?_, fun hpres hloc => ?_,
      fun hpres hu => ?_⟩, fun hb hf => ?_⟩, fun hst => ⟨(hint.adopts hst).1, fun ref r hh hrec => ?_⟩⟩
    · obtain ⟨hstate, -, hhandle, hphase, -, hinv⟩ := hint.negotiates hst
        (hint.offer_bound (who := bladeIdentity id.vendor id.model id.revision id.chars) hb hrec hpres hloc) (.inl rfl) rfl rfl
      exact ⟨⟨hstate, hhandle.trans (congrArg some (hint.invRef h)), hphase⟩, hinv.trans hinventory⟩
    · obtain ⟨hstate, hreason, hhandle, hheld, hinv, -⟩ := hint.holds hst
        (hint.takeOffer_duplicate (who := bladeIdentity id.vendor id.model id.revision id.chars) hb hrec hpres hloc) rfl
      exact ⟨hstate, hreason, hhandle, hheld, hinv.trans hinventory⟩
    · obtain ⟨hstate, -, hhandle, hphase, -, hepoch, hrecord, hothers⟩ := hint.writes hst
        (hint.offer_revives (who := bladeIdentity id.vendor id.model id.revision id.chars) hb hrec hpres hu) (.inl rfl)
      rw [revive_identity (bySerial_serial hb hrec)] at hrecord
      exact ⟨⟨hstate, hhandle, hphase⟩, hepoch, hrecord, hothers⟩
    · obtain ⟨hstate, hreason, hhandle, hheld, hinv, halerts⟩ := hint.holds hst
        (hint.takeOffer_full (who := bladeIdentity id.vendor id.model id.revision id.chars) hb hf) rfl
      exact ⟨⟨hstate, hreason, hhandle, hheld, hinv.trans hinventory⟩, halerts _ _ (alerted_raise _ _ _)⟩
    · have hmatch := hint.matchesBound_iff (who := bladeIdentity id.vendor id.model id.revision id.chars) hh hrec
      obtain ⟨-, hruns, hdrains⟩ := hint.adopts hst (who := bladeIdentity id.vendor id.model id.revision id.chars)
      refine ⟨fun hsame hnone => ?_, fun cause hsame hcause => ?_, fun hother => ?_⟩
      · exact hruns (hmatch.2 ⟨hsame.1, hsame.2.1, hsame.2.2.2, hsame.2.2.1⟩) hnone
      · exact hdrains cause (.inl ⟨hmatch.2 ⟨hsame.1, hsame.2.1, hsame.2.2.2, hsame.2.2.1⟩, hcause⟩)
      · refine hdrains .adoptMismatch (.inr ⟨Bool.eq_false_iff.2 fun hm => hother ?_, rfl⟩)
        obtain ⟨hvendor, hmodel, hserial, hrevision⟩ := hmatch.1 hm
        exact ⟨hvendor, hmodel, hrevision, hserial⟩

end Sys2Proof.Machine

/-!
PROOF. The pages of a negotiation (R39 to R42): the terms a page carries, and what they resolve to.
-/

namespace Sys2Proof.Machine

variable {c d t : Chip} {k : Fin 16} {s : State} {x : Exchange} {p : Page} {page : List Byte}
  {run floor priority count size : Nat} {requests : List Nat}

/-! ## The terms of a page (R39, R40) -/

theorem baseInRange_of (h5 : 5 ≤ run) (h2000 : run ≤ 2000) (hrun : run % 5 = 0)
    (hfloor : floor = 0 ∨ (5 ≤ floor ∧ floor ≤ 2000 ∧ floor % 5 = 0)) (hp : priority ≤ 7) (hc : count ≤ 2) :
    baseInRange run floor priority count = true := by
  unfold baseInRange drawInRange
  rw [decide_eq_true (show 5 ≤ run ∧ run ≤ 2000 ∧ run % 5 = 0 from ⟨h5, h2000, hrun⟩),
    decide_eq_true (show priority ≤ 7 ∧ count ≤ 2 from ⟨hp, hc⟩)]
  rcases hfloor with h0 | hin
  · rw [decide_eq_true h0]
    rfl
  · rw [decide_eq_true hin, Bool.or_true]
    rfl

theorem termsOf_base (hb : p.base = some (run, floor, priority, count)) (hr : baseInRange run floor priority count = true) :
    termsOf (some .fresh) p = some (true, run, floor, priority, count, []) := by
  unfold termsOf
  dsimp only
  rw [hb, Option.map_some, hr]

theorem termsOf_channelReq (hr : p.channelReq = some size) (h1 : 1 ≤ size) (h256 : size ≤ 256) :
    termsOf (some (.terms run floor priority count requests)) p =
      some (true, run, floor, priority, count, requests ++ [size]) := by
  unfold termsOf
  dsimp only
  rw [hr, Option.map_some, decide_eq_true (show 1 ≤ size ∧ size ≤ 256 from ⟨h1, h256⟩)]

/-- R41: a page of a negotiation that is in order. -/
theorem negotiationPage_continues
    (hterms : termsOf (c.engine k).draft p = some (true, run, floor, priority, count, requests)) (ht : p.toggle = x.toggle)
    (hf : p.fault = .none) :
    negotiationPage k x p c = continueTerms k p.more run floor priority count requests (answerPhase k c) := by
  have hfault : raiseDegraded k p.fault c = c := if_neg (by rw [hf]; decide)
  unfold negotiationPage
  dsimp only
  rw [hfault, hterms]
  dsimp only
  rw [if_neg (not_not.2 ht), hf]
  exact if_neg (by decide)

/-- R42: the page that completes the draft resolves it. -/
theorem continueTerms_resolves (hc : requests.length = count) :
    continueTerms k false run floor priority count requests c = resolve k run floor priority requests c := by
  unfold continueTerms
  rw [if_neg (by omega), if_neg Bool.false_ne_true, if_pos hc]

/-- R40: a page with more to come keeps the draft. -/
theorem continueTerms_gathers (hc : requests.length ≤ count) (hr : (c.engine k).responses < 8) :
    continueTerms k true run floor priority count requests c = gather k (.terms run floor priority count requests) c := by
  unfold continueTerms
  rw [if_neg (by omega), if_pos rfl, if_neg (by omega)]

theorem takePage_negotiate (hr : x.request = .negotiate) : takePage k x p c = negotiationPage k x p c := by
  unfold takePage
  rw [hr]

theorem takePage_next (hr : x.request = .next) (hp : (c.engine k).phase ≠ .interrogation) :
    takePage k x p c = negotiationPage k x p c := by
  unfold takePage
  rw [hr]
  exact if_neg hp

/-- R41, R42: the event of a page that completes the draft. -/
theorem exec_slotPage_resolves (hx : (s.chip.engine k).inFlight = some x)
    (hr : x.request = .negotiate ∨ (x.request = .next ∧ (s.chip.engine k).phase ≠ .interrogation)) (hsum : byteSum page = 0)
    (hterms : termsOf (s.chip.engine k).draft (readPage page) = some (true, run, floor, priority, count, requests))
    (ht : (readPage page).toggle = x.toggle) (hm : (readPage page).more = false) (hf : (readPage page).fault = .none)
    (hc : requests.length = count) : exec (.slotPageReceived k page) s = .next (s.onChip (queueService (arbitrate k
      (resolve k run floor priority requests (answerPhase k s.chip))))) := by
  have htake : takePage k x (readPage page) s.chip = negotiationPage k x (readPage page) s.chip := by
    rcases hr with hr | ⟨hr, hp⟩
    · exact takePage_negotiate hr
    · exact takePage_next hr hp
  rw [exec_slotPageReceived, slotPage_of_sum hx hsum, htake, negotiationPage_continues hterms ht hf, hm, continueTerms_resolves hc]

/-! ## Resolution (R42, R44, R54) -/

theorem resolutionFailure_floor (h : run < floor) : c.resolutionFailure run floor = some .negError := if_pos h

theorem resolutionFailure_ceiling (h : floor ≤ run) (hc : c.settings.slotCeiling < run) :
    c.resolutionFailure run floor = some .budgetMismatch := by
  unfold Chip.resolutionFailure
  rw [if_neg (Nat.not_lt.2 h), if_pos hc]

theorem resolutionFailure_none (h : floor ≤ run) (hc : run ≤ c.settings.slotCeiling) : c.resolutionFailure run floor = none := by
  unfold Chip.resolutionFailure
  rw [if_neg (Nat.not_lt.2 h), if_neg (Nat.not_lt.2 hc)]

theorem resolve_fails {reason : HoldReason} (h : c.resolutionFailure run floor = some reason) :
    resolve k run floor priority requests c = failNegotiation k reason c := by
  unfold resolve
  rw [h]

theorem resolve_succeeds (h : c.resolutionFailure run floor = none) :
    resolve k run floor priority requests c = resolved k run floor priority requests c := by
  unfold resolve
  rw [h]

/-- R43: the terms a resolution writes. -/
abbrev Chip.matchedTerms (c : Chip) (k : Fin 16) (run floor priority : Nat) (requests : List Nat) : Terms :=
  { runDraw := run, floorDraw := floor, priority := priority, requests := requests,
    short := decide ((c.matchRequests k requests []).length < requests.length) }

/-- R43, R44: the part with the terms written and the match handed on. -/
def Chip.termed (c : Chip) (k : Fin 16) (run floor priority : Nat) (requests : List Nat) : Chip :=
  let d := post (.matchHandoff k (c.matchRequests k requests []))
    (modSlot k (fun s => { s with terms := some (c.matchedTerms k run floor priority requests) }) (endPhase k c))
  if (c.matchedTerms k run floor priority requests).short then raise (.slot k) .channelShort d else d

theorem resolved_negotiation (hp : (c.engine k).phase = .negotiation) (hs : (c.slot k).state = .negotiating) :
    resolved k run floor priority requests c = admitTerms k (c.termed k run floor priority requests) := by
  have hs' : ((endPhase k c).slot k).state = .negotiating := hs
  unfold resolved
  dsimp only
  rw [hp, hs']
  rfl

theorem resolved_renegotiation (hp : (c.engine k).phase = .renegotiation) (hs : (c.slot k).state = .running) :
    resolved k run floor priority requests c = settleTerms k (c.termed k run floor priority requests) := by
  have hs' : ((endPhase k c).slot k).state = .running := hs
  unfold resolved
  dsimp only
  rw [hp, hs']
  rfl

/-- What the write of the terms leaves. -/
structure Chip.Termed (c : Chip) (k : Fin 16) (run floor priority : Nat) (requests : List Nat) (d : Chip) : Prop where
  slot : d.slot k = { c.slot k with terms := some (c.matchedTerms k run floor priority requests) }
  engine : d.engine k = { c.engine k with phase := .idle, draft := none }
  power : d.power = c.power
  only : c.onlySlotRecord k d
  handoff : Instr.matchHandoff k (c.matchRequests k requests []) ∈ d.messages
  short : (c.matchedTerms k run floor priority requests).short = true → d.alerted (.slot k) .channelShort

theorem termed_termed (c : Chip) (k : Fin 16) (run floor priority : Nat) (requests : List Nat) :
    c.Termed k run floor priority requests (c.termed k run floor priority requests) := by
  have hkeeps := onlySlotRecord_keeps k c
  have honly : c.onlySlotRecord k (c.termed k run floor priority requests) :=
    ite_keeps (P := c.onlySlotRecord k) (hkeeps.raise _ _ _ (hkeeps.post _ (hkeeps.slot _ _
      (hkeeps.endPhase (Chip.onlySlotRecord_refl k c)))))
      (hkeeps.post _ (hkeeps.slot _ _ (hkeeps.endPhase (Chip.onlySlotRecord_refl k c))))
  refine ⟨?_, ?_, ?_, honly, ?_, fun h => ?_⟩
  all_goals unfold Chip.termed; dsimp only
  · exact ite_keeps (P := fun t => t.slot k = _) (slot_setSlot_self ..) (slot_setSlot_self ..)
  · exact ite_keeps (P := fun t => t.engine k = _) (engine_endPhase c) (engine_endPhase c)
  · exact ite_keeps (P := fun t => t.power = c.power) rfl rfl
  · exact ite_keeps (P := fun t => _ ∈ t.messages) (mem_messages_post ..) (mem_messages_post ..)
  · rw [if_pos h]
    exact alerted_raise _ _ _

end Sys2Proof.Machine

/-!
PROOF. Negotiations that end (R10, R20, R42 to R44): the slot that goes on by the admission mode, or is held, and the candidate
that a channel request is matched to.
-/

namespace Sys2Proof.Machine

variable {c d t : Chip} {k : Fin 16} {s : State} {m : Instr} {run floor priority n : Nat} {requests : List Nat} {h : Fin 32}
  {taken : List (Fin 32)}

/-! ## The slot goes on (R10) -/

theorem mem_messages_settling (m : Instr) : SettlingKeeps fun c => m ∈ c.messages where
  capForShed _ _ h := capForShed_keeps (P := fun c => m ∈ c.messages) (fun _ _ h => h) (fun _ _ h => h)
    (fun _ _ h => List.mem_append_left _ h) fun _ => h
  setShed _ _ h := h
  setServiceDue _ _ h := h
  raise _ _ _ h := h
  post _ _ h := List.mem_append_left _ h

theorem entered_waits {new : SlotState} (hn : new = .awaitingGrant ∨ new = .awaitingAdmit) (hs : (c.slot k).state = .negotiating) :
    c.entered k new id = setSlot k ((c.slot k).enter new) c := by
  unfold Chip.entered engineOnSlot
  rw [hs, if_neg (by rcases hn with rfl | rfl <;> decide), if_neg (by decide)]
  rfl

theorem grantOnSlot_waits (new : SlotState) (c : Chip) : grantOnSlot k .negotiating new c = c :=
  if_neg (by cases new <;> decide)

theorem fanOnSlot_waits {new : SlotState} (hn : new = .awaitingGrant ∨ new = .awaitingAdmit) (c : Chip) :
    fanOnSlot k .negotiating new c = c := by
  unfold fanOnSlot
  rcases hn with rfl | rfl
  · exact (if_neg (by decide)).trans (if_neg (by decide))
  · exact (if_neg (by decide)).trans (if_neg (by decide))

theorem hubOnSlot_waits {new : SlotState} (hn : new = .awaitingGrant ∨ new = .awaitingAdmit) (c : Chip) :
    hubOnSlot k .negotiating new c = c := by
  unfold hubOnSlot
  rcases hn with rfl | rfl
  · exact if_neg (by decide)
  · exact if_neg (by decide)

/-- R27: a slot that comes to wait is reported to the power unit alone. -/
theorem enterState_waits {new : SlotState} (hn : new = .awaitingGrant ∨ new = .awaitingAdmit)
    (hs : (c.slot k).state = .negotiating) :
    enterState k new id c = powerOnSlot k new (setSlot k ((c.slot k).enter new) c) := by
  rw [enterState_eq, entered_waits hn hs, hs, grantOnSlot_waits, reportSlot, fanOnSlot_waits hn, hubOnSlot_waits hn]

theorem mem_messages_waits {new : SlotState} (hn : new = .awaitingGrant ∨ new = .awaitingAdmit)
    (hs : (c.slot k).state = .negotiating) (hm : m ∈ c.messages) : m ∈ (enterState k new id c).messages := by
  rw [enterState_waits hn hs]
  unfold powerOnSlot
  refine (mem_messages_settling m).powerEvent true ?_
  refine alignUplift_keeps (P := fun c => m ∈ c.messages) (fun _ _ h => h) (fun _ _ h => h) k ?_
  rcases hn with rfl | rfl
  · exact hm
  · exact hm

/-- R35: a link in no phase, with no renegotiation asked for, starts none. -/
theorem phase_arbitrate_idle (hp : (c.engine k).phase = .idle) (hr : (c.engine k).renegRequest = false) :
    ((arbitrate k c).engine k).phase = .idle := by
  have hsend (r : PageRequest) (b : Bool) (t : Chip) : ((send k r b t).engine k).phase = (t.engine k).phase := by
    rw [send, modEngine, engine_setEngine_self]
  have hset (e : Engine) (t : Chip) (he : e.phase = .idle) : ((setEngine k e t).engine k).phase = .idle := by
    rw [engine_setEngine_self]
    exact he
  have hpending (t : Chip) (ht : (t.engine k).phase = .idle) (hn : (t.engine k).renegRequest = false) :
      ((sendRenegotiationOrPending k t).engine k).phase = .idle := by
    rw [sendRenegotiationOrPending_pending hn]
    unfold sendPending
    dsimp only
    split
    · exact (hsend ..).trans (hset _ _ ht)
    · split
      · exact (hsend ..).trans (hset _ _ ht)
      · exact (hsend ..).trans (hset _ _ ht)
      · exact (hsend ..).trans (hset _ _ ht)
      · split
        · exact (hsend ..).trans (hset _ _ ht)
        · exact ht
  unfold arbitrate
  dsimp only
  split
  · exact hp
  · rw [if_neg (not_not.2 hp)]
    split
    · split
      · exact (hsend ..).trans (hset _ _ hp)
      · refine hpending _ (hset _ _ hp) ?_
        show ((setEngine k _ c).engine k).renegRequest = false
        rw [engine_setEngine_self]
        exact hr
    · exact hpending c hp hr

/-- R10: the state a slot goes on to. -/
abbrev Chip.admissionState (c : Chip) : SlotState := if c.settings.autoAdmission then .awaitingGrant else .awaitingAdmit

theorem admissionState_cases (c : Chip) : c.admissionState = .awaitingGrant ∨ c.admissionState = .awaitingAdmit := by
  unfold Chip.admissionState
  split
  · exact .inl rfl
  · exact .inr rfl

/-- R10, R43, R44: the slot at the end of the event in which its negotiation succeeded. -/
theorem admitted_leaves (h : c.Termed k run floor priority requests d) (hs : (c.slot k).state = .negotiating) :
    (let u := queueService (arbitrate k (admitTerms k d))
     (u.slot k).state = c.admissionState ∧ (u.slot k).terms = some (c.matchedTerms k run floor priority requests) ∧
      Instr.matchHandoff k (c.matchRequests k requests []) ∈ u.messages ∧
      ((c.matchedTerms k run floor priority requests).short = true → u.alerted (.slot k) .channelShort) ∧
      ((c.engine k).renegRequest = false → (u.engine k).phase = .idle) ∧ c.onlySlotRecord k u) := by
  have hadmit : admitTerms k d = enterState k c.admissionState id d := by
    unfold admitTerms Chip.admissionState
    rw [h.only.1.2.1]
  have hds : (d.slot k).state = .negotiating := by rw [h.slot]; exact hs
  have hn := admissionState_cases c
  have hkeeps := onlySlotRecord_keeps k c
  have halerted := Chip.alerted_keeps (.slot k) .channelShort
  have hslot : (arbitrate k (admitTerms k d)).slot k = (d.slot k).enter c.admissionState := by
    rw [slot_arbitrate, hadmit, slot_enterState]
    rfl
  have hengine : (admitTerms k d).engine k = { c.engine k with phase := .idle, draft := none } := by
    rw [hadmit, engine_enterState, engine_entered_of_keeps _ (by rcases hn with hn | hn <;> rw [hn] <;> rfl),
      if_neg (by rw [hds]; decide), h.engine]
  have hsame := queueService_sameSlots (arbitrate k (admitTerms k d))
  dsimp only
  refine ⟨?_, ?_, ?_, fun hshort => ?_, fun hr => ?_, ?_⟩
  · rw [hsame.slot, hslot]
    rfl
  · rw [hsame.slot, hslot, h.slot]
    rcases hn with hn | hn <;> rw [hn] <;> rfl
  · refine mem_messages_queueService (mem_messages_arbitrate k ?_)
    rw [hadmit]
    exact mem_messages_waits hn hds h.handoff
  · exact (halerted.toEngineKeeps.arbitrate k (halerted.toSlotKeeps.admitTerms k (h.short hshort))).queueService
  · rw [hsame.engine]
    exact phase_arbitrate_idle (by rw [hengine]) (by rw [hengine]; exact hr)
  · exact hkeeps.queueService (hkeeps.arbitrate (by rw [hadmit]; exact hkeeps.enterState _ _ h.only))

end Sys2Proof.Machine

/-!
PROOF. The match of channel requests (R43): the one candidate with the lowest window base is taken, a request without one is
short.
-/

namespace Sys2Proof.Machine

variable {c d : Chip} {k : Fin 16} {n m : Nat} {h h' : Fin 32} {taken : List (Fin 32)} {best : Option (Fin 32)}

/-! ## The candidate of a request -/

/-- R43: a channel a request can be matched to. -/
def Chip.Fits (c : Chip) (k : Fin 16) (taken : List (Fin 32)) (n : Nat) (h : Fin 32) : Prop :=
  ∃ ch, c.channel h = some ch ∧ ch.slot = k ∧ n ≤ ch.windowSize ∧ h ∉ taken

/-- R43: the channel a request is matched to. -/
def Chip.FitsBest (c : Chip) (k : Fin 16) (taken : List (Fin 32)) (n : Nat) (h : Fin 32) : Prop :=
  c.Fits k taken n h ∧ ∀ h' ch ch', h' ≠ h → c.Fits k taken n h' → c.channel h = some ch → c.channel h' = some ch' →
    ch.base < ch'.base

/-- One step of the scan that `Chip.bestCandidate` is. -/
def Chip.consider (c : Chip) (k : Fin 16) (taken : List (Fin 32)) (n : Nat) (best : Option (Fin 32)) (h : Fin 32) :
    Option (Fin 32) :=
  match c.channel h with
  | none => best
  | some ch =>
    if ch.slot = k ∧ n ≤ ch.windowSize ∧ h ∉ taken then
      match best.bind c.channel with
      | some b => if ch.base < b.base then some h else best
      | none => some h
    else best

theorem bestCandidate_eq_foldl (c : Chip) (k : Fin 16) (taken : List (Fin 32)) (n : Nat) :
    c.bestCandidate k taken n = (keys 32).foldl (c.consider k taken n) none := rfl

theorem consider_of_not_fits (hn : ¬ c.Fits k taken n h) : c.consider k taken n best h = best := by
  unfold Chip.consider
  split
  · rfl
  · next ch hch => exact if_neg fun hfit => hn ⟨ch, hch, hfit⟩

theorem consider_cases (best : Option (Fin 32)) (h : Fin 32) :
    c.consider k taken n best h = best ∨ c.consider k taken n best h = some h := by
  unfold Chip.consider
  split
  · exact .inl rfl
  · split
    · split
      · split
        · exact .inr rfl
        · exact .inl rfl
      · exact .inr rfl
    · exact .inl rfl

theorem consider_none (hf : c.Fits k taken n h) : c.consider k taken n none h = some h := by
  obtain ⟨ch, hch, hfit⟩ := hf
  unfold Chip.consider
  rw [hch]
  exact if_pos hfit

theorem consider_some {ch ch' : Channel} (hf : c.Fits k taken n h) (hch : c.channel h = some ch)
    (hch' : c.channel h' = some ch') :
    c.consider k taken n (some h') h = if ch.base < ch'.base then some h else some h' := by
  obtain ⟨ch₁, hch₁, hfit⟩ := hf
  obtain rfl : ch₁ = ch := Option.some.inj (hch₁.symm.trans hch)
  unfold Chip.consider
  rw [hch, Option.bind_some, hch']
  exact if_pos hfit

/-- The best channel replaces whatever the scan has kept. -/
theorem consider_best (hb : c.FitsBest k taken n h) (hbest : ∀ h', best = some h' → c.Fits k taken n h') :
    c.consider k taken n best h = some h := by
  obtain ⟨hfit, hlow⟩ := hb
  cases best with
  | none => exact consider_none hfit
  | some h' =>
    have hfit' := hbest h' rfl
    obtain ⟨ch, hch, -⟩ := id hfit
    obtain ⟨ch', hch', -⟩ := id hfit'
    rw [consider_some hfit hch hch']
    by_cases heq : h' = h
    · rw [heq, ite_self]
    · exact if_pos (hlow h' ch ch' heq hfit' hch hch')

/-- No other channel replaces the best one. -/
theorem consider_keeps_best (hb : c.FitsBest k taken n h) (hne : h' ≠ h) : c.consider k taken n (some h) h' = some h := by
  by_cases hfit' : c.Fits k taken n h'
  · obtain ⟨⟨ch, hch, -⟩, hlow⟩ := hb
    obtain ⟨ch', hch', hrest⟩ := id hfit'
    rw [consider_some hfit' hch' hch]
    exact if_neg (Nat.not_lt.2 (Nat.le_of_lt (hlow h' ch ch' hne hfit' hch hch')))
  · exact consider_of_not_fits hfit'

/-- The scan over a list that has the best channel, or after it, ends with that channel. -/
theorem foldl_consider_best (hb : c.FitsBest k taken n h) (l : List (Fin 32)) (best : Option (Fin 32))
    (hbest : ∀ h', best = some h' → c.Fits k taken n h') (hmem : best = some h ∨ h ∈ l) :
    l.foldl (c.consider k taken n) best = some h := by
  induction l generalizing best with
  | nil => exact hmem.resolve_right (List.not_mem_nil)
  | cons x xs ih =>
    by_cases hx : x = h
    · subst hx
      rw [List.foldl_cons, consider_best hb hbest]
      exact ih _ (fun h' hh => Option.some.inj hh ▸ hb.1) (.inl rfl)
    · refine ih _ (fun h' hh => ?_) ?_
      · by_cases hfit : c.Fits k taken n x
        · rcases consider_cases best x with hkeep | htake
          · exact hbest h' (hkeep.symm.trans hh)
          · exact Option.some.inj (htake.symm.trans hh) ▸ hfit
        · exact hbest h' ((consider_of_not_fits hfit).symm.trans hh)
      · rcases hmem with rfl | hmem
        · exact .inl (consider_keeps_best hb hx)
        · exact .inr ((List.mem_cons.1 hmem).resolve_left (Ne.symm hx))

theorem bestCandidate_some (hb : c.FitsBest k taken n h) : c.bestCandidate k taken n = some h := by
  rw [bestCandidate_eq_foldl]
  exact foldl_consider_best hb _ none (fun _ hh => nomatch hh) (.inr (List.mem_finRange h))

theorem bestCandidate_none (hn : ∀ h, ¬ c.Fits k taken n h) : c.bestCandidate k taken n = none := by
  rw [bestCandidate_eq_foldl]
  induction keys 32 with
  | nil => rfl
  | cons x xs ih => rw [List.foldl_cons, consider_of_not_fits (hn x), ih]

/-! ## The match of one and of two requests -/

theorem matchRequests_cons_some {rest : List Nat} (hb : c.FitsBest k taken n h) :
    c.matchRequests k (n :: rest) taken = c.matchRequests k rest (taken ++ [h]) := by
  rw [Chip.matchRequests, bestCandidate_some hb]

theorem matchRequests_cons_none {rest : List Nat} (hn : ∀ h, ¬ c.Fits k taken n h) :
    c.matchRequests k (n :: rest) taken = c.matchRequests k rest taken := by
  rw [Chip.matchRequests, bestCandidate_none hn]

theorem matchRequests_congr (hc : d.hub = c.hub) (rs : List Nat) (taken : List (Fin 32)) :
    d.matchRequests k rs taken = c.matchRequests k rs taken := by
  have hbest (taken : List (Fin 32)) (n : Nat) : d.bestCandidate k taken n = c.bestCandidate k taken n := by
    unfold Chip.bestCandidate Chip.channel
    rw [hc]
  induction rs generalizing taken with
  | nil => rfl
  | cons r rest ih =>
    rw [Chip.matchRequests, Chip.matchRequests, hbest]
    split
    · exact ih _
    · exact ih _

end Sys2Proof.Machine

/-!
PROOF. The pages that end a negotiation before RUNNING (R40 to R44): a BASE page without channel requests, a CHANNEL_REQ page,
and a page that more follows.
-/

namespace Sys2Proof.Machine

variable {c d t : Chip} {k : Fin 16} {s : State} {x : Exchange} {page : List Byte}
  {run floor priority count size n : Nat} {requests : List Nat} {h h' : Fin 32} {reason : HoldReason}

/-! ## A page that ends the negotiation -/

/-- What a negotiation that succeeds leaves to the event (R10, R43, R44). -/
structure Chip.Admitted (c : Chip) (k : Fin 16) (run floor priority : Nat) (requests : List Nat) (t : Chip) : Prop where
  state : (t.slot k).state = c.admissionState
  terms : (t.slot k).terms = some (c.matchedTerms k run floor priority requests)
  handoff : Instr.matchHandoff k (c.matchRequests k requests []) ∈ t.messages
  short : (c.matchedTerms k run floor priority requests).short = true → t.alerted (.slot k) .channelShort
  idle : (c.engine k).renegRequest = false → (t.engine k).phase = .idle
  only : c.onlySlotRecord k t

theorem phase_answerPhase (k : Fin 16) (c : Chip) : ((answerPhase k c).engine k).phase = (c.engine k).phase := by
  rw [engine_answerPhase]

theorem matchRequests_answerPhase (requests : List Nat) (taken : List (Fin 32)) :
    (answerPhase k c).matchRequests k requests taken = c.matchRequests k requests taken :=
  matchRequests_congr (d := answerPhase k c) (c := c) rfl _ _

theorem onlySlotRecord_answerPhase (k : Fin 16) (c : Chip) : c.onlySlotRecord k (answerPhase k c) :=
  (onlySlotRecord_keeps k c).answerPhase (Chip.onlySlotRecord_refl k c)

theorem resolve_admits (hs : (c.slot k).state = .negotiating) (hp : (c.engine k).phase = .negotiation) (hf : floor ≤ run)
    (hc : run ≤ c.settings.slotCeiling) : c.Admitted k run floor priority requests
      (queueService (arbitrate k (resolve k run floor priority requests (answerPhase k c)))) := by
  have hresolve : resolve k run floor priority requests (answerPhase k c) =
      admitTerms k ((answerPhase k c).termed k run floor priority requests) := by
    rw [resolve_succeeds (resolutionFailure_none (c := answerPhase k c) hf hc),
      resolved_negotiation ((phase_answerPhase k c).trans hp) hs]
  have honly : c.onlySlotRecord k (queueService (arbitrate k (resolve k run floor priority requests (answerPhase k c)))) := by
    have hkeeps := onlySlotRecord_keeps k c
    exact hkeeps.queueService (hkeeps.arbitrate (hkeeps.resolve _ _ _ _ (onlySlotRecord_answerPhase k c)))
  have hleaves := admitted_leaves (termed_termed (answerPhase k c) k run floor priority requests) hs
  rw [hresolve] at honly ⊢
  dsimp only at hleaves
  obtain ⟨hstate, hterms, hhandoff, hshort, hidle, -⟩ := hleaves
  rw [matchRequests_answerPhase] at hhandoff hshort
  have hmatched : (answerPhase k c).matchedTerms k run floor priority requests = c.matchedTerms k run floor priority requests := by
    unfold Chip.matchedTerms
    rw [matchRequests_answerPhase]
  rw [hmatched] at hterms
  exact {
    state := hstate
    terms := hterms
    handoff := hhandoff
    short := hshort
    idle := fun hr => hidle (by rw [engine_answerPhase]; exact hr)
    only := honly }

/-- R42: a negotiation whose terms do not resolve holds the slot. -/
theorem resolve_holds (hs : (c.slot k).state = .negotiating) (hp : (c.engine k).phase = .negotiation)
    (hr : c.resolutionFailure run floor = some reason) :
    (let u := queueService (arbitrate k (resolve k run floor priority requests (answerPhase k c)))
     (u.slot k).state = .held ∧ (u.slot k).holdReason = some reason ∧ c.onlySlotRecord k u) := by
  have hr' : (answerPhase k c).resolutionFailure run floor = some reason := hr
  have hkeeps := onlySlotRecord_keeps k c
  dsimp only
  rw [resolve_fails hr', failNegotiation_negotiation _ ((phase_answerPhase k c).trans hp) hs]
  obtain ⟨hstate, hreason, -, -, -, -⟩ := held_leaves (k := k) reason (endPhase k (answerPhase k c))
  exact ⟨hstate, hreason,
    hkeeps.queueService (hkeeps.arbitrate (hkeeps.toHeld _ (hkeeps.endPhase (onlySlotRecord_answerPhase k c))))⟩

/-- R43: a match with no request is empty, and not short. -/
theorem Chip.Admitted.terms_of_no_requests (ha : c.Admitted k run floor priority [] t) :
    (t.slot k).terms = some { runDraw := run, floorDraw := floor, priority := priority, requests := [], short := false } :=
  ha.terms

/-! ## A BASE page -/

/-- R42: the BASE page of a negotiation, with no channel to ask for. -/
theorem resolve_base (hs : (c.slot k).state = .negotiating) (hp : (c.engine k).phase = .negotiation)
    (hr : (c.engine k).renegRequest = false) :
    (let u := queueService (arbitrate k (resolve k run floor priority [] (answerPhase k c)))
     (floor ≤ run → run ≤ c.settings.slotCeiling →
        (u.slot k).terms = some { runDraw := run, floorDraw := floor, priority := priority, requests := [], short := false } ∧
        (u.slot k).state = c.admissionState ∧ Instr.matchHandoff k [] ∈ u.messages ∧ (u.engine k).phase = .idle) ∧
      (run < floor → (u.slot k).state = .held ∧ (u.slot k).holdReason = some .negError) ∧
      (floor ≤ run → c.settings.slotCeiling < run →
        (u.slot k).state = .held ∧ (u.slot k).holdReason = some .budgetMismatch) ∧ c.onlySlotRecord k u) := by
  have hkeeps := onlySlotRecord_keeps k c
  refine ⟨fun hf hc => ?_, fun hlt => ?_, fun hf hlt => ?_, ?_⟩
  · have ha := resolve_admits (priority := priority) (requests := []) hs hp hf hc
    exact ⟨ha.terms_of_no_requests, ha.state, ha.handoff, ha.idle hr⟩
  · obtain ⟨hstate, hreason, -⟩ := resolve_holds (priority := priority) (requests := []) hs hp (resolutionFailure_floor hlt)
    exact ⟨hstate, hreason⟩
  · obtain ⟨hstate, hreason, -⟩ :=
      resolve_holds (priority := priority) (requests := []) hs hp (resolutionFailure_ceiling hf hlt)
    exact ⟨hstate, hreason⟩
  · exact hkeeps.queueService (hkeeps.arbitrate (hkeeps.resolve _ _ _ _ (onlySlotRecord_answerPhase k c)))

/-! ## A page that more follows -/

/-- R40: the draft is kept and the next page asked for. -/
theorem exec_slotPage_drafts (hq : s.chip.quiescent)
    (hp : (s.chip.engine k).phase = .negotiation ∨ (s.chip.engine k).phase = .renegotiation)
    (hx : (s.chip.engine k).inFlight = some x) (hr : x.request = .negotiate) (hquiet : (s.chip.engine k).quiet = false)
    (h7 : (s.chip.engine k).responses < 7) (hsum : byteSum page = 0)
    (hterms : termsOf (s.chip.engine k).draft (readPage page) = some (true, run, floor, priority, count, requests))
    (ht : (readPage page).toggle = x.toggle) (hm : (readPage page).more = true) (hf : (readPage page).fault = .none)
    (hc : requests.length ≤ count) :
    exec (.slotPageReceived k page) s = .next (s.onChip (setEngine k { s.chip.engine k with
      inFlight := sentPage .next (!(s.chip.engine k).toggle), responses := (s.chip.engine k).responses + 1,
      toggle := !(s.chip.engine k).toggle, draft := some (.terms run floor priority count requests) } s.chip)) := by
  refine taken_settled (event := slotPage k page) ?_ hq
  have hresponses : ((answerPhase k s.chip).engine k).responses < 8 := by
    rw [engine_answerPhase]
    exact Nat.succ_lt_succ h7
  rw [slotPage_of_sum hx hsum, takePage_negotiate hr, negotiationPage_continues hterms ht hf, hm,
    continueTerms_gathers hc hresponses]
  exact arbitrate_gather _ hquiet (by rcases hp with hp | hp <;> rw [hp] <;> decide)

/-! ## A CHANNEL_REQ page -/

/-- R43: the match of the obligation, by the handles that it grants. -/
theorem Chip.Admitted.matched {handles : List (Fin 32)} (ha : c.Admitted k run floor priority (requests ++ [size]) t)
    (hm : c.matchRequests k (requests ++ [size]) [] = handles) :
    Instr.matchHandoff k handles ∈ t.messages ∧ (t.slot k).terms = some
      { runDraw := run, floorDraw := floor, priority := priority, requests := requests ++ [size],
        short := decide (handles.length < requests.length + 1) } ∧
      (handles.length < requests.length + 1 → t.alerted (.slot k) .channelShort) := by
  obtain ⟨-, hterms, hhandoff, hshort, -, -⟩ := ha
  unfold Chip.matchedTerms at hterms hshort
  rw [hm, List.length_append, List.length_singleton] at hterms hshort
  rw [hm] at hhandoff
  exact ⟨hhandoff, hterms, fun hlt => hshort (decide_eq_true hlt)⟩

theorem matchRequests_one (hb : c.FitsBest k [] n h) : c.matchRequests k [n] [] = [h] := matchRequests_cons_some hb

theorem matchRequests_none (hn : ∀ h, ¬ c.Fits k [] n h) : c.matchRequests k [n] [] = [] := matchRequests_cons_none hn

theorem matchRequests_two (hb : c.FitsBest k [] n h) (hb' : c.FitsBest k [h] size h') :
    c.matchRequests k [n, size] [] = [h, h'] := (matchRequests_cons_some hb).trans (matchRequests_cons_some hb')

theorem matchRequests_first (hb : c.FitsBest k [] n h) (hn : ∀ h', ¬ c.Fits k [h] size h') :
    c.matchRequests k [n, size] [] = [h] := (matchRequests_cons_some hb).trans (matchRequests_cons_none hn)

theorem matchRequests_second (hn : ∀ h', ¬ c.Fits k [] n h') (hb : c.FitsBest k [] size h) :
    c.matchRequests k [n, size] [] = [h] := (matchRequests_cons_none hn).trans (matchRequests_one hb)

theorem matchRequests_neither (hn : ∀ h', ¬ c.Fits k [] n h') (hn' : ∀ h', ¬ c.Fits k [] size h') :
    c.matchRequests k [n, size] [] = [] := (matchRequests_cons_none hn).trans (matchRequests_none hn')

/-- R42: the event of a BASE page without channel requests in a negotiation. -/
theorem slotPage_base (hs : (s.chip.slot k).state = .negotiating) (hp : (s.chip.engine k).phase = .negotiation)
    (hn : (s.chip.engine k).renegRequest = false) (hd : (s.chip.engine k).draft = some .fresh)
    (hx : (s.chip.engine k).inFlight = some x) (hr : x.request = .negotiate) (hsum : byteSum page = 0)
    (hb : (readPage page).base = some (run, floor, priority, 0)) (ht : (readPage page).toggle = x.toggle)
    (hm : (readPage page).more = false) (hf : (readPage page).fault = .none)
    (hrange : baseInRange run floor priority 0 = true) :
    ∃ t, exec (.slotPageReceived k page) s = .next t ∧
      (floor ≤ run → run ≤ s.chip.settings.slotCeiling →
        (t.chip.slot k).terms = some { runDraw := run, floorDraw := floor, priority := priority, requests := [], short := false } ∧
        (t.chip.slot k).state = (if s.chip.settings.autoAdmission then .awaitingGrant else .awaitingAdmit) ∧
        Instr.matchHandoff k [] ∈ t.chip.messages ∧ (t.chip.engine k).phase = .idle) ∧
      (run < floor → (t.chip.slot k).state = .held ∧ (t.chip.slot k).holdReason = some .negError) ∧
      (floor ≤ run → s.chip.settings.slotCeiling < run →
        (t.chip.slot k).state = .held ∧ (t.chip.slot k).holdReason = some .budgetMismatch) ∧
      s.chip.onlySlotRecord k t.chip := by
  have hterms : termsOf (s.chip.engine k).draft (readPage page) = some (true, run, floor, priority, 0, []) := by
    rw [hd]
    exact termsOf_base hb hrange
  exact ⟨_, exec_slotPage_resolves hx (.inl hr) hsum hterms ht hm hf rfl, resolve_base hs hp hn⟩

end Sys2Proof.Machine

/-!
PROOF. Renegotiated terms (R54, R106): the grant that the new terms leave to the slot, and what the settling of the event and the
service of the queue leave of it.
-/

namespace Sys2Proof.Machine

variable {c d t : Chip} {j k : Fin 16} {g : GrantRecord} {run floor : Nat} {Q : GrantRecord → Prop}

/-! ## The grant under the new terms (R106 steps 1 to 5) -/

/-- R106 step 1: HOST and THERMAL leave a slot without a floor draw. -/
def Chip.capsKept (c : Chip) (k : Fin 16) : CapSet :=
  if c.floorDraw k = 0 then ((c.grant k).capSet.put .host false).put .thermal false else (c.grant k).capSet

/-- R106 step 2: the grant the terms call for. -/
def Chip.grantTarget (c : Chip) (k : Fin 16) : Nat :=
  if (c.capsKept k).host = true ∨ (c.capsKept k).thermal = true then c.floorDraw k else c.runDraw k

/-- R106 steps 3 and 4: a grant that falls to its target. -/
def Chip.grantLowered (c : Chip) (k : Fin 16) : GrantRecord :=
  let g := { c.grant k with
    grant := c.grantTarget k, level := levelFor (c.slot k).terms (c.grantTarget k), capSet := c.capsKept k }
  if g.level = .full then { g with capSet := g.capSet.put .budget false } else g

/-- R106 step 5: a grant below its target, which waits with BUDGET. -/
def Chip.grantKeptLow (c : Chip) (k : Fin 16) : GrantRecord :=
  { c.grant k with level := levelFor (c.slot k).terms (c.grant k).grant, capSet := (c.capsKept k).put .budget true }

def Chip.renegotiated (c : Chip) (k : Fin 16) : GrantRecord :=
  if c.grantTarget k ≤ (c.grant k).grant then c.grantLowered k else c.grantKeptLow k

/-- The part with the grant written and the slot's uplift entry brought into line. -/
abbrev Chip.regranted (c : Chip) (k : Fin 16) : Chip := alignUplift k (setGrant k (c.renegotiated k) c)

/-- R106 step 6: the GRANT is asked for. -/
abbrev Chip.regrantAsked (c : Chip) (k : Fin 16) : Chip :=
  post (.grantRequest k (c.renegotiated k).grant (c.renegotiated k).level) (c.regranted k)

/-- R106 as one write of the grant record. -/
theorem settleTerms_eq (k : Fin 16) (c : Chip) : settleTerms k c = settlePower c true (c.regrantAsked k) := by
  have hgrant : (c.regranted k).grant k = c.renegotiated k := by rw [grant_alignUplift, grant_setGrant_self]
  have hcaps : (if c.floorDraw k = 0 then
      modGrant k (fun g => { g with capSet := (g.capSet.put .host false).put .thermal false }) c else c) =
        setGrant k { c.grant k with capSet := c.capsKept k } c := by
    unfold Chip.capsKept
    split
    · rfl
    · exact (setGrant_grant k c).symm
  unfold settleTerms powerEvent
  beta_reduce
  extract_lets f c1 g target c2 c3
  have h1 : c1 = setGrant k { c.grant k with capSet := c.capsKept k } c := hcaps
  have hg : g = { c.grant k with capSet := c.capsKept k } := by rw [show g = c1.grant k from rfl, h1, grant_setGrant_self]
  have htarget : target = c.grantTarget k := by
    unfold target
    rw [hg, h1]
    rfl
  have h2 : c2 = setGrant k (c.renegotiated k) c := by
    unfold c2 Chip.renegotiated
    rw [htarget, hg, h1]
    dsimp only
    split
    · unfold writeGrant
      rw [modGrant_setGrant, modGrant_setGrant]
      rfl
    · unfold writeGrant
      rw [modGrant_setGrant, modGrant_setGrant]
      rfl
  have h3 : c3 = c.regranted k := congrArg (alignUplift k) h2
  rw [h3, hgrant]

/-! ## A slot that waits for no uplift -/

/-- A grant record that a CAP for shedding has written (R109). -/
abbrev GrantRecord.budgeted (g : GrantRecord) (q : Option CapSet) : GrantRecord :=
  { g with capSet := g.capSet.put .budget true, capRequest := q }

/-- A property of a grant record that a CAP for shedding does not disturb, and that lets the slot wait for no uplift. -/
structure GrantRecord.Settled (Q : GrantRecord → Prop) : Prop where
  capped : ∀ g q, Q g → Q (g.budgeted q)
  noUplift : ∀ g, Q g → ¬ (g.level = .floor ∧ g.capSet = .onlyBudget)

/-- The slot has such a grant, and waits for nothing. -/
structure Chip.Granted (c : Chip) (k : Fin 16) (Q : GrantRecord → Prop) : Prop where
  grant : Q (c.grant k)
  entry : c.queueEntry k = none

theorem qualifiesUplift_of_settled (hQ : GrantRecord.Settled Q) (h : Q (c.grant k)) : c.qualifiesUplift k = false :=
  Bool.eq_false_iff.2 fun hq => hQ.noUplift _ h (qualifiesUplift_iff.1 hq).2

theorem granted_aligned (hQ : GrantRecord.Settled Q) (h : c.Granted k Q) (j : Fin 16) (q : Option CapSet) :
    (alignUplift j (setGrant j ((c.grant j).budgeted q) c)).Granted k Q := by
  have hentry : (setGrant j ((c.grant j).budgeted q) c).queueEntry k = none := h.entry
  have hgrant : Q ((setGrant j ((c.grant j).budgeted q) c).grant k) := by
    rw [grant_setGrant]
    split
    · next hk => exact hQ.capped _ _ (hk ▸ h.grant)
    · exact h.grant
  generalize setGrant j ((c.grant j).budgeted q) c = d at hentry hgrant ⊢
  refine ⟨(grant_alignUplift j k d).symm ▸ hgrant, ?_⟩
  by_cases hj : j = k
  · subst hj
    rw [alignUplift_of_unqualified hentry (qualifiesUplift_of_settled hQ hgrant)]
    exact hentry
  · refine queueEntry_eq_none_iff.2 fun x hx hk => ?_
    exact queueEntry_eq_none_iff.1 hentry x ((mem_queue_alignUplift (by rw [hk]; exact Ne.symm hj)).1 hx) hk

theorem granted_capForShed (hQ : GrantRecord.Settled Q) (h : c.Granted k Q) (j : Fin 16) : (capForShed j c).Granted k Q := by
  unfold capForShed
  dsimp only
  split
  · exact granted_aligned (c := post (.capRequest j (c.floorDraw j)) c) hQ ⟨h.grant, h.entry⟩ j _
  · exact granted_aligned hQ h j _

theorem granted_settling (hQ : GrantRecord.Settled Q) (k : Fin 16) : SettlingKeeps fun c => c.Granted k Q where
  capForShed _ _ h := granted_capForShed hQ h _
  setShed _ _ h := ⟨h.grant, h.entry⟩
  setServiceDue _ _ h := ⟨h.grant, h.entry⟩
  raise _ _ _ h := ⟨h.grant, h.entry⟩
  post _ _ h := ⟨h.grant, h.entry⟩

theorem granted_queueService (h : c.Granted k Q) : Q ((queueService c).grant k) :=
  queueService_around (k := k) (P := fun t => Q (t.grant k))
    (fun _ _ _ hj h => by rw [grant_setGrant, if_neg (Ne.symm hj)]; exact h)
    (fun _ _ h => h) (fun _ _ h => h) (fun _ _ h => h) (queueEntry_eq_none_iff.1 h.entry) h.grant

theorem power_arbitrate (k : Fin 16) (c : Chip) : (arbitrate k c).power = c.power := by
  obtain ⟨e, l, ha, -⟩ := arbitrate_writes k c
  rw [ha]
  rfl

theorem Chip.Granted.of_power (h : c.Granted k Q) (hp : d.power = c.power) : d.Granted k Q := by
  refine ⟨?_, ?_⟩
  · show Q (d.power.grants.read k)
    rw [hp]
    exact h.grant
  · unfold Chip.queueEntry
    rw [hp]
    exact h.entry

/-- R106: the grant at the end of the event, when the slot waits for no uplift. -/
theorem regranted_leaves (hQ : GrantRecord.Settled Q) (hup : c.upliftOnly k) (hg : Q (c.renegotiated k)) :
    Q ((queueService (arbitrate k (settleTerms k c))).grant k) := by
  have hbody : (c.regranted k).Granted k Q := by
    have hgrant : Q ((setGrant k (c.renegotiated k) c).grant k) := by
      rw [grant_setGrant_self]
      exact hg
    refine ⟨?_, Chip.upliftOnly.queueEntry_alignUplift (c := setGrant k (c.renegotiated k) c) hup
      (qualifiesUplift_of_settled hQ hgrant)⟩
    rw [grant_alignUplift]
    exact hgrant
  have hsettled : (settleTerms k c).Granted k Q := by
    rw [settleTerms_eq]
    exact (granted_settling hQ k).settlePower c true ⟨hbody.grant, hbody.entry⟩
  exact granted_queueService (hsettled.of_power (power_arbitrate ..))

/-- R106 step 6: the GRANT that is asked for. -/
theorem mem_messages_settleTerms (k : Fin 16) (c : Chip) :
    Instr.grantRequest k (c.renegotiated k).grant (c.renegotiated k).level ∈ (settleTerms k c).messages := by
  rw [settleTerms_eq]
  exact (mem_messages_settling _).settlePower c true (mem_messages_post ..)

end Sys2Proof.Machine

/-!
PROOF. Renegotiated terms (R106): the four grants that new terms can leave to a slot, by its caps and by the draw that it had.
-/

namespace Sys2Proof.Machine

variable {c d t : Chip} {j k : Fin 16} {g : GrantRecord} {run floor n w : Nat} {Q : GrantRecord → Prop}

/-! ## Slots that are capped and slots that are not -/

/-- R106 step 2: the slot is capped by HOST or THERMAL and has a floor draw. -/
def Chip.Capped (c : Chip) (k : Fin 16) : Prop :=
  c.floorDraw k ≠ 0 ∧ ((c.grant k).capSet.host = true ∨ (c.grant k).capSet.thermal = true)

theorem capsKept_of_floor (h : c.floorDraw k ≠ 0) : c.capsKept k = (c.grant k).capSet := if_neg h

theorem capsKept_capped_iff : (c.capsKept k).host = true ∨ (c.capsKept k).thermal = true ↔ c.Capped k := by
  unfold Chip.Capped
  by_cases h : c.floorDraw k = 0
  · rw [Chip.capsKept, if_pos h]
    exact ⟨fun hn => hn.elim nofun nofun, fun hn => absurd h hn.1⟩
  · rw [capsKept_of_floor h]
    exact ⟨fun hc => ⟨h, hc⟩, fun hc => hc.2⟩

theorem grantTarget_capped (h : c.Capped k) : c.grantTarget k = c.floorDraw k := if_pos (capsKept_capped_iff.2 h)

theorem grantTarget_uncapped (h : ¬ c.Capped k) : c.grantTarget k = c.runDraw k := if_neg (mt capsKept_capped_iff.1 h)

/-- An uncapped slot that is given BUDGET has BUDGET alone. -/
theorem budget_of_uncapped (h : ¬ c.Capped k) : (c.capsKept k).put .budget true = .onlyBudget := by
  have hn := mt capsKept_capped_iff.1 h
  generalize c.capsKept k = set at hn
  obtain ⟨budget, thermal, host⟩ := set
  cases thermal
  · cases host
    · rfl
    · exact absurd (.inl rfl) hn
  · exact absurd (.inr rfl) hn

/-! ## The four grants -/

theorem renegotiated_falls (h : c.grantTarget k ≤ (c.grant k).grant) : c.renegotiated k = c.grantLowered k := if_pos h

theorem renegotiated_stays (h : (c.grant k).grant < c.grantTarget k) : c.renegotiated k = c.grantKeptLow k :=
  if_neg (Nat.not_le.2 h)

theorem grant_grantLowered (k : Fin 16) (c : Chip) : (c.grantLowered k).grant = c.grantTarget k ∧
    (c.grantLowered k).level = levelFor (c.slot k).terms (c.grantTarget k) := by
  unfold Chip.grantLowered
  dsimp only
  split
  · exact ⟨rfl, rfl⟩
  · exact ⟨rfl, rfl⟩

theorem caps_grantLowered (h : c.Capped k) :
    (c.grantLowered k).capSet.host = true ∨ (c.grantLowered k).capSet.thermal = true := by
  have hcaps := capsKept_capped_iff.2 h
  unfold Chip.grantLowered
  dsimp only
  split
  · exact hcaps
  · exact hcaps

/-- R92: a grant above 0 that is below the run draw. -/
theorem levelFor_below (h0 : 0 < w) (hw : w < c.runDraw k) : levelFor (c.slot k).terms w = .floor := by
  unfold levelFor
  rw [if_neg (Nat.ne_of_gt h0), if_neg fun heq => ?_]
  unfold Chip.runDraw at hw
  rw [heq] at hw
  exact lt_irrefl w hw

/-! ## What holds of each of them through the event -/

/-- The run draw in full. -/
def GrantRecord.FullAt (w : Nat) (g : GrantRecord) : Prop := g.grant = w ∧ g.level = .full

/-- A grant of a slot that HOST or THERMAL caps. -/
def GrantRecord.CappedAt (w : Nat) (l : Level) (g : GrantRecord) : Prop :=
  g.grant = w ∧ g.level = l ∧ (g.capSet.host = true ∨ g.capSet.thermal = true)

/-- A grant at level FLOOR with a cap set that has BUDGET and more. -/
def GrantRecord.HeldAt (w : Nat) (caps : CapSet) (g : GrantRecord) : Prop :=
  g.grant = w ∧ g.level = .floor ∧ g.capSet = caps

theorem fullAt_settled (w : Nat) : GrantRecord.Settled (GrantRecord.FullAt w) where
  capped _ _ h := h
  noUplift _ h hn := nomatch h.2.symm.trans hn.1

theorem not_onlyBudget_of_caps {s : CapSet} (h : s.host = true ∨ s.thermal = true) : s ≠ .onlyBudget := by
  rintro rfl
  exact h.elim nofun nofun

theorem cappedAt_settled (w : Nat) (l : Level) : GrantRecord.Settled (GrantRecord.CappedAt w l) where
  capped _ _ h := h
  noUplift _ h hn := not_onlyBudget_of_caps h.2.2 hn.2

theorem heldAt_settled {caps : CapSet} (hb : caps.budget = true) (h : caps.host = true ∨ caps.thermal = true) :
    GrantRecord.Settled (GrantRecord.HeldAt w caps) where
  capped g _ := fun ⟨hgrant, hlevel, hset⟩ => ⟨hgrant, hlevel, by
    show g.capSet.put .budget true = caps
    rw [hset, ← hb]
    rfl⟩
  noUplift _ hg hn := not_onlyBudget_of_caps h (hg.2.2.symm.trans hn.2)

/-- R106 step 3: an uncapped slot whose grant was no less than the new run draw. -/
theorem renegotiated_full (hc : ¬ c.Capped k) (h0 : 0 < c.runDraw k) (h : c.runDraw k ≤ (c.grant k).grant) :
    GrantRecord.FullAt (c.runDraw k) (c.renegotiated k) := by
  have ht := grantTarget_uncapped hc
  obtain ⟨hgrant, hlevel⟩ := grant_grantLowered k c
  rw [renegotiated_falls (ht.symm ▸ h)]
  rw [ht] at hgrant hlevel
  exact ⟨hgrant, hlevel.trans ((levelFor_runDraw k c).trans (if_neg (Nat.ne_of_gt h0)))⟩

/-- R106 step 3: a capped slot whose grant was no less than the new floor draw. -/
theorem renegotiated_floor (hc : c.Capped k) (h : c.floorDraw k ≤ (c.grant k).grant) :
    GrantRecord.CappedAt (c.floorDraw k) (if c.floorDraw k = c.runDraw k then .full else .floor) (c.renegotiated k) := by
  have ht := grantTarget_capped hc
  obtain ⟨hgrant, hlevel⟩ := grant_grantLowered k c
  rw [renegotiated_falls (ht.symm ▸ h)]
  have hcaps := caps_grantLowered hc
  rw [ht] at hgrant hlevel
  exact ⟨hgrant, hlevel.trans (levelFor_floorDraw (Nat.pos_of_ne_zero hc.1)), hcaps⟩

/-- R106 step 5: a capped slot whose grant was below the new floor draw. -/
theorem renegotiated_below (hc : c.Capped k) (h0 : 0 < (c.grant k).grant) (h : (c.grant k).grant < c.floorDraw k)
    (hle : c.floorDraw k ≤ c.runDraw k) :
    GrantRecord.HeldAt (c.grant k).grant { (c.grant k).capSet with budget := true } (c.renegotiated k) := by
  rw [renegotiated_stays (by rw [grantTarget_capped hc]; exact h)]
  refine ⟨rfl, levelFor_below h0 (lt_of_lt_of_le h hle), ?_⟩
  unfold Chip.grantKeptLow
  rw [capsKept_of_floor hc.1]
  rfl

/-- R106 step 5: an uncapped slot whose grant was below the new run draw. -/
theorem renegotiated_waits (hc : ¬ c.Capped k) (h0 : 0 < (c.grant k).grant) (h : (c.grant k).grant < c.runDraw k) :
    GrantRecord.HeldAt (c.grant k).grant .onlyBudget (c.renegotiated k) := by
  rw [renegotiated_stays (by rw [grantTarget_uncapped hc]; exact h)]
  exact ⟨rfl, levelFor_below h0 h, budget_of_uncapped hc⟩

end Sys2Proof.Machine

/-!
PROOF. Renegotiated terms of a slot that then waits for its uplift (R95, R97, R106): while the draw to serve it is missing, the
entry, its need and the grant stand to the end of the event.
-/

namespace Sys2Proof.Machine

variable {c d t : Chip} {j k : Fin 16} {n w : Nat} {a : Int} {e : QueueEntry}

/-! ## The uplift entry of a slot that qualifies (R95) -/

/-- The slot has an uplift entry of that need. -/
def Chip.Needs (c : Chip) (k : Fin 16) (n : Nat) : Prop :=
  ∃ e ∈ c.power.queue, e.slot = k ∧ e.kind = .uplift ∧ e.need = n

theorem needs_alignUplift_ne (h : c.Needs k n) (hj : j ≠ k) : (alignUplift j c).Needs k n := by
  obtain ⟨e, he, hslot, hrest⟩ := h
  exact ⟨e, (mem_queue_alignUplift (by rw [hslot]; exact Ne.symm hj)).2 he, hslot, hrest⟩

theorem alignUplift_rewrites (h : c.queueEntry k ≠ none) (hq : c.qualifiesUplift k = true) : alignUplift k c =
    setQueue (c.power.queue.map fun e => if e.slot = k then { e with need := c.runDraw k - (c.grant k).grant } else e) c := by
  obtain ⟨e, he⟩ := Option.ne_none_iff_exists'.1 h
  unfold alignUplift
  dsimp only
  rw [hq, he]
  rfl

/-- A slot that qualifies keeps its uplift entry, with the need rewritten. -/
theorem needs_alignUplift_self (h : c.Needs k w) (hq : c.qualifiesUplift k = true) :
    (alignUplift k c).Needs k (c.runDraw k - (c.grant k).grant) := by
  obtain ⟨e, he, hslot, hkind, -⟩ := h
  rw [alignUplift_rewrites (fun hn => queueEntry_eq_none_iff.1 hn e he hslot) hq]
  exact ⟨_, List.mem_map.2 ⟨e, he, if_pos hslot⟩, hslot, hkind, rfl⟩

/-- What the alignment leaves on a queue that holds no one else's entry. -/
def Chip.OnlyNeeds (c : Chip) (k : Fin 16) (n : Nat) : Prop :=
  ∀ e ∈ c.power.queue, e.slot = k ∧ e.kind = .uplift ∧ e.need = n

theorem needs_alignUplift (hup : c.upliftOnly k) (hall : ∀ e ∈ c.power.queue, e.slot = k) (hq : c.qualifiesUplift k = true) :
    (alignUplift k c).Needs k (c.runDraw k - (c.grant k).grant) ∧
      (alignUplift k c).OnlyNeeds k (c.runDraw k - (c.grant k).grant) := by
  cases hl : c.queueEntry k with
  | none =>
    have hempty (e : QueueEntry) (he : e ∈ c.power.queue) : False := queueEntry_eq_none_iff.1 hl e he (hall e he)
    rw [alignUplift_joins hl hq]
    refine ⟨⟨_, mem_insertEntry_iff.2 (.inl rfl), rfl, rfl, rfl⟩, fun e he => ?_⟩
    obtain rfl | he := mem_insertEntry_iff.1 he
    · exact ⟨rfl, rfl, rfl⟩
    · exact (hempty e he).elim
  | some e =>
    have he := queueEntry_mem hl
    have hneeds : c.Needs k e.need := ⟨e, he, hall e he, hup e he (hall e he), rfl⟩
    refine ⟨needs_alignUplift_self hneeds hq, fun x hx => ?_⟩
    rw [alignUplift_rewrites (by rw [hl]; exact Option.some_ne_none e) hq] at hx
    obtain ⟨y, hy, rfl⟩ := List.mem_map.1 hx
    rw [if_pos (hall y hy)]
    exact ⟨hall y hy, hup y hy (hall y hy), rfl⟩

/-! ## A slot that waits through the settling of an event -/

/-- The slot waits for an uplift, its grant and its need being those. -/
structure Chip.Lifting (k : Fin 16) (w n : Nat) (c : Chip) : Prop where
  running : (c.slot k).state = .running
  draw : c.runDraw k - w = n
  grant : GrantRecord.HeldAt w .onlyBudget (c.grant k)
  entry : c.Needs k n

theorem Chip.Lifting.qualifies (h : c.Lifting k w n) : c.qualifiesUplift k = true :=
  qualifiesUplift_iff.2 ⟨h.running, h.grant.2.1, h.grant.2.2⟩

theorem runDraw_alignUplift (j k : Fin 16) (c : Chip) : (alignUplift j c).runDraw k = c.runDraw k :=
  alignUplift_keeps (P := fun t => t.runDraw k = c.runDraw k) (fun _ _ h => h) (fun _ _ h => h) j rfl

theorem slot_alignUplift (j k : Fin 16) (c : Chip) : (alignUplift j c).slot k = c.slot k :=
  alignUplift_keeps (P := fun t => t.slot k = c.slot k) (fun _ _ h => h) (fun _ _ h => h) j rfl

theorem lifting_alignUplift (h : c.Lifting k w n) (j : Fin 16) : (alignUplift j c).Lifting k w n where
  running := by rw [slot_alignUplift]; exact h.running
  draw := by rw [runDraw_alignUplift]; exact h.draw
  grant := by rw [grant_alignUplift]; exact h.grant
  entry := by
    by_cases hj : j = k
    · subst hj
      have hneed : c.runDraw j - (c.grant j).grant = n := by rw [h.grant.1]; exact h.draw
      rw [← hneed]
      exact needs_alignUplift_self h.entry h.qualifies
    · exact needs_alignUplift_ne h.entry hj

theorem lifting_setGrant (h : c.Lifting k w n) (j : Fin 16) (q : Option CapSet) :
    (setGrant j ((c.grant j).budgeted q) c).Lifting k w n where
  running := h.running
  draw := h.draw
  grant := by
    rw [grant_setGrant]
    split
    · next hk =>
      subst hk
      obtain ⟨hgrant, hlevel, hset⟩ := h.grant
      refine ⟨hgrant, hlevel, ?_⟩
      show (c.grant k).capSet.put .budget true = .onlyBudget
      rw [hset]
      rfl
    · exact h.grant
  entry := h.entry

theorem lifting_capForShed (h : c.Lifting k w n) (j : Fin 16) : (capForShed j c).Lifting k w n := by
  unfold capForShed
  dsimp only
  split
  · refine lifting_alignUplift ?_ j
    have hset := lifting_setGrant h j (some (CapSet.only .budget))
    exact ⟨hset.running, hset.draw, hset.grant, hset.entry⟩
  · exact lifting_alignUplift (lifting_setGrant h j _) j

theorem lifting_settling (k : Fin 16) (w n : Nat) : SettlingKeeps (Chip.Lifting k w n) where
  capForShed _ _ h := lifting_capForShed h _
  setShed _ _ h := ⟨h.running, h.draw, h.grant, h.entry⟩
  setServiceDue _ _ h := ⟨h.running, h.draw, h.grant, h.entry⟩
  raise _ _ _ h := ⟨h.running, h.draw, h.grant, h.entry⟩
  post _ _ h := ⟨h.running, h.draw, h.grant, h.entry⟩

theorem available_settling (a : Int) : SettlingKeeps fun c => c.available = a where
  capForShed _ _ h := (available_capForShed ..).trans h
  setShed _ _ h := h
  setServiceDue _ _ h := h
  raise _ _ _ h := h
  post _ _ h := h

/-! ## To the end of the event -/

theorem waits_of_uplift (hk : e.kind = .uplift) (hn : c.available < e.need) : c.waits e :=
  ⟨hn, fun ha => nomatch hk.symm.trans ha⟩

theorem available_arbitrate (k : Fin 16) (c : Chip) : (arbitrate k c).available = c.available := by
  obtain ⟨e, l, ha, -⟩ := arbitrate_writes k c
  rw [ha]
  rfl

/-- R97, R100, R114: with too little draw to serve the entry, nothing is served. -/
theorem queueService_lifts (honly : c.OnlyNeeds k n) (ha : c.available < n) {before : Chip} :
    queueService (arbitrate k (settlePower before true c)) = setServiceDue false (setQueue
      ((settlePower before true c).power.queue.map fun e => { e with fresh := false }) (arbitrate k (settlePower before true c))) := by
  have havail : (arbitrate k (settlePower before true c)).available = c.available :=
    (available_arbitrate ..).trans ((available_settling c.available).settlePower before true rfl)
  have hpower := power_arbitrate k (settlePower before true c)
  rw [← hpower]
  cases ho : c.overCommitted
  · obtain ⟨b, hb⟩ := settlePower_eases (before := before) (report := true) ho
    refine queueService_waiting (.inr fun e he => ?_)
    rw [hpower, hb] at he
    obtain ⟨-, hkind, hneed⟩ := honly e he
    exact waits_of_uplift hkind (by rw [havail, hneed]; exact ha)
  · refine queueService_overCommitted (overCommitted_iff_available.2 ?_)
    rw [havail]
    exact available_of_overCommitted ho

/-- The slot at the end of the event. -/
theorem lifting_leaves {before : Chip} (hl : c.Lifting k w n) (honly : c.OnlyNeeds k n) (ha : c.available < n) :
    (let u := queueService (arbitrate k (settlePower before true c))
     GrantRecord.HeldAt w .onlyBudget (u.grant k) ∧ u.Needs k n) := by
  have hsettled := (lifting_settling k w n).settlePower before true hl
  have hlast := queueService_lifts honly ha (before := before)
  dsimp only
  generalize settlePower before true c = p at hsettled hlast ⊢
  have hgrant : (arbitrate k p).grant k = p.grant k := congrArg (fun x : Power => x.grants.read k) (power_arbitrate k p)
  generalize arbitrate k p = q at hlast hgrant ⊢
  obtain ⟨e, he, hrest⟩ := hsettled.entry
  rw [hlast]
  refine ⟨?_, _, List.mem_map.2 ⟨e, he, rfl⟩, hrest⟩
  have hq : GrantRecord.HeldAt w .onlyBudget (q.grant k) := hgrant.symm ▸ hsettled.grant
  exact hq

end Sys2Proof.Machine

/-!
PROOF. A BASE page that ends a renegotiation (R54, R106), and O21.
-/

namespace Sys2Proof.Machine

variable {c d t : Chip} {k : Fin 16} {s : State} {x : Exchange} {page : List Byte}
  {run floor priority count size n w : Nat} {requests : List Nat} {reason : HoldReason} {h h' : Fin 32}

/-! ## A renegotiation that fails -/

/-- R54: the slot and its grant are as before. -/
theorem resolve_degrades (hq : c.quiescent) (hs : (c.slot k).state = .running) (hp : (c.engine k).phase = .renegotiation)
    (hr : c.resolutionFailure run floor = some reason) :
    (let u := queueService (arbitrate k (resolve k run floor priority requests (answerPhase k c)))
     u.slot k = c.slot k ∧ u.grant k = c.grant k ∧ u.alerted (.slot k) .degraded) := by
  have hr' : (answerPhase k c).resolutionFailure run floor = some reason := hr
  have hfails : resolve k run floor priority requests (answerPhase k c) =
      raise (.slot k) .degraded (endPhase k (answerPhase k c)) := by
    rw [resolve_fails hr', failNegotiation_renegotiation _ ((phase_answerPhase k c).trans hp) hs]
  have halert := alerted_raise (.slot k) .degraded (endPhase k (answerPhase k c))
  have hpower : (arbitrate k (raise (.slot k) .degraded (endPhase k (answerPhase k c)))).power = c.power := power_arbitrate ..
  have hslot : (arbitrate k (raise (.slot k) .degraded (endPhase k (answerPhase k c)))).slot k = c.slot k := slot_arbitrate ..
  dsimp only
  rw [hfails]
  generalize raise (.slot k) .degraded (endPhase k (answerPhase k c)) = d at halert hpower hslot
  rw [queueService_of_settled (by rw [hpower]; exact hq.1) (by rw [hpower]; exact hq.2)]
  exact ⟨hslot, congrArg (fun p : Power => p.grants.read k) hpower,
    (Chip.alerted_keeps (.slot k) .degraded).toEngineKeeps.arbitrate k halert⟩

/-! ## A renegotiation that succeeds -/

/-- The slot with its new terms, and its grant and the queue as they were. -/
structure Chip.UnderTerms (c : Chip) (k : Fin 16) (run floor : Nat) (d : Chip) : Prop where
  running : (d.slot k).state = .running
  runDraw : d.runDraw k = run
  floorDraw : d.floorDraw k = floor
  power : d.power = c.power
  available : d.available = c.available

namespace Chip.UnderTerms

variable (hu : c.UnderTerms k run floor d)
include hu

theorem grant : d.grant k = c.grant k := congrArg (fun p : Power => p.grants.read k) hu.power

theorem capped_iff : d.Capped k ↔ floor ≠ 0 ∧ ((c.grant k).capSet.host = true ∨ (c.grant k).capSet.thermal = true) := by
  unfold Chip.Capped
  rw [hu.floorDraw, hu.grant]

theorem upliftOnly (hup : c.upliftOnly k) : d.upliftOnly k := by
  unfold Chip.upliftOnly
  rw [hu.power]
  exact hup

end Chip.UnderTerms

theorem underTerms_termed (hs : (c.slot k).state = .running) :
    c.UnderTerms k run floor ((answerPhase k c).termed k run floor priority requests) := by
  obtain ⟨hslot, -, hpower, -, -, -⟩ := termed_termed (answerPhase k c) k run floor priority requests
  have havailable : ((answerPhase k c).termed k run floor priority requests).available = c.available :=
    ite_keeps (P := fun t => t.available = c.available) rfl rfl
  exact {
    running := by rw [hslot]; exact hs
    runDraw := by unfold Chip.runDraw; rw [hslot]; rfl
    floorDraw := by unfold Chip.floorDraw; rw [hslot]; rfl
    power := hpower
    available := havailable }

/-- The part at the end of the event. -/
abbrev Chip.afterTerms (d : Chip) (k : Fin 16) : Chip := queueService (arbitrate k (settleTerms k d))

theorem mem_messages_afterTerms (k : Fin 16) (d : Chip) :
    Instr.grantRequest k (d.renegotiated k).grant (d.renegotiated k).level ∈ (d.afterTerms k).messages :=
  mem_messages_queueService (mem_messages_arbitrate k (mem_messages_settleTerms k d))

section Grants

variable (hu : c.UnderTerms k run floor d) (hup : c.upliftOnly k)
include hu hup

/-- R106: an uncapped slot whose grant falls to the run draw. -/
theorem afterTerms_full (hn : ¬ d.Capped k) (h5 : 5 ≤ run) (hle : run ≤ (c.grant k).grant) :
    ((d.afterTerms k).grant k).grant = run ∧ ((d.afterTerms k).grant k).level = .full ∧
      Instr.grantRequest k run .full ∈ (d.afterTerms k).messages := by
  have hr : GrantRecord.FullAt run (d.renegotiated k) := by
    have hfull := renegotiated_full hn (by rw [hu.runDraw]; omega) (by rw [hu.runDraw, hu.grant]; exact hle)
    rwa [hu.runDraw] at hfull
  obtain ⟨hgrant, hlevel⟩ := regranted_leaves (fullAt_settled run) (hu.upliftOnly hup) hr
  refine ⟨hgrant, hlevel, ?_⟩
  rw [← hr.1, ← hr.2]
  exact mem_messages_afterTerms k d

/-- R106: a capped slot whose grant falls to the floor draw. -/
theorem afterTerms_floor (hc : d.Capped k) (hle : floor ≤ (c.grant k).grant) :
    ((d.afterTerms k).grant k).grant = floor ∧
      ((d.afterTerms k).grant k).level = (if floor = run then .full else .floor) ∧
      Instr.grantRequest k floor (if floor = run then .full else .floor) ∈ (d.afterTerms k).messages := by
  have hr : GrantRecord.CappedAt floor (if floor = run then .full else .floor) (d.renegotiated k) := by
    have hfloor := renegotiated_floor hc (by rw [hu.floorDraw, hu.grant]; exact hle)
    rwa [hu.floorDraw, hu.runDraw] at hfloor
  obtain ⟨hgrant, hlevel, -⟩ := regranted_leaves (cappedAt_settled floor _) (hu.upliftOnly hup) hr
  refine ⟨hgrant, hlevel, ?_⟩
  have hmessage := mem_messages_afterTerms k d
  rwa [hr.1, hr.2.1] at hmessage

/-- R106: a capped slot whose grant was below the floor draw. -/
theorem afterTerms_below (hc : d.Capped k) (h0 : 0 < (c.grant k).grant) (hlt : (c.grant k).grant < floor) (hle : floor ≤ run) :
    ((d.afterTerms k).grant k).grant = (c.grant k).grant ∧ ((d.afterTerms k).grant k).level = .floor ∧
      ((d.afterTerms k).grant k).capSet = { (c.grant k).capSet with budget := true } ∧
      Instr.grantRequest k (c.grant k).grant .floor ∈ (d.afterTerms k).messages := by
  have hcaps := hc.2
  rw [hu.grant] at hcaps
  have hr : GrantRecord.HeldAt (c.grant k).grant { (c.grant k).capSet with budget := true } (d.renegotiated k) := by
    have hbelow := renegotiated_below hc (by rw [hu.grant]; exact h0) (by rw [hu.grant, hu.floorDraw]; exact hlt)
      (by rw [hu.floorDraw, hu.runDraw]; exact hle)
    rwa [hu.grant] at hbelow
  obtain ⟨hgrant, hlevel, hset⟩ := regranted_leaves (heldAt_settled (w := (c.grant k).grant)
    (caps := { (c.grant k).capSet with budget := true }) rfl hcaps) (hu.upliftOnly hup) hr
  refine ⟨hgrant, hlevel, hset, ?_⟩
  have hmessage := mem_messages_afterTerms k d
  rwa [hr.1, hr.2.1] at hmessage

omit hup in
/-- R106 step 5: the grant of an uncapped slot that waits for its uplift. -/
theorem heldAt_of_waits (hn : ¬ d.Capped k) (h0 : 0 < (c.grant k).grant) (hlt : (c.grant k).grant < run) :
    GrantRecord.HeldAt (c.grant k).grant .onlyBudget (d.renegotiated k) := by
  have hwaits := renegotiated_waits hn (by rw [hu.grant]; exact h0) (by rw [hu.grant, hu.runDraw]; exact hlt)
  rwa [hu.grant] at hwaits

omit hup in
theorem available_regrantAsked (hr : (d.renegotiated k).grant = (c.grant k).grant) :
    (d.regrantAsked k).available = c.available := by
  have hset : (setGrant k (d.renegotiated k) d).available = d.available := available_setGrant (by rw [hr, hu.grant])
  exact alignUplift_keeps (P := fun t => t.available = c.available) (fun _ _ h => h) (fun _ _ h => h) k
    (hset.trans hu.available)

/-- R95, R106: the slot waits for its uplift, and no other slot is on the queue. -/
theorem lifting_regrantAsked (hr : GrantRecord.HeldAt (c.grant k).grant .onlyBudget (d.renegotiated k))
    (hall : ∀ e ∈ c.power.queue, e.slot = k) :
    (d.regrantAsked k).Lifting k (c.grant k).grant (run - (c.grant k).grant) ∧
      (d.regrantAsked k).OnlyNeeds k (run - (c.grant k).grant) := by
  have hself : (setGrant k (d.renegotiated k) d).grant k = d.renegotiated k := grant_setGrant_self ..
  have hdraw : (setGrant k (d.renegotiated k) d).runDraw k = run := hu.runDraw
  have hqueue : ∀ e ∈ (setGrant k (d.renegotiated k) d).power.queue, e.slot = k := by
    show ∀ e ∈ d.power.queue, e.slot = k
    rw [hu.power]
    exact hall
  have hqualifies : (setGrant k (d.renegotiated k) d).qualifiesUplift k = true :=
    qualifiesUplift_iff.2 ⟨hu.running, by rw [hself]; exact hr.2.1, by rw [hself]; exact hr.2.2⟩
  have hneeds := needs_alignUplift (c := setGrant k (d.renegotiated k) d) (hu.upliftOnly hup) hqueue hqualifies
  rw [hself, hr.1, hdraw] at hneeds
  obtain ⟨hentry, honly⟩ := hneeds
  have hlift : (d.regranted k).Lifting k (c.grant k).grant (run - (c.grant k).grant) := {
    running := by rw [slot_alignUplift]; exact hu.running
    draw := by rw [runDraw_alignUplift, hdraw]
    grant := by rw [grant_alignUplift, hself]; exact hr
    entry := hentry }
  exact ⟨⟨hlift.running, hlift.draw, hlift.grant, hlift.entry⟩, honly⟩

/-- R106, R97: an uncapped slot that waits for its uplift, the draw to serve it being missing. -/
theorem afterTerms_waits (hn : ¬ d.Capped k) (h0 : 0 < (c.grant k).grant) (hlt : (c.grant k).grant < run)
    (ha : c.available < (run : Int) - (c.grant k).grant) (hall : ∀ e ∈ c.power.queue, e.slot = k) :
    ((d.afterTerms k).grant k).grant = (c.grant k).grant ∧ ((d.afterTerms k).grant k).level = .floor ∧
      ((d.afterTerms k).grant k).capSet = .onlyBudget ∧
      Instr.grantRequest k (c.grant k).grant .floor ∈ (d.afterTerms k).messages ∧
      (d.afterTerms k).Needs k (run - (c.grant k).grant) := by
  have hr := heldAt_of_waits hu hn h0 hlt
  have hmessage := mem_messages_afterTerms k d
  rw [hr.1, hr.2.1] at hmessage
  obtain ⟨hlift, honly⟩ := lifting_regrantAsked hu hup hr hall
  have havail : (d.regrantAsked k).available < ((run - (c.grant k).grant : Nat) : Int) := by
    rw [available_regrantAsked hu hr.1]
    omega
  have hleaves := lifting_leaves (before := d) hlift honly havail
  rw [← settleTerms_eq] at hleaves
  obtain ⟨⟨hgrant, hlevel, hset⟩, hneeds⟩ := hleaves
  exact ⟨hgrant, hlevel, hset, hmessage, hneeds⟩

end Grants

/-- R54, R106: the slot at the end of the event, its terms being written. -/
theorem resolve_regrants (hs : (c.slot k).state = .running) (hp : (c.engine k).phase = .renegotiation) (hf : floor ≤ run)
    (hc : run ≤ c.settings.slotCeiling) : ∃ d, c.UnderTerms k run floor d ∧
      queueService (arbitrate k (resolve k run floor priority [] (answerPhase k c))) = d.afterTerms k ∧
      ((d.afterTerms k).slot k).state = .running ∧ ((d.afterTerms k).slot k).terms =
        some { runDraw := run, floorDraw := floor, priority := priority, requests := [], short := false } ∧
      Instr.matchHandoff k [] ∈ (d.afterTerms k).messages := by
  have hresolve : resolve k run floor priority [] (answerPhase k c) =
      settleTerms k ((answerPhase k c).termed k run floor priority []) := by
    rw [resolve_succeeds (resolutionFailure_none (c := answerPhase k c) hf hc),
      resolved_renegotiation ((phase_answerPhase k c).trans hp) hs]
  have hu := underTerms_termed (run := run) (floor := floor) (priority := priority) (requests := []) hs
  obtain ⟨hslot, -, -, -, hhandoff, -⟩ := termed_termed (answerPhase k c) k run floor priority []
  refine ⟨_, hu, by rw [hresolve], ?_⟩
  generalize (answerPhase k c).termed k run floor priority [] = d at hslot hhandoff hu
  have hlast : (d.afterTerms k).slot k = d.slot k := by
    have hsettled : (settleTerms k d).slot k = d.slot k := by
      rw [settleTerms_eq]
      exact PowerKeeps.settlePower (P := fun t => t.slot k = d.slot k) ⟨fun _ _ h => h, fun _ _ _ h => h, fun _ _ h => h⟩ d true
        (slot_alignUplift ..)
    exact ((queueService_sameSlots _).slot k).trans ((slot_arbitrate ..).trans hsettled)
  refine ⟨by rw [hlast]; exact hu.running, by rw [hlast, hslot]; rfl, mem_messages_queueService (mem_messages_arbitrate k ?_)⟩
  rw [settleTerms_eq]
  exact (mem_messages_settling _).settlePower d true (List.mem_append_left _ (alignUplift_keeps
    (P := fun t => Instr.matchHandoff k [] ∈ t.messages) (fun _ _ h => h) (fun _ _ h => h) k hhandoff))

/-- R42, R54, R106: the BASE page of a renegotiation, with no channel to ask for. -/
theorem resolve_renegotiation (hq : c.quiescent) (hs : (c.slot k).state = .running)
    (hp : (c.engine k).phase = .renegotiation) (h5 : 5 ≤ run) (hup : c.upliftOnly k) :
    (let g := c.grant k
     let capped : Prop := floor ≠ 0 ∧ (g.capSet.host = true ∨ g.capSet.thermal = true)
     let u := queueService (arbitrate k (resolve k run floor priority [] (answerPhase k c)))
     (u.slot k).state = .running ∧
       (run < floor ∨ c.settings.slotCeiling < run →
         u.slot k = c.slot k ∧ u.grant k = g ∧ u.alerted (.slot k) .degraded) ∧
       (floor ≤ run → run ≤ c.settings.slotCeiling →
         (u.slot k).terms = some
           { runDraw := run, floorDraw := floor, priority := priority, requests := [], short := false } ∧
         Instr.matchHandoff k [] ∈ u.messages ∧
         (¬ capped → run ≤ g.grant → (u.grant k).grant = run ∧ (u.grant k).level = .full ∧
           Instr.grantRequest k run .full ∈ u.messages) ∧
         (capped → floor ≤ g.grant → (u.grant k).grant = floor ∧
           (u.grant k).level = (if floor = run then .full else .floor) ∧
           Instr.grantRequest k floor (if floor = run then .full else .floor) ∈ u.messages) ∧
         (¬ capped → 0 < g.grant → g.grant < run → c.available < (run : Int) - g.grant →
           (∀ e ∈ c.power.queue, e.slot = k) →
           (u.grant k).grant = g.grant ∧ (u.grant k).level = .floor ∧
           (u.grant k).capSet = { CapSet.empty with budget := true } ∧
           Instr.grantRequest k g.grant .floor ∈ u.messages ∧
           ∃ e ∈ u.power.queue, e.slot = k ∧ e.kind = .uplift ∧ e.need = run - g.grant) ∧
         (capped → 0 < g.grant → g.grant < floor → (u.grant k).grant = g.grant ∧ (u.grant k).level = .floor ∧
           (u.grant k).capSet = { g.capSet with budget := true } ∧
           Instr.grantRequest k g.grant .floor ∈ u.messages))) := by
  have hdegrades (reason : HoldReason) (hr : c.resolutionFailure run floor = some reason) :=
    resolve_degrades (priority := priority) (requests := []) hq hs hp hr
  dsimp only at hdegrades ⊢
  by_cases hf : floor ≤ run
  · by_cases hc : run ≤ c.settings.slotCeiling
    · obtain ⟨d, hu, hlast, hstate, hterms, hhandoff⟩ := resolve_regrants (priority := priority) hs hp hf hc
      rw [hlast]
      refine ⟨hstate, fun hn => absurd hn (by omega), fun _ _ => ⟨hterms, hhandoff, ?_, ?_, ?_, ?_⟩⟩
      · exact fun hn hle => afterTerms_full hu hup (mt hu.capped_iff.1 hn) h5 hle
      · exact fun hy hle => afterTerms_floor hu hup (hu.capped_iff.2 hy) hle
      · exact fun hn h0 hlt ha hall => afterTerms_waits hu hup (mt hu.capped_iff.1 hn) h0 hlt ha hall
      · exact fun hy h0 hlt => afterTerms_below hu hup (hu.capped_iff.2 hy) h0 hlt hf
    · have hfail := hdegrades _ (resolutionFailure_ceiling hf (Nat.lt_of_not_le hc))
      exact ⟨by rw [hfail.1]; exact hs, fun _ => hfail, fun _ hn => absurd hn hc⟩
  · have hfail := hdegrades _ (resolutionFailure_floor (Nat.lt_of_not_le hf))
    exact ⟨by rw [hfail.1]; exact hs, fun _ => hfail, fun hn => absurd hn hf⟩

/-- Settles O21: each part takes the page to the resolution of its terms, and goes on from there by R10, R43 or R106. -/
theorem basePageResolves : Obligations.BasePageResolves := by
  unfold Obligations.BasePageResolves
  refine ⟨?_, ?_, ?_, ?_⟩
  · intro s k x page run floor priority hs hp hn hd hx hr hsum hb ht hm hf h5 h2000 hmod hfloor hpriority
    exact slotPage_base hs hp hn hd hx hr hsum hb ht hm hf (baseInRange_of h5 h2000 hmod hfloor hpriority (Nat.zero_le 2))
  · intro s k x page run floor priority count hq hp hd hx hr hquiet h7 hsum hb ht hm hf h5 h2000 hmod hfloor hpriority hcount
    refine exec_slotPage_drafts hq hp hx hr hquiet h7 hsum ?_ ht hm hf (Nat.zero_le count)
    rw [hd]
    exact termsOf_base hb (baseInRange_of h5 h2000 hmod hfloor hpriority hcount)
  · intro s k x page run floor priority size requests hs hp hd hx hr hsum hreq ht hm hf h1 h256 hle hceiling
    have hterms : termsOf (s.chip.engine k).draft (readPage page) =
        some (true, run, floor, priority, requests.length + 1, requests ++ [size]) := by
      rw [hd]
      exact termsOf_channelReq hreq h1 h256
    have hexec := exec_slotPage_resolves hx (.inr ⟨hr, by rw [hp]; decide⟩) hsum hterms ht hm hf (List.length_append ..)
    have ha := resolve_admits (priority := priority) (requests := requests ++ [size]) hs hp hle hceiling
    refine ⟨_, hexec, ha.state, ?_, ?_, ha.only⟩
    · rintro rfl
      exact ⟨fun h hb => ha.matched (matchRequests_one hb), fun hn => ha.matched (matchRequests_none hn)⟩
    · rintro n rfl
      exact ⟨fun h h' hb hb' => ha.matched (matchRequests_two hb hb'), fun h hb hn => ha.matched (matchRequests_first hb hn),
        fun h hn hb => ha.matched (matchRequests_second hn hb), fun hn hn' => ha.matched (matchRequests_neither hn hn')⟩
  · intro s k x page run floor priority hq hs hp hd hx hr hsum hb ht hm hf h5 h2000 hmod hfloor hpriority hup
    have hterms : termsOf (s.chip.engine k).draft (readPage page) = some (true, run, floor, priority, 0, []) := by
      rw [hd]
      exact termsOf_base hb (baseInRange_of h5 h2000 hmod hfloor hpriority (Nat.zero_le 2))
    have hkeeps := onlySlotRecord_keeps k s.chip
    obtain ⟨hstate, hfail, hsuccess⟩ := resolve_renegotiation (priority := priority) hq hs hp h5 hup
    exact ⟨_, exec_slotPage_resolves hx (.inl hr) hsum hterms ht hm hf rfl, hstate, hfail, hsuccess,
      hkeeps.queueService (hkeeps.arbitrate (hkeeps.resolve _ _ _ _ (onlySlotRecord_answerPhase k s.chip)))⟩

end Sys2Proof.Machine
